-- ==== Sys2Proof/Word.lean ====
section
/-! DEFINITION. The word types of the KH-960: 64-bit scalar words, bytes, vector registers and masks. -/

namespace Sys2Proof

/-- A scalar register's value (R116). -/
abbrev Word := BitVec 64

/-- One byte of memory. -/
abbrev Byte := BitVec 8

/-- A vector register of 1024 bits (R31, 02_barrel_core.md). -/
abbrev VWord := BitVec 1024

/-- A mask register of 128 bits. -/
abbrev MWord := BitVec 128

end Sys2Proof
end

