-- ==== Sys2Proof/Config.lean ====
section
/-! DEFINITION. What the spec leaves to one device or to one moment. Each is an opaque constant: nothing can be proved of
its value, so a statement holds whatever it is. The values are applied to the counter of State.free, or to what they
depend on. -/

namespace Sys2Proof

/-- A free choice among the internal steps that the device may take next (R11, R248, R285, log entry 3). -/
opaque Config.freeChoice : Nat → Nat

/-- The value of a result that the spec leaves open, at one moment (log entry 4). -/
opaque Config.freeWord : Nat → BitVec 64

/-- Which of the values within the bound of R70 an approximate instruction returns (log entry 5). -/
opaque Config.freeApprox : Nat → Nat

/-- The wake token the device chooses for a fault record, before R316 makes it nonzero and unique (log entry 6). -/
opaque Config.freeToken : Nat → Nat

/-- The key that the security processor makes for world 0 of a partition (R384). -/
opaque Config.worldZeroKey : Nat → BitVec 256

/-- The X448 secret that the security processor draws for a session (R386). -/
opaque Config.ephemeralSecret : Nat → Nat

/-- The SHAKE256-512 digest of the firmware that the security processor runs (R386). -/
opaque Config.firmwareDigest : BitVec 512

/-- Whether the firmware image carries a valid Ed448 signature (R386). -/
opaque Config.firmwareSigned : Bool

/-- Whether a 2 MiB frame of device memory depends on a part of a kind and number, within the granules or packages that the
part serves (R389, R390): the interleaving is not given. -/
opaque Config.frameDepends : Nat → Nat → Nat → Bool

/-- The Ed448 signature, 114 bytes, of the device over a digest (R386): its signing key is the device's own. -/
opaque Config.deviceSignature : List (BitVec 8) → BitVec 912

end Sys2Proof
end

