-- ==== Sys2Proof/Machine/Memory.lean ====
section
/-! DEFINITION. Memory as one canonical list of bytes by address, and maps from numbers as sorted lists. -/

namespace Sys2Proof.Machine

/-- What an address that memory does not list reads as (log entry 1). -/
def unlisted : Byte := 0

/-- The byte at an address. -/
def memRead : List Host.Cell → Nat → Byte
  | [], _ => unlisted
  | (k, v) :: rest, a => if a = k then v else if a < k then unlisted else memRead rest a

/-- Put one byte in front, unless it is what an unlisted address reads as. -/
def memCons (a : Nat) (v : Byte) (rest : List Host.Cell) : List Host.Cell :=
  if v = unlisted then rest else (a, v) :: rest

/-- Write one byte, keeping the addresses rising and no entry equal to what an unlisted address reads as. -/
def memWrite : List Host.Cell → Nat → Byte → List Host.Cell
  | [], a, v => memCons a v []
  | (k, w) :: rest, a, v =>
    if a < k then memCons a v ((k, w) :: rest)
    else if a = k then memCons a v rest
    else (k, w) :: memWrite rest a v

/-- The canonical form below a bound: every address is above lo, addresses rise, no entry is the unlisted byte. -/
def memWfFrom : Option Nat → List Host.Cell → Bool
  | _, [] => true
  | lo, (k, v) :: rest =>
    (match lo with | none => true | some l => decide (l < k)) && v != unlisted && memWfFrom (some k) rest

/-- The canonical form of memory. -/
def Memory.wf (m : List Host.Cell) : Bool := memWfFrom none m

/-- Write the bytes of a list at consecutive addresses. -/
def memWriteBytes (m : List Host.Cell) (a : Nat) : List Byte → List Host.Cell
  | [] => m
  | b :: bs => memWriteBytes (memWrite m a b) (a + 1) bs

/-- Read n bytes at consecutive addresses. -/
def memReadBytes (m : List Host.Cell) (a : Nat) : Nat → List Byte
  | 0 => []
  | n + 1 => memRead m a :: memReadBytes m (a + 1) n

/-- The little-endian value of a list of bytes (R6). -/
def leNat : List Byte → Nat
  | [] => 0
  | b :: bs => b.toNat + 256 * leNat bs

/-- The n low bytes of a number, byte 0 first (R6). -/
def leBytes : Nat → Nat → List Byte
  | 0, _ => []
  | n + 1, v => BitVec.ofNat 8 v :: leBytes n (v / 256)

/-- A map from numbers: a list of keys and values with rising keys. -/
abbrev Assoc (α : Type) := List (Nat × α)

/-- The entry of a key. -/
def lookup {α : Type} : Assoc α → Nat → Option α
  | [], _ => none
  | (k, v) :: rest, a => if a = k then some v else lookup rest a

/-- Set the entry of a key, keeping the keys rising. -/
def insert {α : Type} : Assoc α → Nat → α → Assoc α
  | [], a, v => [(a, v)]
  | (k, w) :: rest, a, v =>
    if a < k then (a, v) :: (k, w) :: rest
    else if a = k then (a, v) :: rest
    else (k, w) :: insert rest a v

/-- Remove the entry of a key. -/
def erase {α : Type} (m : Assoc α) (a : Nat) : Assoc α := m.filter fun e => !(e.1 == a)

/-- The entry of a key, or a default. -/
def lookupD {α : Type} (m : Assoc α) (a : Nat) (d : α) : α := (lookup m a).getD d

/-- The flat address of each memory: device memory by DPA, host memory, a peer's memory, the local memory of a core
and the scratchpad of a cluster stand apart (R230, R346; log entry 1). -/
def flatDevice (dpa : Nat) : Nat := dpa
def flatHost (hpa : Nat) : Nat := 2 ^ 60 + hpa
def flatPeer (node a : Nat) : Nat := 2 ^ 61 + node * 2 ^ 52 + a
def flatLocal (core a : Nat) : Nat := 2 ^ 62 + core * 2 ^ 16 + a
def flatScratch (cluster a : Nat) : Nat := 2 ^ 63 + cluster * 2 ^ 21 + a

end Sys2Proof.Machine
end

