-- ==== Sys2Proof/Syntax.lean ====
section
/-! DEFINITION. The instruction set of the KH-960: one constructor per row of spec/opcode_table.json.
An instruction word's constructor has the row's fields, at the row's widths and in the row's order (R94).
An event's constructor has the parameters that say where on the device it comes about, or what the outside world
supplies with it (spec/95_what_each_step_holds.md). -/

namespace Sys2Proof

/-- Every instruction and every event of the device. -/
inductive Instr where
  /-- ADD (R117): Writes the 64-bit wrapping sum of s[a] and s[b] to s[d]. -/
  | add (d : BitVec 5) (a : BitVec 5) (b : BitVec 5)
  /-- SUB (R117): Writes the wrapping difference s[a] minus s[b] to s[d]. -/
  | sub (d : BitVec 5) (a : BitVec 5) (b : BitVec 5)
  /-- AND (R117): Writes the bitwise AND of s[a] and s[b]. -/
  | and (d : BitVec 5) (a : BitVec 5) (b : BitVec 5)
  /-- OR (R117): Writes the bitwise OR of s[a] and s[b]. -/
  | or (d : BitVec 5) (a : BitVec 5) (b : BitVec 5)
  /-- XOR (R117): Writes the bitwise XOR of s[a] and s[b]. -/
  | xor (d : BitVec 5) (a : BitVec 5) (b : BitVec 5)
  /-- ANDN (R117): Writes s[a] AND NOT s[b]. -/
  | andn (d : BitVec 5) (a : BitVec 5) (b : BitVec 5)
  /-- SHL (R117): Shifts s[a] left by bits 5:0 of s[b]. -/
  | shl (d : BitVec 5) (a : BitVec 5) (b : BitVec 5)
  /-- SHR (R117): Shifts s[a] right with zero fill by bits 5:0 of s[b]. -/
  | shr (d : BitVec 5) (a : BitVec 5) (b : BitVec 5)
  /-- SAR (R117): Shifts s[a] right with sign fill by bits 5:0 of s[b]. -/
  | sar (d : BitVec 5) (a : BitVec 5) (b : BitVec 5)
  /-- ROL (R117): Rotates s[a] left by bits 5:0 of s[b]. -/
  | rol (d : BitVec 5) (a : BitVec 5) (b : BitVec 5)
  /-- MIN (R117): Writes the signed minimum of s[a] and s[b]. -/
  | min (d : BitVec 5) (a : BitVec 5) (b : BitVec 5)
  /-- MAX (R117): Writes the signed maximum of s[a] and s[b]. -/
  | max (d : BitVec 5) (a : BitVec 5) (b : BitVec 5)
  /-- MINN (R117): Writes the unsigned minimum of s[a] and s[b]. -/
  | minn (d : BitVec 5) (a : BitVec 5) (b : BitVec 5)
  /-- MAXN (R117): Writes the unsigned maximum of s[a] and s[b]. -/
  | maxn (d : BitVec 5) (a : BitVec 5) (b : BitVec 5)
  /-- SLT (R117): Writes 1 if s[a] is below s[b] signed, else 0. -/
  | slt (d : BitVec 5) (a : BitVec 5) (b : BitVec 5)
  /-- SLTN (R117): Writes 1 if s[a] is below s[b] unsigned, else 0. -/
  | sltn (d : BitVec 5) (a : BitVec 5) (b : BitVec 5)
  /-- SEQ (R117): Writes 1 if s[a] equals s[b], else 0. -/
  | seq (d : BitVec 5) (a : BitVec 5) (b : BitVec 5)
  /-- SNE (R117): Writes 1 if s[a] differs from s[b], else 0. -/
  | sne (d : BitVec 5) (a : BitVec 5) (b : BitVec 5)
  /-- ADDW (R117): Writes the sign-extended low 32 bits of s[a] plus s[b]. -/
  | addw (d : BitVec 5) (a : BitVec 5) (b : BitVec 5)
  /-- SUBW (R117): Writes the sign-extended low 32 bits of s[a] minus s[b]. -/
  | subw (d : BitVec 5) (a : BitVec 5) (b : BitVec 5)
  /-- ADDI (R118): Adds the sign-extended imm16 to s[a]. -/
  | addi (d : BitVec 5) (a : BitVec 5) (i : BitVec 16)
  /-- ANDI (R118): ANDs s[a] with the sign-extended imm16. -/
  | andi (d : BitVec 5) (a : BitVec 5) (i : BitVec 16)
  /-- ORI (R118): ORs s[a] with the zero-extended imm16. -/
  | ori (d : BitVec 5) (a : BitVec 5) (i : BitVec 16)
  /-- XORI (R118): XORs s[a] with the zero-extended imm16. -/
  | xori (d : BitVec 5) (a : BitVec 5) (i : BitVec 16)
  /-- SHLI (R118): Shifts s[a] left by an immediate amount. -/
  | shli (d : BitVec 5) (a : BitVec 5) (n : BitVec 6)
  /-- SHRI (R118): Shifts s[a] right with zero fill by an immediate amount. -/
  | shri (d : BitVec 5) (a : BitVec 5) (n : BitVec 6)
  /-- SARI (R118): Shifts s[a] right with sign fill by an immediate amount. -/
  | sari (d : BitVec 5) (a : BitVec 5) (n : BitVec 6)
  /-- ROLI (R118): Rotates s[a] left by an immediate amount. -/
  | roli (d : BitVec 5) (a : BitVec 5) (n : BitVec 6)
  /-- MOVI (R118): Writes the sign-extended imm16 to s[d]. -/
  | movi (d : BitVec 5) (i : BitVec 16)
  /-- LIT (R119): Inserts 16 bits at group k of s[d] and sign-extends them upward. -/
  | lit (d : BitVec 5) (k : BitVec 2) (i : BitVec 16)
  /-- SLTI (R118): Writes 1 if s[a] is below the sign-extended imm16 signed. -/
  | slti (d : BitVec 5) (a : BitVec 5) (i : BitVec 16)
  /-- SLTNI (R118): Writes 1 if s[a] is below the zero-extended imm16 unsigned. -/
  | sltni (d : BitVec 5) (a : BitVec 5) (i : BitVec 16)
  /-- MUL (R120): Writes the low 64 bits of the product. -/
  | mul (d : BitVec 5) (a : BitVec 5) (b : BitVec 5)
  /-- MULH (R120): Writes the high 64 bits of the signed product. -/
  | mulh (d : BitVec 5) (a : BitVec 5) (b : BitVec 5)
  /-- MULHN (R120): Writes the high 64 bits of the unsigned product. -/
  | mulhn (d : BitVec 5) (a : BitVec 5) (b : BitVec 5)
  /-- MULW (R120): Writes the sign-extended low 32 bits of the product. -/
  | mulw (d : BitVec 5) (a : BitVec 5) (b : BitVec 5)
  /-- DIV (R120): Starts a signed 64-bit division that parks the slot for 34 clocks. -/
  | div (d : BitVec 5) (a : BitVec 5) (b : BitVec 5)
  /-- DIVN (R120): Starts an unsigned 64-bit division that parks the slot for 34 clocks. -/
  | divn (d : BitVec 5) (a : BitVec 5) (b : BitVec 5)
  /-- REM (R120): Starts a signed 64-bit remainder that parks the slot for 34 clocks. -/
  | rem (d : BitVec 5) (a : BitVec 5) (b : BitVec 5)
  /-- REMN (R120): Starts an unsigned 64-bit remainder that parks the slot for 34 clocks. -/
  | remn (d : BitVec 5) (a : BitVec 5) (b : BitVec 5)
  /-- DIVW (R120): Starts a signed 32-bit division that parks the slot for 18 clocks. -/
  | divw (d : BitVec 5) (a : BitVec 5) (b : BitVec 5)
  /-- REMW (R120): Starts a signed 32-bit remainder that parks the slot for 18 clocks. -/
  | remw (d : BitVec 5) (a : BitVec 5) (b : BitVec 5)
  /-- DIVIDE_DONE (R120): The quotient or remainder is written and the divide's slot becomes Ready. -/
  | divideDone (slot : Nat)
  /-- CLZ (R122): Counts the leading zero bits of s[a]. -/
  | clz (d : BitVec 5) (a : BitVec 5)
  /-- CTZ (R122): Counts the trailing zero bits of s[a]. -/
  | ctz (d : BitVec 5) (a : BitVec 5)
  /-- POPC (R122): Counts the set bits of s[a]. -/
  | popc (d : BitVec 5) (a : BitVec 5)
  /-- BREV (R122): Reverses the bit order of s[a]. -/
  | brev (d : BitVec 5) (a : BitVec 5)
  /-- SEXTB (R122): Sign-extends the low byte of s[a]. -/
  | sextb (d : BitVec 5) (a : BitVec 5)
  /-- SEXTH (R122): Sign-extends the low 16 bits of s[a]. -/
  | sexth (d : BitVec 5) (a : BitVec 5)
  /-- SEXTW (R122): Sign-extends the low 32 bits of s[a]. -/
  | sextw (d : BitVec 5) (a : BitVec 5)
  /-- ZEXTB (R122): Zero-extends the low byte of s[a]. -/
  | zextb (d : BitVec 5) (a : BitVec 5)
  /-- ZEXTH (R122): Zero-extends the low 16 bits of s[a]. -/
  | zexth (d : BitVec 5) (a : BitVec 5)
  /-- ZEXTW (R122): Zero-extends the low 32 bits of s[a]. -/
  | zextw (d : BitVec 5) (a : BitVec 5)
  /-- BFX (R123): Extracts a zero-extended bit field of s[a] described by s[b]. -/
  | bfx (d : BitVec 5) (a : BitVec 5) (b : BitVec 5)
  /-- BFI (R123): Inserts the low bits of s[a] into a field of s[d] described by s[b]. -/
  | bfi (d : BitVec 5) (a : BitVec 5) (b : BitVec 5)
  /-- PADD (R124): Adds s[b] to the offset of fat pointer s[a], keeping its metadata or marking it out of range. -/
  | padd (d : BitVec 5) (a : BitVec 5) (b : BitVec 5)
  /-- PSUB (R124): Subtracts s[b] from the offset of fat pointer s[a]. -/
  | psub (d : BitVec 5) (a : BitVec 5) (b : BitVec 5)
  /-- PFMT (R124): Replaces the FMT and BLEN of a fat pointer from s[b]. -/
  | pfmt (d : BitVec 5) (a : BitVec 5) (b : BitVec 5)
  /-- PMETA (R124): Returns the FMT and BLEN byte of a fat pointer. -/
  | pmeta (d : BitVec 5) (a : BitVec 5)
  /-- PCLR (R124): Returns the offset of a fat pointer without its metadata. -/
  | pclr (d : BitVec 5) (a : BitVec 5)
  /-- PCHK (R125): Returns the first cause a one-byte access through the pointer and segment would trap with, or 0. -/
  | pchk (d : BitVec 5) (a : BitVec 5) (k : BitVec 3)
  /-- MFSR (R96): Reads a special register into s[d], parking for fpmode, fpflags and ctl until the sequencer drains. -/
  | mfsr (d : BitVec 5) (n : BitVec 16)
  /-- MTSR (R96): Writes s[a] to a special register under its access rules, including segment writes judged by R111. -/
  | mtsr (a : BitVec 5) (n : BitVec 16)
  /-- BEQ (R127): Branches when s[a] equals s[b]. -/
  | beq (a : BitVec 5) (b : BitVec 5) (o : BitVec 16)
  /-- BNE (R127): Branches when s[a] differs from s[b]. -/
  | bne (a : BitVec 5) (b : BitVec 5) (o : BitVec 16)
  /-- BLT (R127): Branches when s[a] is below s[b] signed. -/
  | blt (a : BitVec 5) (b : BitVec 5) (o : BitVec 16)
  /-- BGE (R127): Branches when s[a] is at least s[b] signed. -/
  | bge (a : BitVec 5) (b : BitVec 5) (o : BitVec 16)
  /-- BLTN (R127): Branches when s[a] is below s[b] unsigned. -/
  | bltn (a : BitVec 5) (b : BitVec 5) (o : BitVec 16)
  /-- BGEN (R127): Branches when s[a] is at least s[b] unsigned. -/
  | bgen (a : BitVec 5) (b : BitVec 5) (o : BitVec 16)
  /-- J (R128): Jumps by a 26-bit word offset. -/
  | j (o : BitVec 26)
  /-- JAL (R128): Jumps by a 26-bit word offset and links PC + 4 in s1. -/
  | jal (o : BitVec 26)
  /-- JR (R128): Jumps to the g0 offset in s[a]. -/
  | jr (a : BitVec 5)
  /-- JALR (R128): Jumps to s[a] and links PC + 4 in s[d]. -/
  | jalr (d : BitVec 5) (a : BitVec 5)
  /-- LOOP (R130): Sets up a zero-overhead loop counter or skips the body when the count is 0. -/
  | loop (a : BitVec 5) (n : BitVec 1) (o : BitVec 16)
  /-- LDB (R132): Loads a sign-extended byte. -/
  | ldb (d : BitVec 5) (a : BitVec 5) (s : BitVec 3) (h : BitVec 2) (o : BitVec 11)
  /-- LDBN (R132): Loads a zero-extended byte. -/
  | ldbn (d : BitVec 5) (a : BitVec 5) (s : BitVec 3) (h : BitVec 2) (o : BitVec 11)
  /-- LDH (R132): Loads a sign-extended halfword. -/
  | ldh (d : BitVec 5) (a : BitVec 5) (s : BitVec 3) (h : BitVec 2) (o : BitVec 11)
  /-- LDHN (R132): Loads a zero-extended halfword. -/
  | ldhn (d : BitVec 5) (a : BitVec 5) (s : BitVec 3) (h : BitVec 2) (o : BitVec 11)
  /-- LDW (R132): Loads a sign-extended word. -/
  | ldw (d : BitVec 5) (a : BitVec 5) (s : BitVec 3) (h : BitVec 2) (o : BitVec 11)
  /-- LDWN (R132): Loads a zero-extended word. -/
  | ldwn (d : BitVec 5) (a : BitVec 5) (s : BitVec 3) (h : BitVec 2) (o : BitVec 11)
  /-- LDD (R132): Loads a doubleword. -/
  | ldd (d : BitVec 5) (a : BitVec 5) (s : BitVec 3) (h : BitVec 2) (o : BitVec 11)
  /-- STB (R132): Stores the low byte of s[d]. -/
  | stb (d : BitVec 5) (a : BitVec 5) (s : BitVec 3) (h : BitVec 2) (o : BitVec 11)
  /-- STH (R132): Stores the low halfword of s[d]. -/
  | sth (d : BitVec 5) (a : BitVec 5) (s : BitVec 3) (h : BitVec 2) (o : BitVec 11)
  /-- STW (R132): Stores the low word of s[d]. -/
  | stw (d : BitVec 5) (a : BitVec 5) (s : BitVec 3) (h : BitVec 2) (o : BitVec 11)
  /-- STD (R132): Stores the doubleword s[d]. -/
  | std (d : BitVec 5) (a : BitVec 5) (s : BitVec 3) (h : BitVec 2) (o : BitVec 11)
  /-- MEMORY_REPLY (R133): The reply to a parked load, store or atomic arrives, its result is written and the slot becomes Ready. -/
  | memoryReply (slot : Nat)
  /-- LDO (R134): Loads with an explicit order and scope, zero-extending the value. -/
  | ldo (d : BitVec 5) (a : BitVec 5) (g : BitVec 3) (p : BitVec 2) (c : BitVec 3) (w : BitVec 2)
  /-- STO (R134): Stores with an explicit order and scope. -/
  | sto (d : BitVec 5) (a : BitVec 5) (g : BitVec 3) (p : BitVec 2) (c : BitVec 3) (w : BitVec 2)
  /-- AMOADD (R135): Atomically adds s[b] to a doubleword and returns the old value. -/
  | amoadd (d : BitVec 5) (a : BitVec 5) (b : BitVec 5) (g : BitVec 3) (p : BitVec 2) (c : BitVec 3)
  /-- AMOAND (R135): Atomically ANDs s[b] into a doubleword. -/
  | amoand (d : BitVec 5) (a : BitVec 5) (b : BitVec 5) (g : BitVec 3) (p : BitVec 2) (c : BitVec 3)
  /-- AMOOR (R135): Atomically ORs s[b] into a doubleword. -/
  | amoor (d : BitVec 5) (a : BitVec 5) (b : BitVec 5) (g : BitVec 3) (p : BitVec 2) (c : BitVec 3)
  /-- AMOXOR (R135): Atomically XORs s[b] into a doubleword. -/
  | amoxor (d : BitVec 5) (a : BitVec 5) (b : BitVec 5) (g : BitVec 3) (p : BitVec 2) (c : BitVec 3)
  /-- AMOMIN (R135): Atomically stores the signed minimum into a doubleword. -/
  | amomin (d : BitVec 5) (a : BitVec 5) (b : BitVec 5) (g : BitVec 3) (p : BitVec 2) (c : BitVec 3)
  /-- AMOMAX (R135): Atomically stores the signed maximum into a doubleword. -/
  | amomax (d : BitVec 5) (a : BitVec 5) (b : BitVec 5) (g : BitVec 3) (p : BitVec 2) (c : BitVec 3)
  /-- AMOSWP (R135): Atomically swaps s[b] with a doubleword. -/
  | amoswp (d : BitVec 5) (a : BitVec 5) (b : BitVec 5) (g : BitVec 3) (p : BitVec 2) (c : BitVec 3)
  /-- AMOCAS (R135): Atomically compares a doubleword with s[d] and writes s[b] when equal. -/
  | amocas (d : BitVec 5) (a : BitVec 5) (b : BitVec 5) (g : BitVec 3) (p : BitVec 2) (c : BitVec 3)
  /-- AMOWADD (R135): Atomically adds to a 32-bit word. -/
  | amowadd (d : BitVec 5) (a : BitVec 5) (b : BitVec 5) (g : BitVec 3) (p : BitVec 2) (c : BitVec 3)
  /-- AMOWAND (R135): Atomically ANDs into a 32-bit word. -/
  | amowand (d : BitVec 5) (a : BitVec 5) (b : BitVec 5) (g : BitVec 3) (p : BitVec 2) (c : BitVec 3)
  /-- AMOWOR (R135): Atomically ORs into a 32-bit word. -/
  | amowor (d : BitVec 5) (a : BitVec 5) (b : BitVec 5) (g : BitVec 3) (p : BitVec 2) (c : BitVec 3)
  /-- AMOWXOR (R135): Atomically XORs into a 32-bit word. -/
  | amowxor (d : BitVec 5) (a : BitVec 5) (b : BitVec 5) (g : BitVec 3) (p : BitVec 2) (c : BitVec 3)
  /-- AMOWMIN (R135): Atomically stores the signed minimum into a 32-bit word. -/
  | amowmin (d : BitVec 5) (a : BitVec 5) (b : BitVec 5) (g : BitVec 3) (p : BitVec 2) (c : BitVec 3)
  /-- AMOWMAX (R135): Atomically stores the signed maximum into a 32-bit word. -/
  | amowmax (d : BitVec 5) (a : BitVec 5) (b : BitVec 5) (g : BitVec 3) (p : BitVec 2) (c : BitVec 3)
  /-- AMOWSWP (R135): Atomically swaps a 32-bit word. -/
  | amowswp (d : BitVec 5) (a : BitVec 5) (b : BitVec 5) (g : BitVec 3) (p : BitVec 2) (c : BitVec 3)
  /-- AMOWCAS (R135): Atomically compares and swaps a 32-bit word. -/
  | amowcas (d : BitVec 5) (a : BitVec 5) (b : BitVec 5) (g : BitVec 3) (p : BitVec 2) (c : BitVec 3)
  /-- FENCE (R137): Parks the slot until the ordering its order and scope name holds. -/
  | fence (p : BitVec 2) (c : BitVec 3)
  /-- VADD_F32 (R144): FP32 lane-wise addition. -/
  | vaddF32 (d : BitVec 6) (a : BitVec 6) (b : BitVec 6) (m : BitVec 3)
  /-- VSUB_F32 (R144): FP32 lane-wise subtraction. -/
  | vsubF32 (d : BitVec 6) (a : BitVec 6) (b : BitVec 6) (m : BitVec 3)
  /-- VMUL_F32 (R144): FP32 lane-wise multiplication. -/
  | vmulF32 (d : BitVec 6) (a : BitVec 6) (b : BitVec 6) (m : BitVec 3)
  /-- VFMA_F32 (R144): FP32 fused multiply-add into vd. -/
  | vfmaF32 (d : BitVec 6) (a : BitVec 6) (b : BitVec 6) (m : BitVec 3)
  /-- VFMS_F32 (R144): FP32 fused d minus a times b. -/
  | vfmsF32 (d : BitVec 6) (a : BitVec 6) (b : BitVec 6) (m : BitVec 3)
  /-- VMIN_F32 (R145): FP32 lane-wise minimum. -/
  | vminF32 (d : BitVec 6) (a : BitVec 6) (b : BitVec 6) (m : BitVec 3)
  /-- VMAX_F32 (R145): FP32 lane-wise maximum. -/
  | vmaxF32 (d : BitVec 6) (a : BitVec 6) (b : BitVec 6) (m : BitVec 3)
  /-- VABS_F32 (R144): FP32 absolute value by clearing the sign. -/
  | vabsF32 (d : BitVec 6) (a : BitVec 6) (m : BitVec 3)
  /-- VNEG_F32 (R144): FP32 negation by inverting the sign. -/
  | vnegF32 (d : BitVec 6) (a : BitVec 6) (m : BitVec 3)
  /-- VDIV_F32 (R146): FP32 lane-wise division. -/
  | vdivF32 (d : BitVec 6) (a : BitVec 6) (b : BitVec 6) (m : BitVec 3)
  /-- VSQRT_F32 (R144): FP32 lane-wise square root. -/
  | vsqrtF32 (d : BitVec 6) (a : BitVec 6) (m : BitVec 3)
  /-- VSIN_F32 (R71): FP32 approximate sine. -/
  | vsinF32 (d : BitVec 6) (a : BitVec 6) (m : BitVec 3)
  /-- VCOS_F32 (R71): FP32 approximate cosine. -/
  | vcosF32 (d : BitVec 6) (a : BitVec 6) (m : BitVec 3)
  /-- VEXP2_F32 (R70): FP32 approximate power of two. -/
  | vexp2F32 (d : BitVec 6) (a : BitVec 6) (m : BitVec 3)
  /-- VCMPEQ_F32 (R145): FP32 equality comparison into a mask. -/
  | vcmpeqF32 (d : BitVec 3) (a : BitVec 6) (b : BitVec 6) (m : BitVec 3)
  /-- VCMPLT_F32 (R145): FP32 less-than comparison into a mask. -/
  | vcmpltF32 (d : BitVec 3) (a : BitVec 6) (b : BitVec 6) (m : BitVec 3)
  /-- VCMPLE_F32 (R145): FP32 less-or-equal comparison into a mask. -/
  | vcmpleF32 (d : BitVec 3) (a : BitVec 6) (b : BitVec 6) (m : BitVec 3)
  /-- VCMPUN_F32 (R145): FP32 unordered test into a mask. -/
  | vcmpunF32 (d : BitVec 3) (a : BitVec 6) (b : BitVec 6) (m : BitVec 3)
  /-- VSEL_F32 (R144): FP32 lane select by mask. -/
  | vselF32 (d : BitVec 6) (a : BitVec 6) (b : BitVec 6) (m : BitVec 3)
  /-- VADD_BF16 (R144): BF16 lane-wise addition. -/
  | vaddBf16 (d : BitVec 6) (a : BitVec 6) (b : BitVec 6) (m : BitVec 3)
  /-- VSUB_BF16 (R144): BF16 lane-wise subtraction. -/
  | vsubBf16 (d : BitVec 6) (a : BitVec 6) (b : BitVec 6) (m : BitVec 3)
  /-- VMUL_BF16 (R144): BF16 lane-wise multiplication. -/
  | vmulBf16 (d : BitVec 6) (a : BitVec 6) (b : BitVec 6) (m : BitVec 3)
  /-- VFMA_BF16 (R144): BF16 fused multiply-add. -/
  | vfmaBf16 (d : BitVec 6) (a : BitVec 6) (b : BitVec 6) (m : BitVec 3)
  /-- VFMS_BF16 (R144): BF16 fused multiply-subtract. -/
  | vfmsBf16 (d : BitVec 6) (a : BitVec 6) (b : BitVec 6) (m : BitVec 3)
  /-- VMIN_BF16 (R145): BF16 lane-wise minimum. -/
  | vminBf16 (d : BitVec 6) (a : BitVec 6) (b : BitVec 6) (m : BitVec 3)
  /-- VMAX_BF16 (R145): BF16 lane-wise maximum. -/
  | vmaxBf16 (d : BitVec 6) (a : BitVec 6) (b : BitVec 6) (m : BitVec 3)
  /-- VABS_BF16 (R144): BF16 absolute value. -/
  | vabsBf16 (d : BitVec 6) (a : BitVec 6) (m : BitVec 3)
  /-- VNEG_BF16 (R144): BF16 negation. -/
  | vnegBf16 (d : BitVec 6) (a : BitVec 6) (m : BitVec 3)
  /-- VDIV_BF16 (R146): BF16 lane-wise division. -/
  | vdivBf16 (d : BitVec 6) (a : BitVec 6) (b : BitVec 6) (m : BitVec 3)
  /-- VSQRT_BF16 (R144): BF16 square root. -/
  | vsqrtBf16 (d : BitVec 6) (a : BitVec 6) (m : BitVec 3)
  /-- VSIN_BF16 (R71): BF16 approximate sine. -/
  | vsinBf16 (d : BitVec 6) (a : BitVec 6) (m : BitVec 3)
  /-- VCOS_BF16 (R71): BF16 approximate cosine. -/
  | vcosBf16 (d : BitVec 6) (a : BitVec 6) (m : BitVec 3)
  /-- VEXP2_BF16 (R70): BF16 approximate power of two. -/
  | vexp2Bf16 (d : BitVec 6) (a : BitVec 6) (m : BitVec 3)
  /-- VCMPEQ_BF16 (R145): BF16 equality comparison into a mask. -/
  | vcmpeqBf16 (d : BitVec 3) (a : BitVec 6) (b : BitVec 6) (m : BitVec 3)
  /-- VCMPLT_BF16 (R145): BF16 less-than comparison into a mask. -/
  | vcmpltBf16 (d : BitVec 3) (a : BitVec 6) (b : BitVec 6) (m : BitVec 3)
  /-- VCMPLE_BF16 (R145): BF16 less-or-equal comparison into a mask. -/
  | vcmpleBf16 (d : BitVec 3) (a : BitVec 6) (b : BitVec 6) (m : BitVec 3)
  /-- VCMPUN_BF16 (R145): BF16 unordered test into a mask. -/
  | vcmpunBf16 (d : BitVec 3) (a : BitVec 6) (b : BitVec 6) (m : BitVec 3)
  /-- VSEL_BF16 (R144): BF16 lane select by mask. -/
  | vselBf16 (d : BitVec 6) (a : BitVec 6) (b : BitVec 6) (m : BitVec 3)
  /-- VADD_F16 (R144): FP16 lane-wise addition. -/
  | vaddF16 (d : BitVec 6) (a : BitVec 6) (b : BitVec 6) (m : BitVec 3)
  /-- VSUB_F16 (R144): FP16 lane-wise subtraction. -/
  | vsubF16 (d : BitVec 6) (a : BitVec 6) (b : BitVec 6) (m : BitVec 3)
  /-- VMUL_F16 (R144): FP16 lane-wise multiplication. -/
  | vmulF16 (d : BitVec 6) (a : BitVec 6) (b : BitVec 6) (m : BitVec 3)
  /-- VFMA_F16 (R144): FP16 fused multiply-add. -/
  | vfmaF16 (d : BitVec 6) (a : BitVec 6) (b : BitVec 6) (m : BitVec 3)
  /-- VFMS_F16 (R144): FP16 fused multiply-subtract. -/
  | vfmsF16 (d : BitVec 6) (a : BitVec 6) (b : BitVec 6) (m : BitVec 3)
  /-- VMIN_F16 (R145): FP16 lane-wise minimum. -/
  | vminF16 (d : BitVec 6) (a : BitVec 6) (b : BitVec 6) (m : BitVec 3)
  /-- VMAX_F16 (R145): FP16 lane-wise maximum. -/
  | vmaxF16 (d : BitVec 6) (a : BitVec 6) (b : BitVec 6) (m : BitVec 3)
  /-- VABS_F16 (R144): FP16 absolute value. -/
  | vabsF16 (d : BitVec 6) (a : BitVec 6) (m : BitVec 3)
  /-- VNEG_F16 (R144): FP16 negation. -/
  | vnegF16 (d : BitVec 6) (a : BitVec 6) (m : BitVec 3)
  /-- VDIV_F16 (R146): FP16 lane-wise division. -/
  | vdivF16 (d : BitVec 6) (a : BitVec 6) (b : BitVec 6) (m : BitVec 3)
  /-- VSQRT_F16 (R144): FP16 square root. -/
  | vsqrtF16 (d : BitVec 6) (a : BitVec 6) (m : BitVec 3)
  /-- VSIN_F16 (R71): FP16 approximate sine. -/
  | vsinF16 (d : BitVec 6) (a : BitVec 6) (m : BitVec 3)
  /-- VCOS_F16 (R71): FP16 approximate cosine. -/
  | vcosF16 (d : BitVec 6) (a : BitVec 6) (m : BitVec 3)
  /-- VEXP2_F16 (R70): FP16 approximate power of two. -/
  | vexp2F16 (d : BitVec 6) (a : BitVec 6) (m : BitVec 3)
  /-- VCMPEQ_F16 (R145): FP16 equality comparison into a mask. -/
  | vcmpeqF16 (d : BitVec 3) (a : BitVec 6) (b : BitVec 6) (m : BitVec 3)
  /-- VCMPLT_F16 (R145): FP16 less-than comparison into a mask. -/
  | vcmpltF16 (d : BitVec 3) (a : BitVec 6) (b : BitVec 6) (m : BitVec 3)
  /-- VCMPLE_F16 (R145): FP16 less-or-equal comparison into a mask. -/
  | vcmpleF16 (d : BitVec 3) (a : BitVec 6) (b : BitVec 6) (m : BitVec 3)
  /-- VCMPUN_F16 (R145): FP16 unordered test into a mask. -/
  | vcmpunF16 (d : BitVec 3) (a : BitVec 6) (b : BitVec 6) (m : BitVec 3)
  /-- VSEL_F16 (R144): FP16 lane select by mask. -/
  | vselF16 (d : BitVec 6) (a : BitVec 6) (b : BitVec 6) (m : BitVec 3)
  /-- VADD_I32 (R147): 32-bit integer lane-wise wrapping addition. -/
  | vaddI32 (d : BitVec 6) (a : BitVec 6) (b : BitVec 6) (m : BitVec 3)
  /-- VSUB_I32 (R147): 32-bit integer lane-wise wrapping subtraction. -/
  | vsubI32 (d : BitVec 6) (a : BitVec 6) (b : BitVec 6) (m : BitVec 3)
  /-- VMUL_I32 (R147): 32-bit integer low product. -/
  | vmulI32 (d : BitVec 6) (a : BitVec 6) (b : BitVec 6) (m : BitVec 3)
  /-- VMULH_I32 (R147): 32-bit integer signed high product. -/
  | vmulhI32 (d : BitVec 6) (a : BitVec 6) (b : BitVec 6) (m : BitVec 3)
  /-- VMIN_I32 (R147): 32-bit signed minimum. -/
  | vminI32 (d : BitVec 6) (a : BitVec 6) (b : BitVec 6) (m : BitVec 3)
  /-- VMAX_I32 (R147): 32-bit signed maximum. -/
  | vmaxI32 (d : BitVec 6) (a : BitVec 6) (b : BitVec 6) (m : BitVec 3)
  /-- VMINN_I32 (R147): 32-bit unsigned minimum. -/
  | vminnI32 (d : BitVec 6) (a : BitVec 6) (b : BitVec 6) (m : BitVec 3)
  /-- VMAXN_I32 (R147): 32-bit unsigned maximum. -/
  | vmaxnI32 (d : BitVec 6) (a : BitVec 6) (b : BitVec 6) (m : BitVec 3)
  /-- VAND_I32 (R147): 32-bit lane bitwise AND. -/
  | vandI32 (d : BitVec 6) (a : BitVec 6) (b : BitVec 6) (m : BitVec 3)
  /-- VOR_I32 (R147): 32-bit lane bitwise OR. -/
  | vorI32 (d : BitVec 6) (a : BitVec 6) (b : BitVec 6) (m : BitVec 3)
  /-- VXOR_I32 (R147): 32-bit lane bitwise XOR. -/
  | vxorI32 (d : BitVec 6) (a : BitVec 6) (b : BitVec 6) (m : BitVec 3)
  /-- VSHL_I32 (R147): 32-bit lane left shift. -/
  | vshlI32 (d : BitVec 6) (a : BitVec 6) (b : BitVec 6) (m : BitVec 3)
  /-- VSHR_I32 (R147): 32-bit lane logical right shift. -/
  | vshrI32 (d : BitVec 6) (a : BitVec 6) (b : BitVec 6) (m : BitVec 3)
  /-- VSAR_I32 (R147): 32-bit lane arithmetic right shift. -/
  | vsarI32 (d : BitVec 6) (a : BitVec 6) (b : BitVec 6) (m : BitVec 3)
  /-- VCMPEQ_I32 (R147): 32-bit integer equality into a mask. -/
  | vcmpeqI32 (d : BitVec 3) (a : BitVec 6) (b : BitVec 6) (m : BitVec 3)
  /-- VCMPLT_I32 (R147): 32-bit signed less-than into a mask. -/
  | vcmpltI32 (d : BitVec 3) (a : BitVec 6) (b : BitVec 6) (m : BitVec 3)
  /-- VCMPLTN_I32 (R147): 32-bit unsigned less-than into a mask. -/
  | vcmpltnI32 (d : BitVec 3) (a : BitVec 6) (b : BitVec 6) (m : BitVec 3)
  /-- VSEL_I32 (R147): 32-bit lane select by mask. -/
  | vselI32 (d : BitVec 6) (a : BitVec 6) (b : BitVec 6) (m : BitVec 3)
  /-- VADDS_I32 (R147): 32-bit saturating addition. -/
  | vaddsI32 (d : BitVec 6) (a : BitVec 6) (b : BitVec 6) (m : BitVec 3)
  /-- VSUBS_I32 (R147): 32-bit saturating subtraction. -/
  | vsubsI32 (d : BitVec 6) (a : BitVec 6) (b : BitVec 6) (m : BitVec 3)
  /-- VADD_I16 (R147): 16-bit integer wrapping addition. -/
  | vaddI16 (d : BitVec 6) (a : BitVec 6) (b : BitVec 6) (m : BitVec 3)
  /-- VSUB_I16 (R147): 16-bit integer wrapping subtraction. -/
  | vsubI16 (d : BitVec 6) (a : BitVec 6) (b : BitVec 6) (m : BitVec 3)
  /-- VMUL_I16 (R147): 16-bit integer low product. -/
  | vmulI16 (d : BitVec 6) (a : BitVec 6) (b : BitVec 6) (m : BitVec 3)
  /-- VMULH_I16 (R147): 16-bit signed high product. -/
  | vmulhI16 (d : BitVec 6) (a : BitVec 6) (b : BitVec 6) (m : BitVec 3)
  /-- VMIN_I16 (R147): 16-bit signed minimum. -/
  | vminI16 (d : BitVec 6) (a : BitVec 6) (b : BitVec 6) (m : BitVec 3)
  /-- VMAX_I16 (R147): 16-bit signed maximum. -/
  | vmaxI16 (d : BitVec 6) (a : BitVec 6) (b : BitVec 6) (m : BitVec 3)
  /-- VMINN_I16 (R147): 16-bit unsigned minimum. -/
  | vminnI16 (d : BitVec 6) (a : BitVec 6) (b : BitVec 6) (m : BitVec 3)
  /-- VMAXN_I16 (R147): 16-bit unsigned maximum. -/
  | vmaxnI16 (d : BitVec 6) (a : BitVec 6) (b : BitVec 6) (m : BitVec 3)
  /-- VAND_I16 (R147): 16-bit lane bitwise AND. -/
  | vandI16 (d : BitVec 6) (a : BitVec 6) (b : BitVec 6) (m : BitVec 3)
  /-- VOR_I16 (R147): 16-bit lane bitwise OR. -/
  | vorI16 (d : BitVec 6) (a : BitVec 6) (b : BitVec 6) (m : BitVec 3)
  /-- VXOR_I16 (R147): 16-bit lane bitwise XOR. -/
  | vxorI16 (d : BitVec 6) (a : BitVec 6) (b : BitVec 6) (m : BitVec 3)
  /-- VSHL_I16 (R147): 16-bit lane left shift. -/
  | vshlI16 (d : BitVec 6) (a : BitVec 6) (b : BitVec 6) (m : BitVec 3)
  /-- VSHR_I16 (R147): 16-bit lane logical right shift. -/
  | vshrI16 (d : BitVec 6) (a : BitVec 6) (b : BitVec 6) (m : BitVec 3)
  /-- VSAR_I16 (R147): 16-bit lane arithmetic right shift. -/
  | vsarI16 (d : BitVec 6) (a : BitVec 6) (b : BitVec 6) (m : BitVec 3)
  /-- VCMPEQ_I16 (R147): 16-bit equality into a mask. -/
  | vcmpeqI16 (d : BitVec 3) (a : BitVec 6) (b : BitVec 6) (m : BitVec 3)
  /-- VCMPLT_I16 (R147): 16-bit signed less-than into a mask. -/
  | vcmpltI16 (d : BitVec 3) (a : BitVec 6) (b : BitVec 6) (m : BitVec 3)
  /-- VCMPLTN_I16 (R147): 16-bit unsigned less-than into a mask. -/
  | vcmpltnI16 (d : BitVec 3) (a : BitVec 6) (b : BitVec 6) (m : BitVec 3)
  /-- VSEL_I16 (R147): 16-bit lane select by mask. -/
  | vselI16 (d : BitVec 6) (a : BitVec 6) (b : BitVec 6) (m : BitVec 3)
  /-- VADDS_I16 (R147): 16-bit saturating addition. -/
  | vaddsI16 (d : BitVec 6) (a : BitVec 6) (b : BitVec 6) (m : BitVec 3)
  /-- VSUBS_I16 (R147): 16-bit saturating subtraction. -/
  | vsubsI16 (d : BitVec 6) (a : BitVec 6) (b : BitVec 6) (m : BitVec 3)
  /-- VADD_I8 (R147): 8-bit integer wrapping addition. -/
  | vaddI8 (d : BitVec 6) (a : BitVec 6) (b : BitVec 6) (m : BitVec 3)
  /-- VSUB_I8 (R147): 8-bit integer wrapping subtraction. -/
  | vsubI8 (d : BitVec 6) (a : BitVec 6) (b : BitVec 6) (m : BitVec 3)
  /-- VMUL_I8 (R147): 8-bit integer low product. -/
  | vmulI8 (d : BitVec 6) (a : BitVec 6) (b : BitVec 6) (m : BitVec 3)
  /-- VMULH_I8 (R147): 8-bit signed high product. -/
  | vmulhI8 (d : BitVec 6) (a : BitVec 6) (b : BitVec 6) (m : BitVec 3)
  /-- VMIN_I8 (R147): 8-bit signed minimum. -/
  | vminI8 (d : BitVec 6) (a : BitVec 6) (b : BitVec 6) (m : BitVec 3)
  /-- VMAX_I8 (R147): 8-bit signed maximum. -/
  | vmaxI8 (d : BitVec 6) (a : BitVec 6) (b : BitVec 6) (m : BitVec 3)
  /-- VMINN_I8 (R147): 8-bit unsigned minimum. -/
  | vminnI8 (d : BitVec 6) (a : BitVec 6) (b : BitVec 6) (m : BitVec 3)
  /-- VMAXN_I8 (R147): 8-bit unsigned maximum. -/
  | vmaxnI8 (d : BitVec 6) (a : BitVec 6) (b : BitVec 6) (m : BitVec 3)
  /-- VAND_I8 (R147): 8-bit lane bitwise AND. -/
  | vandI8 (d : BitVec 6) (a : BitVec 6) (b : BitVec 6) (m : BitVec 3)
  /-- VOR_I8 (R147): 8-bit lane bitwise OR. -/
  | vorI8 (d : BitVec 6) (a : BitVec 6) (b : BitVec 6) (m : BitVec 3)
  /-- VXOR_I8 (R147): 8-bit lane bitwise XOR. -/
  | vxorI8 (d : BitVec 6) (a : BitVec 6) (b : BitVec 6) (m : BitVec 3)
  /-- VSHL_I8 (R147): 8-bit lane left shift. -/
  | vshlI8 (d : BitVec 6) (a : BitVec 6) (b : BitVec 6) (m : BitVec 3)
  /-- VSHR_I8 (R147): 8-bit lane logical right shift. -/
  | vshrI8 (d : BitVec 6) (a : BitVec 6) (b : BitVec 6) (m : BitVec 3)
  /-- VSAR_I8 (R147): 8-bit lane arithmetic right shift. -/
  | vsarI8 (d : BitVec 6) (a : BitVec 6) (b : BitVec 6) (m : BitVec 3)
  /-- VCMPEQ_I8 (R147): 8-bit equality into a mask. -/
  | vcmpeqI8 (d : BitVec 3) (a : BitVec 6) (b : BitVec 6) (m : BitVec 3)
  /-- VCMPLT_I8 (R147): 8-bit signed less-than into a mask. -/
  | vcmpltI8 (d : BitVec 3) (a : BitVec 6) (b : BitVec 6) (m : BitVec 3)
  /-- VCMPLTN_I8 (R147): 8-bit unsigned less-than into a mask. -/
  | vcmpltnI8 (d : BitVec 3) (a : BitVec 6) (b : BitVec 6) (m : BitVec 3)
  /-- VSEL_I8 (R147): 8-bit lane select by mask. -/
  | vselI8 (d : BitVec 6) (a : BitVec 6) (b : BitVec 6) (m : BitVec 3)
  /-- VADDS_I8 (R147): 8-bit saturating addition. -/
  | vaddsI8 (d : BitVec 6) (a : BitVec 6) (b : BitVec 6) (m : BitVec 3)
  /-- VSUBS_I8 (R147): 8-bit saturating subtraction. -/
  | vsubsI8 (d : BitVec 6) (a : BitVec 6) (b : BitVec 6) (m : BitVec 3)
  /-- VPERM (R149): Permutes lanes of va by indexes in vb. -/
  | vperm (d : BitVec 6) (a : BitVec 6) (b : BitVec 6) (m : BitVec 3)
  /-- VSLIDEUP (R149): Slides lanes of va up by s[b]. -/
  | vslideup (d : BitVec 6) (a : BitVec 6) (b : BitVec 5) (m : BitVec 3)
  /-- VSLIDEDN (R149): Slides lanes of va down by s[b]. -/
  | vslidedn (d : BitVec 6) (a : BitVec 6) (b : BitVec 5) (m : BitVec 3)
  /-- VBCAST (R149): Broadcasts the low bits of s[a] to active lanes. -/
  | vbcast (d : BitVec 6) (a : BitVec 5) (m : BitVec 3)
  /-- VREDSUM (R150): Writes the exactly summed and once-rounded total of active lanes to every lane. -/
  | vredsum (d : BitVec 6) (a : BitVec 6) (t : BitVec 2) (m : BitVec 3)
  /-- VREDMAX (R150): Writes the greatest active lane to every lane. -/
  | vredmax (d : BitVec 6) (a : BitVec 6) (t : BitVec 2) (m : BitVec 3)
  /-- VREDMIN (R150): Writes the least active lane to every lane. -/
  | vredmin (d : BitVec 6) (a : BitVec 6) (t : BitVec 2) (m : BitVec 3)
  /-- VREDIADD (R150): Writes the clamped integer sum of active lanes to every lane. -/
  | vrediadd (d : BitVec 6) (a : BitVec 6) (t : BitVec 2) (m : BitVec 3)
  /-- VINTERL (R149): Interleaves the low halves of va and vb. -/
  | vinterl (d : BitVec 6) (a : BitVec 6) (b : BitVec 6) (m : BitVec 3)
  /-- VDEINT (R149): De-interleaves even and odd lanes of va. -/
  | vdeint (d : BitVec 6) (a : BitVec 6) (m : BitVec 3)
  /-- MAND (R151): Mask AND. -/
  | mand (d : BitVec 3) (a : BitVec 3) (b : BitVec 3)
  /-- MOR (R151): Mask OR. -/
  | mor (d : BitVec 3) (a : BitVec 3) (b : BitVec 3)
  /-- MXOR (R151): Mask XOR. -/
  | mxor (d : BitVec 3) (a : BitVec 3) (b : BitVec 3)
  /-- MANDN (R151): Mask AND NOT. -/
  | mandn (d : BitVec 3) (a : BitVec 3) (b : BitVec 3)
  /-- MNOT (R151): Mask NOT. -/
  | mnot (d : BitVec 3) (a : BitVec 3)
  /-- MLOW (R151): Keeps only the lowest set bit of a mask. -/
  | mlow (d : BitVec 3) (a : BitVec 3)
  /-- MBELOW (R151): Sets every bit below the lowest set bit of a mask. -/
  | mbelow (d : BitVec 3) (a : BitVec 3)
  /-- VTBL (R152): Evaluates the piecewise quadratic of a table slot in each active lane. -/
  | vtbl (d : BitVec 6) (a : BitVec 6) (t : BitVec 2) (k : BitVec 2) (m : BitVec 3)
  /-- VNAR (R154): Rotates and narrows a register group to a format of 8 bits or fewer. -/
  | vnar (d : BitVec 6) (a : BitVec 6) (s : BitVec 3) (k : BitVec 2) (c : BitVec 4)
  /-- VNARS (R154): Narrows like VNAR with saturation for E5M2. -/
  | vnars (d : BitVec 6) (a : BitVec 6) (s : BitVec 3) (k : BitVec 2) (c : BitVec 4)
  /-- VWID (R155): Widens narrow register data, applying Unrotate when the block code is not 0. -/
  | vwid (d : BitVec 6) (a : BitVec 6) (s : BitVec 3) (k : BitVec 2) (c : BitVec 4)
  /-- VWIDR (R155): Widens narrow register data without the inverse rotation. -/
  | vwidr (d : BitVec 6) (a : BitVec 6) (c : BitVec 4)
  /-- VCVTF (R157): Converts among FP32, BF16 and FP16 as the code selects. -/
  | vcvtf (d : BitVec 6) (a : BitVec 6) (c : BitVec 4)
  /-- VCVTI (R157): Converts between floating and integer formats or integer widths as the code selects. -/
  | vcvti (d : BitVec 6) (a : BitVec 6) (c : BitVec 4)
  /-- VHAD (R156): Applies the rotation to a register group without width change. -/
  | vhad (d : BitVec 6) (a : BitVec 6) (s : BitVec 3) (k : BitVec 2)
  /-- VHADI (R156): Applies the inverse rotation to a register group without width change. -/
  | vhadi (d : BitVec 6) (a : BitVec 6) (s : BitVec 3) (k : BitVec 2)
  /-- VLD (R158): Loads 128 bytes into active lanes. -/
  | vld (v : BitVec 6) (a : BitVec 5) (b : BitVec 5) (g : BitVec 3) (m : BitVec 3)
  /-- VST (R158): Stores active lanes as 128 bytes. -/
  | vst (v : BitVec 6) (a : BitVec 5) (b : BitVec 5) (g : BitVec 3) (m : BitVec 3)
  /-- VLDS (R158): Loads elements at a signed byte stride. -/
  | vlds (v : BitVec 6) (a : BitVec 5) (b : BitVec 5) (g : BitVec 3) (m : BitVec 3)
  /-- VSTS (R158): Stores elements at a signed byte stride. -/
  | vsts (v : BitVec 6) (a : BitVec 5) (b : BitVec 5) (g : BitVec 3) (m : BitVec 3)
  /-- VLDF (R159): Loads and widens elements in the fat pointer's format without inverse rotation. -/
  | vldf (v : BitVec 6) (a : BitVec 5) (b : BitVec 5) (g : BitVec 3)
  /-- VSTF (R160): Rotates, narrows and stores lanes in the fat pointer's format. -/
  | vstf (v : BitVec 6) (a : BitVec 5) (k : BitVec 2) (s : BitVec 3) (g : BitVec 3)
  /-- VLDB (R158): Broadcasts one loaded element to every active lane. -/
  | vldb (v : BitVec 6) (a : BitVec 5) (b : BitVec 5) (g : BitVec 3) (m : BitVec 3)
  /-- VLDM (R158): Loads 16 bytes into a mask register. -/
  | vldm (v : BitVec 3) (a : BitVec 5) (b : BitVec 5) (g : BitVec 3)
  /-- VSTM (R158): Stores a mask register as 16 bytes. -/
  | vstm (v : BitVec 3) (a : BitVec 5) (b : BitVec 5) (g : BitVec 3)
  /-- VLDX (R161): Gathers elements through an index group. -/
  | vldx (v : BitVec 6) (a : BitVec 5) (i : BitVec 6) (g : BitVec 3) (m : BitVec 3)
  /-- VSTX (R161): Scatters elements through an index group. -/
  | vstx (v : BitVec 6) (a : BitVec 5) (i : BitVec 6) (g : BitVec 3) (m : BitVec 3)
  /-- VSTXA (R161): Scatter-adds elements atomically through an index group. -/
  | vstxa (v : BitVec 6) (a : BitVec 5) (i : BitVec 6) (g : BitVec 3) (m : BitVec 3)
  /-- VMOVS (R164): Moves one lane of a vector to a scalar after the sequencer drains. -/
  | vmovs (d : BitVec 5) (a : BitVec 6) (b : BitVec 5)
  /-- VMOVV (R164): Writes a scalar into one lane of a vector. -/
  | vmovv (v : BitVec 6) (a : BitVec 5) (b : BitVec 5)
  /-- VSETL (R164): Sets the low s[a] bits of a mask. -/
  | vsetl (d : BitVec 3) (a : BitVec 5)
  /-- VLOOP (R165): Replays the last n handed instructions with advanced register fields. -/
  | vloop (n : BitVec 6) (a : BitVec 5) (s : BitVec 6)
  /-- VBIND (R32): Binds the lowest free vector bank or parks until one frees. -/
  | vbind (d : BitVec 5)
  /-- VFREE (R164): Waits for the sequencer to drain, then frees and zeroes the bank. -/
  | vfree
  /-- VTYPE (R35): Sets the lane class. -/
  | vtype (c : BitVec 2)
  /-- GANG (R41): Joins a slot pair into one ganged thread, parking until the partner joins. -/
  | gang
  /-- UNGANG (R44): Dissolves a ganged pair or releases a Split-wait partner. -/
  | ungang
  /-- VWAIT (R164): Parks until the sequencer is empty. -/
  | vwait
  /-- VZERO (R164): Zeroes the active lanes of a vector. -/
  | vzero (v : BitVec 6) (m : BitVec 3)
  /-- VPOPM (R164): Counts the set bits of a mask into a scalar after draining. -/
  | vpopm (d : BitVec 5) (a : BitVec 3)
  /-- VMMOVS (R164): Copies 64 bits of a mask into a scalar after draining. -/
  | vmmovs (d : BitVec 5) (a : BitVec 3) (h : BitVec 1)
  /-- VSMOVM (R164): Writes a scalar into one half of a mask. -/
  | vsmovm (d : BitVec 3) (a : BitVec 5) (h : BitVec 1)
  /-- SEQUENCER_ENTRY_PERFORM (R38): The sequencer performs its next entry on the bank in program order. -/
  | sequencerEntryPerform (slot : Nat)
  /-- MSET (R168): Writes a matrix engine register from s[a]. -/
  | mset (r : BitVec 5) (a : BitVec 5)
  /-- MSET_MOUT (R166): Records the store-out address of mout from a memory operand. -/
  | msetMout (g : BitVec 3) (a : BitVec 5) (b : BitVec 5)
  /-- MGET (R168): Reads a matrix engine register. -/
  | mget (r : BitVec 5) (a : BitVec 5)
  /-- MMA (R178): Hands a dense 32x32 product from two galley heads into an accumulator tile, optionally with store-out. -/
  | mma (o : BitVec 1) (c : BitVec 1) (t : BitVec 1)
  /-- MMAS (R183): Hands a sparse product on bitmap-mode galleys. -/
  | mmas (o : BitVec 1) (c : BitVec 1) (t : BitVec 1)
  /-- MMR (R184): Hands a product that then passes A west and B north around the torus. -/
  | mmr (o : BitVec 1) (c : BitVec 1) (t : BitVec 1)
  /-- MZERO (R181): Zeroes an accumulator tile. -/
  | mzero (t : BitVec 1)
  /-- MATRIX_START (R180): The core's matrix engine starts the next released matrix instruction once both galley heads are present, comparing tags. -/
  | matrixStart (core : Nat)
  /-- MATRIX_COMPLETE (R178): The product is written, entries are popped, any store-out rows are written and the slot becomes Ready. -/
  | matrixComplete (core : Nat)
  /-- MMR_NEIGHBOUR_PUSH (R184): An MMR's copy of A or B is accepted into a neighbour galley that has room. -/
  | mmrNeighbourPush (core : Nat) (north : Bool)
  /-- GLSET (R171): Configures or unconfigures a galley from a 32-byte descriptor. -/
  | glset (n : BitVec 3) (g : BitVec 3) (a : BitVec 5) (b : BitVec 5)
  /-- GLGET (R171): Returns a doubleword of a galley descriptor. -/
  | glget (n : BitVec 3) (w : BitVec 2) (a : BitVec 5)
  /-- GLPUSHV (R174): Builds one galley entry from vector registers and pushes it. -/
  | glpushv (n : BitVec 3) (v : BitVec 6)
  /-- GLPOPD (R175): Discards the head entry of a galley. -/
  | glpopd (n : BitVec 3) (a : BitVec 5)
  /-- GLHEAD (R175): Returns a galley's occupancy, indexes and mode. -/
  | glhead (n : BitVec 3) (a : BitVec 5)
  /-- GLTAG_READ (R175): Returns the head entry's rotation tag. -/
  | gltagRead (n : BitVec 3) (a : BitVec 5)
  /-- GLTAG_WRITE (R175): Sets the galley's push tag. -/
  | gltagWrite (n : BitVec 3) (a : BitVec 5)
  /-- GLFLUSH (R175): Discards every entry of a galley once it is not held. -/
  | glflush (n : BitVec 3)
  /-- GALLEY_SPACE_FREED (R173): A full galley gains room and a waiting producer pushes its entry. -/
  | galleySpaceFreed (core : Nat) (galley : Nat)
  /-- CPSET (R186): Writes a copy staging register from s[a]. -/
  | cpset (r : BitVec 5) (a : BitVec 5)
  /-- CPSET_ENDPOINT (R166): Writes cpsrc or cpdst from a memory operand. -/
  | cpsetEndpoint (r : BitVec 1) (g : BitVec 3) (a : BitVec 5) (b : BitVec 5)
  /-- CPGET (R186): Reads a copy staging register. -/
  | cpget (r : BitVec 5) (a : BitVec 5)
  /-- CPLAUNCH (R190): Checks the staging registers and starts a transfer on a channel, returning its id. -/
  | cplaunch (a : BitVec 5)
  /-- CPWP (R191): Returns the bytes a channel has delivered, acting as an acquire of them. -/
  | cpwp (a : BitVec 5) (b : BitVec 5)
  /-- CPSTAT (R193): Returns a channel's status. -/
  | cpstat (a : BitVec 5) (b : BitVec 5)
  /-- CPCANCEL (R194): Cancels a running transfer of the same world. -/
  | cpcancel (a : BitVec 5) (b : BitVec 5)
  /-- CPWAITID (R194): Parks until a named transfer ends and returns its outcome. -/
  | cpwaitid (a : BitVec 5)
  /-- COPY_WRITE (R191): A channel writes its next destination elements and advances its write pointer. -/
  | copyWrite (cluster : Nat) (ch : Nat)
  /-- COPY_TRANSFER_END (R196): A transfer finishes, its state becomes done and its completion interrupt is queued or coalesced. -/
  | copyTransferEnd (cluster : Nat) (ch : Nat)
  /-- COMPLETION_INTERRUPT (R196): A slot takes the head completion entry at an instruction boundary and jumps to the handler. -/
  | completionInterrupt (slot : Nat)
  /-- TBLOAD (R198): Replaces a table slot's image in one step from memory. -/
  | tbload (k : BitVec 2) (g : BitVec 3) (a : BitVec 5) (b : BitVec 5)
  /-- TBINFO (R198): Returns the lo and hi bounds of a table slot. -/
  | tbinfo (k : BitVec 2) (a : BitVec 5)
  /-- TREG (R203): Registers a tile from a shape record and returns its handle. -/
  | treg (g : BitVec 3) (a : BitVec 5) (b : BitVec 5)
  /-- TFREE (R204): Frees a tile and returns a status. -/
  | tfree (a : BitVec 5)
  /-- TACQR (R205): Requests read tenure pinning a version. -/
  | tacqr (w : BitVec 1) (a : BitVec 5) (b : BitVec 5)
  /-- TACQW (R205): Requests write tenure with a fresh shadow frame. -/
  | tacqw (w : BitVec 1) (a : BitVec 5)
  /-- TREL (R206): Releases read tenure or publishes the write shadow as the next version. -/
  | trel (a : BitVec 5)
  /-- TABND (R206): Abandons write tenure and discards the shadow. -/
  | tabnd (a : BitVec 5)
  /-- TSPLIT (R208): Splits a tile into equal children along an axis. -/
  | tsplit (a : BitVec 5) (b : BitVec 5)
  /-- TJOIN (R208): Joins a split tile's children back into the parent. -/
  | tjoin (a : BitVec 5)
  /-- TRECL (R209): Frees retained frames whose successors were published below the bound. -/
  | trecl (a : BitVec 5) (b : BitVec 5)
  /-- TSTAT (R209): Returns one item of a tile's state. -/
  | tstat (a : BitVec 5) (b : BitVec 5)
  /-- TVER (R209): Returns the published version as seen by the launch. -/
  | tver (a : BitVec 5)
  /-- TSTV (R207): Stores a vector register into the write shadow in the tile's format. -/
  | tstv (v : BitVec 5) (g : BitVec 3) (a : BitVec 5) (b : BitVec 5)
  /-- TLDV (R207): Loads a vector register from a tile version. -/
  | tldv (v : BitVec 5) (g : BitVec 3) (a : BitVec 5) (b : BitVec 5)
  /-- TOKEN_FORWARD (R266): A tile agent or home forwards tokens to a requester and any tenure so satisfied is granted. -/
  | tokenForward (part : Nat) (tile : Nat) (src : Nat) (dst : Nat)
  /-- PERSISTENT_REQUEST (R267): A request not satisfied within 256 clocks of reaching the home becomes persistent. -/
  | persistentRequest (part : Nat) (tile : Nat) (cluster : Nat)
  /-- FRAME_SLOT_FREED (R269): A writer waiting for a free frame slot or pool page proceeds when one is returned. -/
  | frameSlotFreed (part : Nat) (tile : Nat)
  /-- TSPAWN (R213): Pushes a task record at the bottom of the core's deque, spilling as needed. -/
  | tspawn (g : BitVec 3) (a : BitVec 5) (b : BitVec 5)
  /-- TEXIT (R216): Ends the task on its slot. -/
  | texit
  /-- MSEND (R214): Sends a stamped message with payload to a counter, optionally waiting for acknowledgement. -/
  | msend (k : BitVec 1) (a : BitVec 5) (b : BitVec 5)
  /-- CNTSET (R213): Creates a counter bound to a task record and returns its name. -/
  | cntset (a : BitVec 5) (b : BitVec 5)
  /-- CNTGET (R213): Returns a counter's count. -/
  | cntget (a : BitVec 5) (b : BitVec 5)
  /-- CNTGET_IN (R214): Pops the oldest queued message or post entry of the executing world. -/
  | cntgetIn (a : BitVec 5)
  /-- BARR (R217): Parks until every live task of the gang arrives, then acts as a cluster acq_rel fence. -/
  | barr
  /-- SQEND (R218): Marks a sequence slot as retiring at the current step. -/
  | sqend (a : BitVec 5)
  /-- GWQ (R219): Pops the next reduction-block index of a port, or frees a block slot. -/
  | gwq (a : BitVec 5) (b : BitVec 5)
  /-- BARQ (R219): Adds one reduction block into another and requantises it. -/
  | barq (a : BitVec 5) (b : BitVec 5)
  /-- GWSEND (R375): Sends a reduction block out of a port. -/
  | gwsend (a : BitVec 5) (b : BitVec 5)
  /-- GCALL (R220): Calls through a burgee, pushing a halyard frame and switching to the callee world. -/
  | gcall (a : BitVec 5) (b : BitVec 5)
  /-- GRET (R221): Returns from a callee, restoring the caller from the frame. -/
  | gret
  /-- GPUB (R222): Publishes or withdraws a burgee image at a gate index. -/
  | gpub (d : BitVec 5) (a : BitVec 5) (k : BitVec 3)
  /-- GWDR (R222): Returns an item of the innermost halyard frame. -/
  | gwdr (d : BitVec 5) (a : BitVec 5)
  /-- GSTAT (R222): Returns the state of a gate. -/
  | gstat (d : BitVec 5) (a : BitVec 5)
  /-- GWIN (R222): Narrows the argument window g7. -/
  | gwin (d : BitVec 5) (a : BitVec 5) (b : BitVec 5)
  /-- WAIT (R225): Parks until an event of the mask is pending, then clears and returns it. -/
  | wait (d : BitVec 5) (a : BitVec 5)
  /-- YIELD (R224): Delays the slot's next issue by 16 clocks. -/
  | yield
  /-- TRAP (R224): Takes the breakpoint trap with s[a] as value. -/
  | trap (a : BitVec 5)
  /-- TRET (R224): Returns from TL1 or TL2 to the level below. -/
  | tret
  /-- UIRET (R224): Returns from a completion handler. -/
  | uiret
  /-- HALT (R224): Parks slot 15 until a wake event, kills the task at TL2, or stops an application core. -/
  | halt
  /-- FLUSHL (R224): Writes a line back into the LLC, keeping it valid. -/
  | flushl (k : BitVec 3) (a : BitVec 5)
  /-- INVL (R224): Writes a line back and invalidates it in L1D and the cluster cache. -/
  | invl (k : BitVec 3) (a : BitVec 5)
  /-- PGINV (R354): Invalidates cached translations across the partition and waits for acknowledgement. -/
  | pginv (e : BitVec 2) (a : BitVec 5)
  /-- SLOTGO (R224): Starts a task record on an Empty target slot. -/
  | slotgo (d : BitVec 5) (a : BitVec 5)
  /-- SLOTKILL (R224): Kills the target's task, optionally taking it out of service. -/
  | slotkill (d : BitVec 5) (a : BitVec 5)
  /-- SLOTRD (R226): Reads an item of another slot. -/
  | slotrd (d : BitVec 5) (a : BitVec 5)
  /-- SLOTWR (R226): Writes an item of another slot. -/
  | slotwr (d : BitVec 5) (a : BitVec 5)
  /-- QUOIN (R49): Locks a user slot's local window. -/
  | quoin (d : BitVec 5) (a : BitVec 5)
  /-- WREVK (R224): Revokes a world in retain or destroy mode. -/
  | wrevk (d : BitVec 5) (a : BitVec 5)
  /-- CXSAVE (R227): Pre-empts the target and writes a sealed context image. -/
  | cxsave (d : BitVec 5) (a : BitVec 5)
  /-- CXREST (R227): Checks and places a context image on an Empty target. -/
  | cxrest (d : BitVec 5) (a : BitVec 5)
  /-- KEYLD (R384): Unwraps and loads a world key through the security processor. -/
  | keyld (d : BitVec 5) (a : BitVec 5)
  /-- EVSEL (R396): Sets an event counter's source and clears it. -/
  | evsel (d : BitVec 5) (a : BitVec 5)
  /-- SVPOST (R224): Appends a value to slot 15's post queue and wakes it. -/
  | svpost (d : BitVec 5) (a : BitVec 5)
  /-- BANKSET (R236): Changes a cluster SRAM bank's mode. -/
  | bankset (d : BitVec 5) (a : BitVec 5)
  /-- BANK_SWITCH_POINT (R237): After earlier bank accesses are performed, the bank takes its new mode and its contents end. -/
  | bankSwitchPoint (cluster : Nat) (bank : Nat)
  /-- CLEANUP_DEADLINE (R307): A cleanup's 4,096-clock deadline expires and the cleanup ends. -/
  | cleanupDeadline (slot : Nat)
  /-- BUDGET_EXPIRY (R305): A depth's deadline expires, the slot stops and an unwind starts with status 2. -/
  | budgetExpiry (slot : Nat)
  /-- REVOCATION_POINT (R296): Every affected slot has stopped and the world's revocation takes effect. -/
  | revocationPoint (part : Nat) (world : Nat)
  /-- REVOCATION_DRAIN_DONE (R385): The domain's lines are drained, the key slot zeroised and WREVK retires with its status. -/
  | revocationDrainDone (part : Nat) (world : Nat)
  /-- APP_CORE_INTERRUPT (R106): A claimed event is taken by an application core as a trap with cause 0x20. -/
  | appCoreInterrupt (app : Nat)
  /-- ACCEPT (R247): A write event moves from a slot's issue queue into its core buffer. -/
  | accept (thread : Nat)
  /-- ADVANCE (R248): A write in transit moves to the next point of its path or reaches its home. -/
  | advance (ev : Nat)
  /-- BIND (R249): A read event takes its value from the nearest holding point. -/
  | bind (ev : Nat)
  /-- ATOMIC_STEP (R250): An atomic reads, computes and writes its location at the home in one step. -/
  | atomicStep (ev : Nat)
  /-- FENCE_STEP (R251): A fence is performed once its condition holds. -/
  | fenceStep (thread : Nat)
  /-- PUBLISH (R255): A tile's version rises by 1 and its footprint maps to the shadow frame. -/
  | publish (slot : Nat)
  /-- DEQUE_START (R281): A deque starts its bottom record on an Empty unreserved slot. -/
  | dequeStart (core : Nat)
  /-- STEAL_VISIT (R282): A sweeping core visits a victim and takes its top record. -/
  | stealVisit (core : Nat)
  /-- GANG_PLACE (R328): The scheduler reserves a cluster for the next gang of an eligible launch. -/
  | gangPlace (part : Nat)
  /-- GANG_START (R277): A reservation reaches T slots and all tasks of the gang become Ready together. -/
  | gangStart (cluster : Nat)
  /-- INBOX_DELIVER (R285): An inbox delivers its lowest-stamped message once its stamp is covered by gvt, decrementing the counter. -/
  | inboxDeliver (core : Nat)
  /-- INBOX_HOLD_EXPIRY (R285): A message held for 64 clocks becomes deliverable regardless of gvt. -/
  | inboxHoldExpiry (core : Nat)
  /-- GVT_SAMPLE (R288): Every 64 clocks the tree samples the partition's minimum and sets the floor F. -/
  | gvtSample (part : Nat)
  /-- GVT_PUBLISH (R288): 64 clocks after a sample the new gvt is published to every core. -/
  | gvtPublish (part : Nat)
  /-- LAUNCH_FETCH (R326): The scheduler fetches and accepts a launch record, then checks it. -/
  | launchFetch (iface : Nat)
  /-- LAUNCH_ELIGIBLE (R327): A queued launch becomes eligible once its predecessor's colophon and wait counter allow. -/
  | launchEligible (launch : Nat)
  /-- COLOPHON_WRITE (R329): A finished launch's colophon is written, held publishes take effect and SIGCNT rises. -/
  | colophonWrite (launch : Nat)
  /-- FAULT_RECORD_POST (R315): A not-present fault posts or joins a record in the fault ring. -/
  | faultRecordPost (thread : Nat)
  /-- WALK_COMPLETE (R353): A page walk finishes and its translation is resolved for the waiting access. -/
  | walkComplete (cluster : Nat) (pva : Nat)
  /-- WAKE_PORT (R316): A written wake token re-issues every waiter of its fault record. -/
  | wakePort (word : BitVec 64)
  /-- ACCESS_COUNTER_HALVE (R356): Every 1 ms every frame access counter is halved. -/
  | accessCounterHalve
  /-- TIER_DEMOTE (R357): A migration engine demotes a frame to the next tier. -/
  | tierDemote (part : Nat) (tier : Nat)
  /-- TIER_PROMOTE (R357): A migration engine promotes a hot frame to T0. -/
  | tierPromote (part : Nat) (gpaFrame : Nat)
  /-- FLIP_TO_HOST (R362): A flip-port word moves a frame to host bias. -/
  | flipToHost (word : BitVec 64)
  /-- FLIP_TO_DEVICE (R362): A flip-port word back-invalidates a frame and returns it to device bias. -/
  | flipToDevice (word : BitVec 64)
  /-- HOST_ACCESS (R360): A host read or write of device memory is served at the home. -/
  | hostAccess (write : Bool) (dpa : Nat) (len : Nat) (data : List (BitVec 8))
  /-- SUBMIT (R364): A doorbell captures a SUBMIT packet and the launch records are fetched. -/
  | submit (iface : Nat)
  /-- CANCEL (R364): A doorbell captures a CANCEL packet and the named launch ends with status 5. -/
  | cancel (iface : Nat)
  /-- PARTITION_CREATE (R333): A command-port word creates a partition from its descriptor. -/
  | partitionCreate (word : BitVec 64) (descriptor : BitVec 64)
  /-- PARTITION_TEARDOWN (R333): A command-port word tears a partition down. -/
  | partitionTeardown (word : BitVec 64)
  /-- CLAIM_SUPERVISOR (R317): Claims an interrupt source for the supervisor. -/
  | claimSupervisor (word : BitVec 64)
  /-- CLAIM_HOST (R317): Claims an interrupt source for the host. -/
  | claimHost (word : BitVec 64)
  /-- CLAIM_RELEASE (R317): Releases a claim of an interrupt source. -/
  | claimRelease (word : BitVec 64)
  /-- CLAIM_ESCALATE (R317): Forwards a source's latest event to the host. -/
  | claimEscalate (word : BitVec 64)
  /-- EVENT_DELIVERY (R318): A claimable event is delivered by the claim bits or held as pending. -/
  | eventDelivery (source : Nat)
  /-- ADMISSION_WRITE (R330): A slot number written to the admission port enters the admission FIFO. -/
  | admissionWrite (word : BitVec 64)
  /-- SCRUB (R383): Page-key op that gives a page a domain and makes it read as zero. -/
  | scrub (word : BitVec 64)
  /-- SEAL (R383): Page-key op that encrypts an open page under a domain. -/
  | seal (word : BitVec 64)
  /-- OPEN (R383): Page-key op that opens a page with every line zero. -/
  | openPage (word : BitVec 64)
  /-- PAGE_KEY_INVALID_OP (R383): Page-key op 3 does nothing and returns status 2. -/
  | pageKeyInvalidOp (word : BitVec 64)
  /-- SESSION_OPEN (R386): A nonce written to the session port makes the security processor write a signed report. -/
  | sessionOpen (nonce : List (BitVec 8)) (reportDpa : Nat) (part : Nat)
  /-- SESSION_COMPLETE (R386): The host's public key and parameters complete the exchange and make the session LIVE. -/
  | sessionComplete (sid : Nat) (hostKey : List (BitVec 8)) (period : Nat) (grace : Option Nat)
  /-- HEARTBEAT (R387): A valid heartbeat extends a session's deadline and makes a HELD session LIVE. -/
  | heartbeat (word0 : BitVec 64) (word1 : BitVec 64)
  /-- SESSION_DEADLINE (R388): A LIVE session's deadline passes and its contexts are held. -/
  | sessionDeadline (sid : Nat)
  /-- SESSION_GRACE_END (R388): A HELD session's grace ends, killing its contexts and revoking its worlds. -/
  | sessionGraceEnd (sid : Nat)
  /-- FLIT_RETRANSMIT (R366): A flit whose CRC fails is retransmitted by the link layer. -/
  | flitRetransmit (port : Nat)
  /-- PORT_DOWN (R366): After 64 retransmissions a port goes down, losing in-flight traffic. -/
  | portDown (port : Nat)
  /-- LINK_RETRAIN (R366): A down port retrains and returns to service. -/
  | linkRetrain (port : Nat)
  /-- REMOTE_MESSAGE_ARRIVAL (R369): A message from a peer arrives at the hub, its stamp is raised to gvt and it goes to the inbox. -/
  | remoteMessageArrival (part : Nat) (name : BitVec 64) (cluster : Nat) (core : Nat) (stamp : Nat) (payload : List (BitVec 64))
  /-- REDUCTION_BLOCK_ARRIVAL (R373): A reduction block arriving on a port is written to a free block slot and queued. -/
  | reductionBlockArrival (port : Nat) (block : List (BitVec 8))
  /-- DEVICE_FAULT (R390): An uncorrectable part failure fences the part, logs a record and raises a claimable source. -/
  | deviceFault (kind : Nat) (number : Nat)
  /-- THRESHOLD_CROSSING (R399): Power or temperature exceeds its threshold, raising source 164 and moving the threshold. -/
  | thresholdCrossing (power : Nat) (temp : Nat)
  /-- THERMAL_THROTTLE (R399): Above the hard limit the device lowers every cluster clock. -/
  | thermalThrottle (power : Nat) (temp : Nat)
  /-- VOLTAGE_DROOP (R398): A supply droop lowers a cluster's clock in 100 MHz steps. -/
  | voltageDroop (cluster : Nat)
  /-- MODULE_RESET (R4): Release of module reset runs bring-up and starts the module span. -/
  | moduleReset
  /-- POWER_OFF (R4): Power-off ends the module span. -/
  | powerOff
  /-- COUNTER_WINDOW_SELECT (R396): A source word written to a cluster or die counter address acts as EVSEL. -/
  | counterWindowSelect (offset : Nat) (word : BitVec 64)
  /-- REGISTER_WRITE (R8): A write to a window register without behaviour of its own stores the value under its access code. -/
  | registerWrite (offset : Nat) (word : BitVec 64)
  /-- WAIT_TIMER_EXPIRY (R225): The main-clock cycle count reaches a parked WAIT's deadline, the timer event becomes pending, and the WAIT re-issues and returns it. -/
  | waitTimerExpiry (slot : Nat)
  /-- SOFT_ERROR (R389): A soft error strikes a line of data; if ECC corrects it, the corrected-error counter rises, and otherwise the line becomes poisoned. -/
  | softError (line : Nat) (corrected : Bool)
  /-- PEER_MEMORY_ACCESS (R244): A memory flit from a peer device arrives on a link and reads or writes this device's memory at its home. -/
  | peerMemoryAccess (part : Nat) (write : Bool) (dpa : Nat) (len : Nat) (data : List (BitVec 8))
  /-- CXL_CACHE_SNOOP (R360): The host reads or writes its own memory at the system point, snooping or invalidating lines of it that the LLC holds through CXL.cache. -/
  | cxlCacheSnoop (write : Bool) (hpa : Nat) (len : Nat) (data : List (BitVec 8))
  /-- VOLTAGE_RECOVERY (R398): A cluster's supply voltage recovers after a droop, and the cluster raises its clock back toward 1.2 GHz. -/
  | voltageRecovery (cluster : Nat)
  deriving DecidableEq, Repr

end Sys2Proof
end

