-- ==== Sys2Proof/Machine/State.lean ====
section
/-! DEFINITION. The state of the whole device, as plain data: module, partitions, launches, clusters, cores, slots and
application cores, memory with its page metadata, and the accesses that are under way in the ordering machine.
INVENTORY.md lists each item with its rule and its reset value. Cores are numbered cluster * 16 + core, and gateway
core p of the hub die is 2048 + p. A slot's key is core * 16 + slot. -/

namespace Sys2Proof.Machine

/-- A fixed number of like things. -/
abbrev Regs (n : Nat) := Vector Word n

/-- Why the machine stops. -/
inductive Fault where
  /-- Raised by step after POWER_OFF (R4): a device without power takes no step. Safe. -/
  | poweredOff
  deriving DecidableEq, Repr

/-- Why a step has no meaning. -/
inductive Refusal where
  /-- Raised by an arm of exec whose instruction has no meaning yet. Safe. -/
  | notModelled (mnemonic : String)
  deriving DecidableEq, Repr

/-- The five memory types (R230). -/
inductive Space where
  | lm | sp | dm | pm | hm
  deriving DecidableEq, Repr

/-- Orders of an access (R98). -/
inductive Order where
  | relaxed | acquire | release | acqRel
  deriving DecidableEq, Repr

/-- Scopes (R98). -/
inductive Scope where
  | thread | core | cluster | partition | system
  deriving DecidableEq, Repr

/-- The eight atomic operations (R135). -/
inductive AmoOp where
  | add | and | or | xor | min | max | swp | cas
  deriving DecidableEq, Repr

/-- What a memory event does (R245). -/
inductive EvKind where
  | read
  | write
  /-- An atomic: its operation, the operand and the compare value. -/
  | atomic (op : AmoOp) (operand compare : Nat)
  | fence
  deriving DecidableEq, Repr

/-- A point of the ordering machine that holds writes in transit (R243). -/
inductive Point where
  | coreBuffer (core : Nat)
  | cluster (cluster : Nat)
  | partition (part : Nat)
  /-- The link to a peer device, and the peer's own partition point (R244). -/
  | link (node : Nat)
  | system
  deriving DecidableEq, Repr

/-- A memory event (R245). Its thread is a slot key, or 2^20 + n for application core n, or 2^21 + 16 * cluster + ch for
a copy channel. -/
structure MemEv where
  id : Nat
  thread : Nat
  kind : EvKind
  /-- The flat addresses of its bytes. -/
  addrs : List Nat
  /-- The bytes of a write; the bytes bound by a read or an atomic once it is performed. -/
  data : List Byte
  order : Order
  scope : Scope
  space : Space
  /-- The key domain of the access (R378); none for an access that reaches open pages only. -/
  dom : Option Nat
  /-- The points a write still has to pass, the first being where it stands or will be accepted. -/
  path : List Point
  /-- A read of a tile footprint without tenure: the partition and the PVA of each byte, translated when it binds (R256). -/
  footprint : Option (Nat × List Nat)
  /-- A write of a copy channel: the destination bytes before it (R191). -/
  copyOffset : Option Nat
  /-- The read found poisoned data, or a line it may not open (R380). -/
  poisoned : Bool
  /-- The launch that it belongs to, 0 for none, from when it entered the machine (R253). -/
  launch : Option Nat
  /-- The effective cache ceiling and the hint of the access (R115, R240). -/
  ceil : Nat := 0
  hint : Nat := 0
  /-- The number of the first event of its instruction, for a vector access; the events of one access to one tile bind together (R210). -/
  group : Nat := 0
  /-- Not a TLDV's: a read by address (R249). -/
  raw : Bool := true
  deriving DecidableEq, Repr

/-- A segment register (R110). -/
structure Seg where
  w0 : Word
  w1 : Word
  deriving DecidableEq, Repr

def Seg.void : Seg := { w0 := 0, w1 := 0 }

/-- A loop counter (R129): the visible COUNT and the fields that MFSR cannot reach, with the order of activation. -/
structure Loop where
  count : Word
  start : Word
  stop : Word
  active : Bool
  order : Nat
  deriving DecidableEq, Repr

def Loop.clear : Loop := { count := 0, start := 0, stop := 0, active := false, order := 0 }

/-- A halyard frame (R300). cleanup and callee are the burgee's, kept for calls in flight (R222); bank is the caller's,
hidden from the callee (R302). -/
structure Frame where
  caller : Nat
  ret : Word
  g : Vector Seg 8
  lmbase : Word
  lmbound : Word
  thandler : Word
  lc0 : Loop
  lc1 : Loop
  window : Word
  gate : Word
  /-- The caller's deadline (R305); none means no deadline. -/
  mark : Option Nat
  saved : Regs 21
  status : Nat
  cleaning : Bool
  vec : Bool
  callee : Nat
  cleanup : Nat
  bank : Option Nat
  /-- How often the callee's world had been revoked at the call (R309). -/
  epoch : Nat
  deriving DecidableEq, Repr

/-- A vector bank (R31 to R36): v0 to v63 and m0 to m7 (m0 reads as ones). -/
structure Bank where
  v : Vector VWord 64
  m : Vector MWord 8
  deriving DecidableEq, Repr

def Bank.zero : Bank := { v := Vector.replicate 64 0, m := Vector.replicate 8 0 }

/-- The park reasons of R29, and 12, a held session (R388). -/
inductive ParkReason where
  | memory | notPresent | matrix | divide | sequencer | copy | tile | galley | wait | barrier | bank | join | held | record
  deriving DecidableEq, Repr

/-- A published burgee with its copied segment set (R297, R298). -/
structure Burgee where
  entry : Nat
  cleanup : Nat
  allow : BitVec 64
  callee : Nat
  ldem : Nat
  budget : Nat
  maxlen : Nat
  rights : BitVec 3
  vec : Bool
  set : Vector Seg 8
  deriving DecidableEq, Repr

/-- What remains of a parked instruction when its reason clears (R30). -/
inductive Cont where
  /-- Nothing of it has been done: it issues again. -/
  | retry
  /-- Issues again once the sequencer holds at most this many entries (R142). -/
  | retryAfter (left : Nat)
  /-- Issues again once these memory events are performed (R162). -/
  | retryEvents (ids : List Nat)
  /-- The reason has cleared: the instruction is performed before the slot becomes Ready (R29, R30). -/
  | resume
  /-- CPWAITID: until the named transfer has ended (R194). -/
  | transfer (id : Nat)
  /-- WAIT: its mask and its deadline (R225). -/
  | wait (mask : BitVec 5) (deadline : Nat)
  /-- HALT of slot 15 (R224). -/
  | halt
  /-- Slot 15 halted for good by a trap (R310). -/
  | stopped
  /-- An access found a page not present (R315): its PVA or GPA, the stage, whether it writes, the requester kind, and
  whether its fault record is posted. -/
  | fault (addr : Nat) (stage2 write : Bool) (kind : Nat) (posted : Bool)
  /-- An access found a frame that is being moved (R358). -/
  | moving (frame : Nat)
  /-- VBIND: the register that takes the bank's number (R32). -/
  | bank (d : BitVec 5)
  /-- A restored slot: the banks still to be bound (slot, saved number, contents), the tenures whose tokens have not come,
  and whether its gang is still held (R319, R320). -/
  | restore (banks : List (Nat × Nat × Bank)) (tokens : List Nat) (gang : Bool)
  /-- FLUSHL, INVL and PGINV: until the accesses to these pages are done (R224, R354). -/
  | flush (pages : List Nat)
  /-- A divide: the result and the clock at which it is written (R120). -/
  | divide (d : BitVec 5) (value : Word) (due : Nat)
  /-- A load or an LDO: the event that reads, the register and the extension (R132, R134). -/
  | load (d : BitVec 5) (size : Nat) (signed : Bool) (ev : Nat)
  /-- An AMO or AMOW (R135). -/
  | atomic (d : BitVec 5) (wide : Bool) (ev : Nat)
  /-- A store whose write is not yet accepted (R133). -/
  | store (ev : Nat)
  /-- A fence (R251). -/
  | fence (ev : Nat)
  /-- TSPAWN until a record leaves the overflow list (R213). -/
  | spawn
  /-- MSEND.ack: the register that takes the reply, and the message (R214). -/
  | ack (a : BitVec 5) (msg : Nat)
  /-- A matrix instruction until its product is written (R180). -/
  | matrix
  /-- The same of one that had retired when its exception was deferred, and that is performed again (R40). -/
  | matrixAgain
  /-- The reason has cleared while the session was HELD: the slot becomes Ready when it is LIVE again (R388). -/
  | cleared
  /-- A tenure request (R205): the register, the handle, write or read, the version. -/
  | tenure (a : BitVec 5) (handle : Nat) (write : Bool) (version : Nat)
  /-- BARR: arrived (R217). -/
  | barrier
  /-- GANG: waiting for the partner (R41). -/
  | join
  /-- WREVK until its drain is done (R385). -/
  | revoke (d : BitVec 5) (part world : Nat)
  /-- BANKSET until its switch point (R237); order is the order in which the cluster received it. -/
  | bankset (d : BitVec 5) (cluster bank mode order : Nat)
  /-- SLOTKILL until the kill completes (R224). -/
  | kill (d : BitVec 5) (target : Nat)
  /-- A TREL until its publish step (R255). -/
  | publish (a : BitVec 5) (handle : Nat)
  /-- A galley that has no room (0), whose head is held (1), or that is held (2) (R173, R175, R184). -/
  | galley (n what : Nat)
  /-- The effect is done; the register takes a value when the memory replies (R29, R227, R352). -/
  | reply (d : BitVec 5) (value : Word)
  /-- TBLOAD: the table slot and the image that it takes when the memory replies (R198). -/
  | table (k : Nat) (image : List Byte)
  /-- A TSTV that waits for a frame slot or pool pages (R269). -/
  | frame (handle : Nat)
  /-- CPLAUNCH until its fence is performed (R190). -/
  | launch (a : BitVec 5) (fence : Nat)
  /-- A TL2 entry that waits for a record entry (R314). -/
  | tl2 (cause : Nat) (pc value : Word)
  /-- GCALL while a frame spills: the gate, the window descriptor and the burgee (R220, R301). -/
  | call (id wd : Word) (b : Burgee)
  /-- GRET while a frame is refilled (R301). -/
  | ret
  /-- CXSAVE until the target has stopped and its writes are home (R319): its descriptor's fields. -/
  | cxsave (d : BitVec 5) (target : Nat) (desc : List Nat)
  deriving DecidableEq, Repr

/-- A park (R29). -/
structure Park where
  reason : ParkReason
  /-- Class abandon: the parked instruction is unretired and issues again (R30). -/
  abandon : Bool
  cont : Cont
  deriving DecidableEq, Repr

/-- The state codes of R25. -/
inductive SlotState where
  | empty | ready | parked | splitWait
  deriving DecidableEq, Repr

/-- One instruction handed to the sequencer, with the operands fixed at its hand-off (R140). -/
structure Handed where
  instr : Instr
  pc : Word
  /-- The scalar operands named by the a and b fields. -/
  sa : Word
  sb : Word
  seed : BitVec 32
  /-- The lane class. -/
  cls : Nat
  /-- The mask read at the hand-off of a vector memory instruction. -/
  mask : MWord
  maskOdd : MWord
  /-- Lane memory events: lane and event ids. -/
  lanes : List (Nat × List Nat)
  /-- A plain list of numbers: the base byte address and format of VLDF, VSTF, TSTV and TLDV; the captured matrix registers. -/
  extra : List Nat
  deriving DecidableEq, Repr

/-- An entry of the sequencer: one instruction, or the replays of a VLOOP (R165). -/
structure SeqEntry where
  body : List Handed
  /-- Replay j of the whole body adds j * step to each vector register field; a plain entry has one replay, j = 0. -/
  step : Nat
  next : Nat
  last : Nat
  /-- The index in the body of the instruction to perform next. -/
  at_ : Nat
  /-- The PC reported for a deferred exception (R40, R165). -/
  pc : Word
  /-- The instruction was handed by a ganged pair (R143). -/
  ganged : Bool
  deriving DecidableEq, Repr

/-- An endpoint register: CPSRC, CPDST and MOUT (R168, R186). -/
structure Endpoint where
  seg : BitVec 3
  ptr : Word
  disp : Int
  deriving DecidableEq, Repr

def Endpoint.zero : Endpoint := { seg := 0, ptr := 0, disp := 0 }

/-- A tenure (R201, R302): an entry for a granted tenure or a standing .nw request. -/
structure Tenure where
  handle : Nat
  write : Bool
  granted : Bool
  version : Nat
  depth : Nat
  deriving DecidableEq, Repr

/-- A completion entry (R196): the XFERID word, the handler's offset, and the depth at launch. -/
structure Completion where
  xfer : Nat
  handler : Nat
  depth : Nat
  /-- The clock at which the transfer ended. -/
  clock : Nat
  deriving DecidableEq, Repr

/-- Scalar and control state of a slot. -/
structure ScalarSt where
  pc : Word
  s : Regs 32
  g : Vector Seg 8
  staging : Word
  lc0 : Loop
  lc1 : Loop
  fpmode : Word
  fpflags : Word
  uepc : Word
  xferid : Word
  uienEn : Bool
  uienAct : Bool
  deriving DecidableEq, Repr

/-- Trap state of a slot (R228, R312). -/
structure TrapSt where
  tl : Nat
  tcause1 : Word
  tepc1 : Word
  tval1 : Word
  tcause2 : Word
  tepc2 : Word
  tval2 : Word
  thandler : Word
  /-- The thread's g0 to g3 and world, held aside at TL2. -/
  heldG : Vector Seg 4
  heldWorld : Nat
  deriving DecidableEq, Repr

/-- Vector, sequencer and matrix state of a slot. -/
structure VecSt where
  vtype : Nat
  /-- The bank bound at the present depth. -/
  bank : Option Nat
  seeds : Vector (BitVec 32) 8
  seq : List SeqEntry
  /-- The head entry is frozen, with the flags or the cause that froze it (R40). -/
  frozen : Bool
  /-- A deferred trap is waiting for the next boundary: cause word and the PC of the vector instruction. -/
  deferred : Option (Nat × Word)
  /-- The instructions handed since the bank was bound, newest first, at most 16 (R165). -/
  recent : List Handed
  /-- MK, MGAL, MOSTR, MOFMT, MOTILE (registers 0, 1, 3, 4, 5). -/
  mkReg : Word
  mgal : Word
  mostr : Word
  mofmt : Word
  motile : Word
  mout : Endpoint
  deriving DecidableEq, Repr

/-- Copy staging, completion and tenure state of a slot. -/
structure EngineSt where
  cpsrc : Endpoint
  cpdst : Endpoint
  /-- Registers 2 to 16 (R186); entries 0 and 1 are unused. -/
  cp : Regs 17
  queue : List Completion
  pending : BitVec 16
  /-- The handler and depth of the last transfer that set each pending bit. -/
  pendingInfo : Assoc Completion
  tenures : List Tenure
  /-- The pending events of WAIT (R225). -/
  pend : BitVec 5
  deriving DecidableEq, Repr

/-- What a slot's task is and where it came from (R212, R276). -/
structure TaskSt where
  /-- The launch, or 0 for none. -/
  launch : Nat
  taskid : Word
  tile : Vector (BitVec 16) 3
  mbx : Regs 8
  /-- The gang: its number in the launch, its size, the index of the task; size 0 means no gang. -/
  gang : Nat
  gangSize : Nat
  gangIndex : Nat
  /-- The completion counter's name, if the record had one. -/
  counter : Option Nat
  world : Nat
  /-- How often the task's world had been revoked when the task started (R309). -/
  epoch : Nat
  arrived : Bool
  deriving DecidableEq, Repr

/-- An unwind in progress (R306, R307). -/
structure Unwind where
  /-- The affected frame and the status written for it. -/
  affected : Nat
  status : Nat
  /-- The cause is a kill: the kind of its record (R314), the trap cause, and the PC recorded. -/
  kill : Option (Nat × Nat × Word)
  /-- The frame that trapped, and the world of the trap that caused a kill: their cleanups are skipped. -/
  skipFrame : Option Nat
  skipWorld : Option Nat
  /-- A cleanup is running; its deadline. -/
  cleanup : Option Nat
  /-- The frame and gate of the affected frame, for the resumption. -/
  gate : Word
  /-- The world before the event, for the kill record (R338), and its tl. -/
  worldAt : Nat
  tlAt : Nat
  /-- The slot halts at the end: slot 15 (R310). -/
  halts : Bool
  deriving DecidableEq, Repr

/-- A slot. -/
structure SlotSt where
  state : SlotState
  park : Option Park
  /-- The last issue clock, none before the first, and the clock in which the slot became Ready (R26). -/
  last : Option Nat
  rdy : Nat
  sc : ScalarSt
  tr : TrapSt
  vec : VecSt
  eng : EngineSt
  task : TaskSt
  frames : List Frame
  /-- The deadline of the current depth (R305). -/
  deadline : Option Nat
  unwind : Option Unwind
  world : Nat
  /-- Ganged with its partner (R42); PC of an odd slot in Split-wait is its own pc. -/
  ganged : Bool
  lmbase : Word
  lmbound : Word
  quoin : Bool
  hspill : Word
  sgbase : Word
  /-- A stop is asked at the next instruction boundary: a kill to be carried out, or a save. -/
  stopKill : Option (Nat × Nat × Word)
  stopSave : Bool
  /-- After a YIELD, the first clock at which the slot may issue (R224). -/
  yieldUntil : Nat
  /-- The word of the instruction that the slot issued last (R107). -/
  word : BitVec 32
  deriving DecidableEq, Repr

def ScalarSt.reset : ScalarSt :=
  { pc := 0, s := Vector.replicate 32 0, g := Vector.replicate 8 Seg.void, staging := 0, lc0 := Loop.clear,
    lc1 := Loop.clear, fpmode := 0, fpflags := 0, uepc := 0, xferid := 0, uienEn := false, uienAct := false }

def TrapSt.reset : TrapSt :=
  { tl := 0, tcause1 := 0, tepc1 := 0, tval1 := 0, tcause2 := 0, tepc2 := 0, tval2 := 0, thandler := 0,
    heldG := Vector.replicate 4 Seg.void, heldWorld := 0 }

def VecSt.reset : VecSt :=
  { vtype := 0, bank := none, seeds := Vector.replicate 8 0, seq := [], frozen := false,
    deferred := none, recent := [], mkReg := 0, mgal := 0, mostr := 0, mofmt := 0, motile := 0, mout := Endpoint.zero }

def EngineSt.reset : EngineSt :=
  { cpsrc := Endpoint.zero, cpdst := Endpoint.zero, cp := Vector.replicate 17 0, queue := [], pending := 0,
    pendingInfo := [], tenures := [], pend := 0 }

def TaskSt.reset : TaskSt :=
  { launch := 0, taskid := 0, tile := Vector.replicate 3 0, mbx := Vector.replicate 8 0, gang := 0, gangSize := 0,
    gangIndex := 0, counter := none, world := 0, epoch := 0, arrived := false }

/-- A slot after module reset: Empty, every register at the value of R228 or, where the spec gives none, zero. -/
def SlotSt.reset : SlotSt :=
  { state := .empty, park := none, last := none, rdy := 0, sc := ScalarSt.reset, tr := TrapSt.reset, vec := VecSt.reset,
    eng := EngineSt.reset, task := TaskSt.reset, frames := [], deadline := none, unwind := none, world := 0,
    ganged := false, lmbase := 0, lmbound := 0, quoin := false, hspill := 0, sgbase := 0xB000, stopKill := none,
    stopSave := false, yieldUntil := 0, word := 0 }

/-- A task record (R212), with the launch it belongs to. -/
structure TaskRec where
  entry : Nat
  launch : Nat
  tile : Vector (BitVec 16) 3
  flags : Nat
  arg : Nat
  counter : Nat
  stamp : Nat
  deriving DecidableEq, Repr

/-- A message on its way or held in an inbox (R214, R285). -/
structure Msg where
  id : Nat
  name : Nat
  stamp : Nat
  cluster : Nat
  core : Nat
  /-- The world and partition of the sender; 0 for a message from a peer. -/
  part : Nat
  world : Nat
  /-- The launch of the sender; 0 for none. -/
  launch : Nat
  payload : List Word
  /-- The clock at which the inbox took it. -/
  since : Nat
  /-- The slot that waits for the reply (R214). -/
  ack : Option Nat
  /-- It came from a peer (R369). -/
  remote : Bool
  deriving DecidableEq, Repr

/-- A delivered message or post entry, in the order of delivery (R214, R314). -/
structure Delivered where
  world : Nat
  /-- The value CNTGET.in writes. -/
  header : Word
  payload : List Word
  /-- The slot whose device-record entry it occupies; none for another entry. -/
  recordOf : Option Nat
  /-- An SVPOST entry. -/
  posted : Bool
  /-- The FIFO bank that holds it; none for a hardware entry (R239). -/
  fifo : Option Nat
  deriving DecidableEq, Repr

/-- A device record that waits for a free entry of its slot (R314). -/
structure WaitingRec where
  slot : Nat
  entry : Delivered
  deriving DecidableEq, Repr

/-- A table slot (R197, R198). -/
structure TableSlot where
  world : Nat
  image : List Byte
  deriving DecidableEq, Repr

/-- A configured galley (R169, R170). -/
structure Galley where
  world : Nat
  raw : Vector Word 4
  base : Nat
  size : Nat
  count : Nat
  fmt : Nat
  blen : Nat
  bitmap : Bool
  head : Nat
  /-- The tags of the entries, head first. -/
  tags : List Nat
  pushTag : Nat
  /-- The clock and the source of the last push: pushes of one clock come in the order of their sources (R173). -/
  pushed : Option (Nat × Nat)
  deriving DecidableEq, Repr

/-- The matrix instruction under way on a core (R178 to R184). -/
structure MatrixRun where
  slot : Nat
  /-- The instruction with the registers captured at its hand-off (R178). -/
  run : Handed
  /-- The two pushes of an MMR still to be accepted, west and north. -/
  pushWest : Bool
  pushNorth : Bool
  productDone : Bool
  due : Nat
  /-- The store-out rows: the writes of each row, still without their bytes and numbers (R185). -/
  outs : List (List MemEv)
  /-- A store-out to a tile: its handle, and the footprint offsets of each row. -/
  tile : Option Nat
  offs : List (List Nat)
  /-- The flags that it raises when it completes (R74). -/
  flags : BitVec 5
  deriving DecidableEq, Repr

/-- An event counter (R395). One that a core selected counts the events of that core's partition; part is none for one that counts every
partition. -/
structure EvCounter where
  source : Nat
  qualifier : Nat
  part : Option Nat
  value : BitVec 48
  deriving DecidableEq, Repr

def EvCounter.reset : EvCounter := { source := 0, qualifier := 0, part := none, value := 0 }

/-- A barrel core. -/
structure CoreSt where
  banks : Vector Bank 4
  holders : Vector (Option Nat) 4
  /-- Slots waiting for a bank, in the order in which they parked (R32). -/
  bankQueue : List Nat
  tables : Assoc TableSlot
  galleys : Assoc Galley
  /-- Slots whose matrix instruction has been released, with the clock, in order (R180). -/
  matrixQueue : List (Nat × Nat)
  matrixRun : Option MatrixRun
  vtime : Word
  /-- The clock of the last push on the deque, and how many records it pushed (R283). -/
  pushClock : Option (Nat × Nat)
  /-- Deque: bottom (newest) first (R280). -/
  deque : List TaskRec
  /-- Inbox: messages held; messages and posts delivered. -/
  inbox : List Msg
  delivered : List Delivered
  waitingRecs : List WaitingRec
  /-- The stamps delivered, each with the gvt in force then, in rising order of stamps (R285). -/
  marks : List (Nat × Nat)
  /-- The clocks of the last delivery and of the last start of a record (R281, R285). -/
  inboxClock : Option Nat
  dequeClock : Option Nat
  /-- Sweep: its number, the next victim to visit, and the clock of that visit, none when no sweep runs (R282). -/
  sweepStart : Nat
  sweepAt : Nat
  sweepDue : Option Nat
  evcnt : Assoc EvCounter
  /-- Lines held in the L1D, and lines of code held in the L1I as they were filled (R240, R242). -/
  l1d : List Nat
  l1i : Assoc (List Byte)
  outOfService : Bool
  /-- The second clock of a ganged pair's issue, at which no choice is made (R26). -/
  pairClock : Option Nat
  /-- The vector unit (R38): the clock in which it last accepted an instruction, and the slot that it took it from. -/
  vecClock : Option Nat
  vecLast : Nat
  deriving DecidableEq, Repr

def CoreSt.reset : CoreSt :=
  { banks := Vector.replicate 4 Bank.zero, holders := Vector.replicate 4 none, bankQueue := [], tables := [],
    galleys := [], matrixQueue := [], matrixRun := none, vtime := 0, pushClock := none, deque := [], inbox := [], delivered := [],
    waitingRecs := [], marks := [], inboxClock := none, dequeClock := none, sweepStart := 0,
    sweepAt := 0, sweepDue := none, evcnt := [], l1d := [], l1i := [],
    outOfService := false, pairClock := none, vecClock := none, vecLast := 15 }

/-- States of a copy channel (R193). -/
inductive ChanState where
  | idle | running | faulted | cancelled
  deriving DecidableEq, Repr

/-- One end of a copy, resolved at its launch (R188, R190). -/
structure CopyEnd where
  /-- 0 local memory, 1 scratchpad, 2 paged, 3 galley. -/
  kind : Nat
  /-- The CVA of element (0, 0, 0, 0); for a galley its number. -/
  base : Nat
  /-- A scaled-paged segment: its first scale byte, and the offset of element (0, 0, 0, 0) in it (R113). -/
  scaleAt : Nat
  segOff : Nat
  fmt : Nat
  blen : Nat
  /-- A tile: its handle, and the version that a source reads. -/
  tile : Option Nat
  version : Nat
  /-- The key domain of its accesses (R378). -/
  dom : Option Nat
  deriving DecidableEq, Repr

def CopyEnd.reset : CopyEnd :=
  { kind := 2, base := 0, scaleAt := 0, segOff := 0, fmt := 0, blen := 0, tile := none, version := 0, dom := none }

/-- The snapshot of a transfer (R190). The rotation spec is that of `cpfmt` or of a tile (R76). -/
structure CopyJob where
  part : Nat
  world : Nat
  slot : Nat
  depth : Nat
  core : Nat
  /-- The launch of the launching slot (R253). -/
  launch : Nat
  rm : Nat
  src : CopyEnd
  dst : CopyEnd
  regs : Regs 17
  blk : Nat
  seed : Nat
  deriving DecidableEq, Repr

def CopyJob.reset : CopyJob :=
  { part := 0, world := 0, slot := 0, depth := 0, core := 0, launch := 0, rm := 0, src := CopyEnd.reset, dst := CopyEnd.reset,
    regs := Vector.replicate 17 0, blk := 0, seed := 0 }

/-- A copy channel with its current or most recent transfer (R186 to R195). -/
structure Chan where
  seq : Nat
  state : ChanState
  id : Nat
  /-- A CPLAUNCH that waits for its fence: the slot and its snapshot (R190). -/
  claim : Option (Nat × CopyJob)
  job : CopyJob
  /-- Element bytes written so far, and the write pointer frozen when the transfer stopped. -/
  written : Nat
  frozenWp : Option Nat
  flags : BitVec 5
  cause : Nat
  /-- It waits for a page; its fault record is posted. -/
  waiting : Bool
  /-- Element and scale bytes that are converted and not yet written or pushed. -/
  entryBytes : List Byte
  entryScales : List Byte
  deriving DecidableEq, Repr

def Chan.reset : Chan :=
  { seq := 0, state := .idle, id := 0, claim := none, job := CopyJob.reset, written := 0, frozenWp := none, flags := 0,
    cause := 0, waiting := false, entryBytes := [], entryScales := [] }

/-- A counter (R211). -/
structure Counter where
  gen : Nat
  /-- None when the index is free. -/
  live : Bool
  count : Nat
  record : TaskRec
  ownerCore : Nat
  world : Nat
  part : Nat
  launch : Nat
  greatest : Nat
  deriving DecidableEq, Repr

/-- A reservation (R278). -/
structure Reservation where
  launch : Nat
  gang : Nat
  size : Nat
  slots : List Nat
  deriving DecidableEq, Repr

/-- A translation kept by a cluster port (R353). -/
structure Tlb where
  part : Nat
  page : Nat
  flat : Nat
  space : Space
  r : Bool
  w : Bool
  x : Bool
  ceil : Nat
  gpa : Nat
  /-- The low bits that its stage-1 leaf maps, and the stage-2 frames that its walk read (R354). -/
  span : Nat
  frames : List Nat
  deriving DecidableEq, Repr

/-- A cluster. -/
structure ClusterSt where
  modes : Vector (BitVec 2) 16
  chans : Assoc Chan
  counters : Assoc Counter
  sticky : BitVec 5
  /-- The last clock in which a slot raised flags, and those flags (R61). -/
  raisedAt : Nat
  raised : BitVec 5
  reservation : Option Reservation
  tlb : List Tlb
  /-- Translations that were replaced or dropped since the last PGINV of them. -/
  tlbOld : List Tlb
  evcnt : Assoc EvCounter
  /-- Clock in 10 MHz units, of the 120 of a main clock (R398); how far its own clock has fallen behind the next main clock; and whether
  the cluster makes no clock of its own in this main clock. -/
  clock : Nat
  phase : Nat
  stalled : Bool
  outOfService : Bool
  deriving DecidableEq, Repr

def ClusterSt.reset : ClusterSt :=
  { modes := Vector.replicate 16 0, chans := [], counters := [], sticky := 0, raisedAt := 0, raised := 0, reservation := none, tlb := [], tlbOld := [], evcnt := [], clock := 120,
    phase := 0, stalled := false, outOfService := false }

/-- A world of a partition (R296, R384). -/
structure World where
  live : Bool
  revoked : Bool
  /-- A revocation under way: destroy mode, and whether the revocation point is passed. -/
  revoking : Option (Bool × Bool)
  /-- How often it has been revoked: a frame or a context of an earlier time is of a revoked world (R309). -/
  epoch : Nat
  key : Option (BitVec 256)
  session : Option Nat
  gates : Assoc Burgee
  deriving DecidableEq, Repr

def World.reset : World :=
  { live := false, revoked := false, revoking := none, epoch := 0, key := none, session := none, gates := [] }

/-- A frame slot of a tile (R268): a version and its pages, by page index of the footprint. -/
structure TFrame where
  /-- The number of the frame slot, 0 to 3: its bit of VALID in the shape record (R261). -/
  slot : Nat
  version : Nat
  pages : List Nat
  /-- The page is drawn from the version pool (and returns to it). -/
  pooled : List Bool
  publishTime : Nat
  /-- The publish time of the version that followed it, once there is one that is not held (R209). -/
  nextTime : Option Nat
  /-- Held under atomic commit by a launch (R206). -/
  held : Option Nat
  deriving DecidableEq, Repr

/-- The shadow of a write tenure. pages is none for a page still shared with the published version. -/
structure Shadow where
  slot : Nat
  version : Nat
  /-- The number of the frame slot that it has taken: its bit of SHADOW (R261). -/
  frameNo : Option Nat
  pages : List (Option Nat)
  deriving DecidableEq, Repr

/-- A tenure request at the tile point (R266, R267). -/
structure TReq where
  slot : Nat
  cluster : Nat
  write : Bool
  version : Nat
  noWait : Bool
  /-- The clock at which it reached the home, when it lacks tokens; none before (R266, R267). -/
  since : Option Nat
  /-- Its place among the persistent requests in their order of arrival at the home; none before it is one. -/
  persistent : Option Nat
  /-- The register that takes the result, for a parked request. -/
  reg : BitVec 5
  deriving DecidableEq, Repr

/-- The shape record (R261) and the tile's state. -/
structure Tile where
  base : Nat
  /-- The length of the footprint in bytes (R262). -/
  ext : Nat
  dims : List Nat
  strides : List Nat
  fmt : Nat
  blen : Nat
  morton : Bool
  rank : Nat
  owner : Nat
  kdom : Nat
  tag : Nat
  /-- 0 private, 1 shared, 2 split. -/
  state : Nat
  version : Nat
  parent : Nat
  oldest : Nat
  /-- The frames that the translation entries of the footprint name, page by page (R352). -/
  basePages : List Nat
  frames : List TFrame
  shadow : Option Shadow
  /-- The cluster of the registering agent; tokens by cluster; tokens at the home entry. -/
  agent : Nat
  tokens : Assoc Nat
  home : Nat
  requests : List TReq
  /-- Pins: slot and version. -/
  pins : List (Nat × Nat)
  firstChild : Nat
  children : Nat
  deriving DecidableEq, Repr

/-- An index of the tile table (R259). -/
structure TileIx where
  gen : Nat
  retired : Bool
  tile : Option Tile
  deriving DecidableEq, Repr

/-- A pending fault record (R315). -/
structure FaultRec where
  page : Nat
  stage2 : Bool
  write : Bool
  token : Nat
  index : Nat
  waiters : Nat
  threads : List Nat
  deriving DecidableEq, Repr

/-- One slot of a saved context, with the contents of the banks it held by their numbers, and its window (R319, R321). -/
structure SavedSlot where
  slot : SlotSt
  banks : List (Nat × Bank)
  /-- Its standing `.nw` requests, by tile: made again when it is restored (log entry 91). -/
  waits : List (Nat × TReq)
  window : List Byte
  /-- The core it was saved on, and that core's virtual time (R287). -/
  core : Nat
  vtime : Word
  deriving DecidableEq, Repr

/-- A save counter, and what is kept beside it on chip while its context is saved (R319, R322): the slots that the image
holds (log entry 14), the scratchpad region, and the pending word with the handlers of its transfers. -/
structure SaveCounter where
  world : Nat
  context : Nat
  counter : Nat
  pending : BitVec 16
  pendingInfo : Assoc Completion
  slots : List SavedSlot
  scratch : List Byte
  deriving DecidableEq, Repr

/-- A stage-2 frame's access counter (R356). -/
structure FrameCount where
  gpaFrame : Nat
  /-- The flat address that the frame was seen at. -/
  flat : Nat
  count : Nat
  /-- Why it is marked moving: 0 and 1 a demotion from that tier, 2 a promotion, 3 a flip to host. -/
  moving : Option Nat
  deriving DecidableEq, Repr

/-- A partition. -/
structure PartSt where
  clusters : List Nat
  granules : List Nat
  lanes : List Nat
  tileLog2 : Nat
  faultLog2 : Nat
  poolSize : Nat
  faultPva : Nat
  seqPva : Nat
  stage1 : Nat
  stage2 : Nat
  grantPva : Nat
  overflowPva : Nat
  overflowLog2 : Nat
  created : Nat
  tiles : Assoc TileIx
  pool : List Nat
  worlds : Assoc World
  gvt : Nat
  floor : Nat
  sample : Option (Nat × Nat)
  /-- faultq.PEND, the ring's tail, records pending. -/
  pend : Nat
  tail : Nat
  faults : List FaultRec
  counters : Assoc (BitVec 32)
  admission : List Nat
  /-- Sequence slots that SQEND retired, each with its launch (R332). -/
  retiring : List (Nat × Nat)
  /-- The overflow list, oldest first, and the ring position of its next record (R213, R280). -/
  overflow : List TaskRec
  overflowTail : Nat
  destroyed : List (BitVec 256)
  saves : List SaveCounter
  tier : Vector Word 16
  /-- Tiers whose demotion has started and not stopped (R357). -/
  demoting : List Nat
  frameCounts : List FrameCount
  routes : Vector Byte 64
  descriptor : List Byte
  deriving DecidableEq, Repr

/-- A launch from acceptance to its colophon (R323 to R332). -/
structure Launch where
  id : Nat
  part : Nat
  queue : Nat
  position : Nat
  flags : Nat
  prio : Nat
  world : Nat
  gang : Vector Nat 3
  seqNo : Nat
  waitCnt : Nat
  sigCnt : Nat
  waitVal : Nat
  entry : Nat
  code : Nat
  data : Nat
  codeLen : Nat
  dataLen : Nat
  grid : Vector Nat 3
  colophon : Nat
  mbx : Regs 8
  /-- The kernel's segment requests for g4 to g6 (R324). -/
  requests : List (Option Seg)
  accepted : Nat
  /-- 0 queued, 1 eligible, 2 ended. -/
  phase : Nat
  status : Nat
  reason : Nat
  cause : Nat
  killKind : Nat
  faultTask : Nat
  faultPc : Word
  /-- Gangs not yet placed, in linear order from this index. -/
  nextGang : Nat
  /-- Gangs whose reservation was given up, to be placed again (R392). -/
  again : List Nat
  /-- Tasks started from deque records or by SLOTGO (R276). -/
  started : Nat
  /-- The cores on which it has started (R242). -/
  cores : List Nat
  batch : List Nat
  stamp : Nat
  vec : Option Nat
  deriving DecidableEq, Repr

/-- A record still to be fetched (R364): its PVA, the PASID and the vector of its packet, and the packet's number. -/
structure PendingRec where
  pva : Nat
  pasid : Nat
  vec : Option Nat
  packet : Nat
  deriving DecidableEq, Repr

/-- A queue interface (R363, R364). -/
structure Iface where
  config0 : Word
  config1 : Word
  packet : Vector Byte 64
  accepted : BitVec 32
  err : Nat
  /-- The packet that a doorbell is capturing: BUSY while there is one. -/
  capture : Option (Vector Byte 64)
  captures : Nat
  fetch : List PendingRec
  deriving DecidableEq, Repr

def Iface.reset : Iface :=
  { config0 := 0, config1 := 0, packet := Vector.replicate 64 0, accepted := 0, err := 0, capture := none,
    captures := 0, fetch := [] }

/-- A claim-table entry (R317). -/
structure Claim where
  vec : Nat
  vf : Nat
  acore : Nat
  pend : Bool
  host : Bool
  sup : Bool
  /-- The source has had an event: what op 3 forwards. -/
  occurred : Bool
  deriving DecidableEq, Repr

def Claim.reset : Claim := { vec := 0, vf := 0, acore := 0, pend := false, host := false, sup := false, occurred := false }

/-- States of a session (R386, R388). -/
inductive SessionState where
  | opening | live | heldState | lost
  deriving DecidableEq, Repr

/-- A session of the security processor (R386 to R388). -/
structure Session where
  state : SessionState
  part : Nat
  nonce : List Byte
  secret : Nat
  key : BitVec 256
  period : Nat
  grace : Nat
  deadline : Nat
  beat : Nat
  keyCounter : Nat
  worlds : List Nat
  deriving DecidableEq, Repr

/-- A link port with its gateway block queue (R366 to R375). -/
structure Port where
  up : Bool
  retries : Nat
  queue : List Nat
  used : List Nat
  /-- Blocks that the port holds back while no slot is free. -/
  waiting : List (List Byte)
  sent : List (List Byte)
  deriving DecidableEq, Repr

def Port.reset : Port := { up := true, retries := 0, queue := [], used := [], waiting := [], sent := [] }

/-- The metadata of a 4 KiB page (R381), which its block in the metadata region shows: open, key domain, elision bits and constant; and the
key that its lines are sealed with, from which the block's MAC follows (log entry 2). -/
structure PageMeta where
  opened : Bool
  dom : Nat
  zero : BitVec 64
  const : BitVec 64
  value : BitVec 32
  key : Option (BitVec 256)
  deriving DecidableEq, Repr

def PageMeta.reset : PageMeta := { opened := true, dom := 0, zero := 0, const := 0, value := 0, key := none }

/-- An application core (R106). -/
structure AppSt where
  sc : ScalarSt
  tr : TrapSt
  /-- Stopped by HALT until an event is pending; halted for good by a trap at tl = 1. -/
  waiting : Bool
  halted : Bool
  park : Option Park
  pendingSources : List Nat
  deriving DecidableEq, Repr

def AppSt.reset : AppSt :=
  { sc := ScalarSt.reset, tr := TrapSt.reset, waiting := false, halted := false, park := none, pendingSources := [] }

/-- A record of the fault log (R391). -/
structure LogRec where
  kind : Nat
  part : Nat
  number : Nat
  discarded : Nat
  cycle : Nat
  deriving DecidableEq, Repr

/-- Who executes the instruction being performed. -/
inductive Agent where
  | slot (key : Nat)
  | app (n : Nat)
  deriving DecidableEq, Repr

/-- The module's own registers and tables. -/
structure ModuleSt where
  powered : Bool
  claims : Assoc Claim
  /-- The last port status of each reader: 0 the host, n + 1 application core n (R335). -/
  portStatus : Assoc Word
  /-- Who performs the port operation under way. -/
  portReader : Nat
  /-- Window writes that have reached the hub and are still to be performed: writer, offset, word. -/
  portWrites : List (Nat × Nat × Word)
  /-- The first word of a port operation of two words, by writer * 2^16 + offset (R335, R387). -/
  portStage : Assoc Word
  /-- Parts out of service, by kind and number (R390). -/
  failed : List (Nat × Nat)
  /-- Device pages, by number, that the page-key port is rewriting (R383). -/
  pageMoves : List Nat
  sessions : Assoc Session
  faultLog : List LogRec
  faultCount : Nat
  power : Nat
  temp : Nat
  pth : Nat
  tth : Nat
  ifaces : Assoc Iface
  msix : Assoc Word
  /-- The MSI-X table entries, by VF and index, whose mask bit is set, and those whose pending bit is (R365, log entry 73). -/
  msixMask : List (Nat × Nat)
  msixPending : List (Nat × Nat)
  ports : Assoc Port
  dieCounters : Assoc EvCounter
  /-- Interrupt messages sent to the host: VF and MSI-X index. -/
  sentInterrupts : List (Nat × Nat)
  /-- Messages sent to peers: node and message. -/
  sentMessages : List (Nat × Msg)
  moduleFault : Bool
  /-- The last reply to a read from outside, by the host or a peer: the address, and the bytes; none is CXL poison (R381). -/
  outsideReply : Option (Nat × Option (List Byte))
  deriving DecidableEq, Repr

/-- The state of the device. -/
structure State where
  /-- Main clocks since module reset (R228). -/
  cycle : Nat
  /-- Device events and inputs from outside, in the order in which they come about (log entry 3). -/
  agenda : List Instr
  /-- The executor of the instruction being performed, and the core whose wheel turns next. -/
  cur : Agent
  turn : Nat
  /-- The word being issued (R107). -/
  word : BitVec 32
  /-- Fresh numbers: free values drawn, memory events and messages made, loop activations. -/
  free : Nat
  nextId : Nat
  slots : Assoc SlotSt
  apps : Assoc AppSt
  cores : Assoc CoreSt
  clusters : Assoc ClusterSt
  parts : Assoc PartSt
  launches : List Launch
  mem : List Host.Cell
  pages : Assoc PageMeta
  poison : List Nat
  /-- The lines of device and host memory that an LLC slice may hold, each with its mark 'first for replacement' (R115, R240). -/
  llc : Assoc Bool
  /-- Issue queues, in program order of each thread (R243). -/
  iq : List MemEv
  /-- Reads and atomics performed whose instruction has not yet taken the value. -/
  bound : List MemEv
  /-- Writes in transit, in the order of arrival at their points. -/
  transit : List MemEv
  /-- Messages in the network (R214). -/
  network : List Msg
  mod : ModuleSt
  deriving DecidableEq, Repr

def ModuleSt.reset : ModuleSt :=
  { powered := true, claims := [], portStatus := [], portReader := 0, portWrites := [], portStage := [], failed := [], pageMoves := [], sessions := [], faultLog := [], faultCount := 0, power := 0,
    temp := 0, pth := 4200, tth := 95, ifaces := [], msix := [], msixMask := [], msixPending := [], ports := [], dieCounters := [],
    sentInterrupts := [], sentMessages := [], moduleFault := false, outsideReply := none }

/-- The device after module reset and bring-up (Bring-up, 24_faults_counters.md): no partition exists, every bank is in
CACHE mode, every slot 15 is halted, every counter is 0. -/
def State.reset : State :=
  { cycle := 0, agenda := [], cur := .slot 0, turn := 0, word := 0, free := 0, nextId := 1, slots := [], apps := [],
    cores := [], clusters := [], parts := [], launches := [], mem := [], pages := [], poison := [], llc := [], iq := [],
    bound := [], transit := [], network := [], mod := ModuleSt.reset }

end Sys2Proof.Machine
end

