-- ==== Sys2Proof/Machine/Access.lean ====
section
/-! DEFINITION. Accessors of the state: slots, cores, clusters, partitions, application cores; the registers of the
executing agent; identity of the parts (R3); event counters (R395). -/

namespace Sys2Proof.Machine

def slotAt (s : State) (k : Nat) : SlotSt := lookupD s.slots k SlotSt.reset
def setSlot (s : State) (k : Nat) (x : SlotSt) : State := { s with slots := insert s.slots k x }
def modSlot (s : State) (k : Nat) (f : SlotSt → SlotSt) : State := setSlot s k (f (slotAt s k))

def appAt (s : State) (n : Nat) : AppSt := lookupD s.apps n AppSt.reset
def setApp (s : State) (n : Nat) (x : AppSt) : State := { s with apps := insert s.apps n x }
def modApp (s : State) (n : Nat) (f : AppSt → AppSt) : State := setApp s n (f (appAt s n))

def coreAt (s : State) (c : Nat) : CoreSt := lookupD s.cores c CoreSt.reset
def setCore (s : State) (c : Nat) (x : CoreSt) : State := { s with cores := insert s.cores c x }
def modCore (s : State) (c : Nat) (f : CoreSt → CoreSt) : State := setCore s c (f (coreAt s c))

def clusterAt (s : State) (k : Nat) : ClusterSt := lookupD s.clusters k ClusterSt.reset
def setCluster (s : State) (k : Nat) (x : ClusterSt) : State := { s with clusters := insert s.clusters k x }
def modCluster (s : State) (k : Nat) (f : ClusterSt → ClusterSt) : State := setCluster s k (f (clusterAt s k))

def partAt (s : State) (p : Nat) : Option PartSt := lookup s.parts p
def setPart (s : State) (p : Nat) (x : PartSt) : State := { s with parts := insert s.parts p x }
/-- Change a partition that exists. -/
def modPart (s : State) (p : Nat) (f : PartSt → PartSt) : State :=
  match partAt s p with | some x => setPart s p (f x) | none => s

def modMod (s : State) (f : ModuleSt → ModuleSt) : State := { s with mod := f s.mod }

/-- Change one launch. -/
def modLaunch (s : State) (id : Nat) (f : Launch → Launch) : State :=
  { s with launches := s.launches.map fun l => if l.id = id then f l else l }
def launchOf (s : State) (id : Nat) : Option Launch := s.launches.find? fun l => l.id == id

/-- Numbers of parts (R3). A slot key is core * 16 + slot. -/
def coreOfSlot (k : Nat) : Nat := k / 16
def slotNo (k : Nat) : Nat := k % 16
def clusterOfCore (c : Nat) : Nat := c / 16
def clusterOfSlot (k : Nat) : Nat := k / 256
/-- A gateway core (R372). -/
def isGateway (c : Nat) : Bool := decide (2048 ≤ c)
def dieOfCluster (k : Nat) : Nat := k / 32
def slotKey (core slot : Nat) : Nat := core * 16 + slot

/-- The partition that owns every lane of a link port (R371). -/
def partOfPort (s : State) (port : Nat) : Option Nat :=
  (s.parts.find? fun p => p.2.lanes.getD port 0 == 15).map (·.1)

/-- The partition that owns a cluster. -/
def partOfCluster (s : State) (k : Nat) : Option Nat :=
  (s.parts.find? fun p => p.2.clusters.contains k).map (·.1)

/-- The partition of a core. -/
def partOfCore (s : State) (c : Nat) : Option Nat :=
  if isGateway c then partOfPort s (c - 2048) else partOfCluster s (clusterOfCore c)

def partOfSlot (s : State) (k : Nat) : Option Nat := partOfCore s (coreOfSlot k)

/-- The world identifier of world w of partition p (R3). -/
def worldId (p w : Nat) : Nat := p * 64 + w
def partOfWorld (id : Nat) : Nat := id / 64
def worldNo (id : Nat) : Nat := id % 64

def worldOf (s : State) (id : Nat) : World :=
  match partAt s (partOfWorld id) with | some p => lookupD p.worlds (worldNo id) World.reset | none => World.reset
def modWorld (s : State) (id : Nat) (f : World → World) : State :=
  modPart s (partOfWorld id) fun p =>
    { p with worlds := insert p.worlds (worldNo id) (f (lookupD p.worlds (worldNo id) World.reset)) }

/-- The session of a world is HELD (R388). -/
def sessionHeld (s : State) (id : Nat) : Bool :=
  match (worldOf s id).session.bind (lookup s.mod.sessions) with
  | some x => x.state == .heldState
  | none => false
/-- A context of a HELD session's worlds is stopped; TL2 code runs to its TRET first (R388). -/
def heldNow (s : State) (x : SlotSt) : Bool :=
  x.state != .empty && x.tr.tl != 2 && (sessionHeld s x.task.world || sessionHeld s x.world)

/-- What a slot's state and park show: of the odd slot of a ganged pair, those of the pair, which its even slot holds (R42). -/
def shownSlot (s : State) (k : Nat) : SlotSt :=
  let x := slotAt s k
  if x.ganged && k % 2 == 1 then
    let y := slotAt s (k - 1)
    { x with state := y.state, park := y.park }
  else x

/-- The scalar and trap state of an agent. -/
def scOf (s : State) : Agent → ScalarSt
  | .slot k => (slotAt s k).sc
  | .app n => (appAt s n).sc
def trOf (s : State) : Agent → TrapSt
  | .slot k => (slotAt s k).tr
  | .app n => (appAt s n).tr
def modScOf (s : State) (ag : Agent) (f : ScalarSt → ScalarSt) : State :=
  match ag with
  | .slot k => modSlot s k fun x => { x with sc := f x.sc }
  | .app n => modApp s n fun x => { x with sc := f x.sc }
def modTrOf (s : State) (ag : Agent) (f : TrapSt → TrapSt) : State :=
  match ag with
  | .slot k => modSlot s k fun x => { x with tr := f x.tr }
  | .app n => modApp s n fun x => { x with tr := f x.tr }

/-- A scalar register; s0 reads as 0 (R95). -/
def regOf (s : State) (ag : Agent) (r : BitVec 5) : Word :=
  if r = 0 then 0 else (scOf s ag).s[r.toNat]'(r.isLt)
/-- Write a scalar register; a write of s0 is discarded (R24, R95). -/
def setRegOf (s : State) (ag : Agent) (r : BitVec 5) (v : Word) : State :=
  if r = 0 then s else modScOf s ag fun x => { x with s := x.s.set r.toNat v r.isLt }

def pcOf (s : State) (ag : Agent) : Word := (scOf s ag).pc
def setPcOf (s : State) (ag : Agent) (v : Word) : State := modScOf s ag fun x => { x with pc := v }
def tlOf (s : State) (ag : Agent) : Nat := (trOf s ag).tl
def segOf (s : State) (ag : Agent) (k : BitVec 3) : Seg := (scOf s ag).g[k.toNat]'(k.isLt)
def setSegOf (s : State) (ag : Agent) (k : BitVec 3) (v : Seg) : State :=
  modScOf s ag fun x => { x with g := x.g.set k.toNat v k.isLt }

/-- The same of the executor. -/
def rd (s : State) (r : BitVec 5) : Word := regOf s s.cur r
def wr (s : State) (r : BitVec 5) (v : Word) : State := setRegOf s s.cur r v
def pc (s : State) : Word := pcOf s s.cur
def tl (s : State) : Nat := tlOf s s.cur

/-- The slot key of an agent; 0 for an application core. -/
def keyOf : Agent → Nat
  | .slot k => k
  | .app _ => 0
def isApp : Agent → Bool
  | .slot _ => false
  | .app _ => true
/-- The key and the record of the executing slot. -/
def myKey (s : State) : Nat := keyOf s.cur
def me (s : State) : SlotSt := slotAt s (myKey s)
def modMe (s : State) (f : SlotSt → SlotSt) : State := modSlot s (myKey s) f
def myCore (s : State) : Nat := coreOfSlot (myKey s)
def myCluster (s : State) : Nat := clusterOfSlot (myKey s)
def myPart (s : State) : Option Nat :=
  match s.cur with | .slot k => partOfSlot s k | .app _ => none
def myWorld (s : State) : Nat := (me s).world
def hdepth (x : SlotSt) : Nat := x.frames.length

/-- The thread of the ordering machine that an agent is. -/
def threadOf : Agent → Nat
  | .slot k => k
  | .app n => 2 ^ 20 + n
def chanThread (cluster ch : Nat) : Nat := 2 ^ 21 + 16 * cluster + ch

/-- Executors that may run privileged instructions (R104). -/
def privilegedAg (s : State) : Agent → Bool
  | .app _ => true
  | .slot k => slotNo k == 15 || (slotAt s k).tr.tl == 2
def privileged (s : State) : Bool := privilegedAg s s.cur

/-- The next fresh number. -/
def bumpFree (s : State) : State := { s with free := s.free + 1 }
def bumpId (s : State) : State := { s with nextId := s.nextId + 1 }

/-- Whether a counter counts an event of a source with a qualifier in a partition: qualifier 15 counts every reason (R397), and a counter
that a core selected counts one partition (R395). -/
def EvCounter.counts (c : EvCounter) (src : Nat) (qual part : Option Nat) : Bool :=
  c.source == src && (match qual with
    | none => true
    | some q => c.qualifier == q || c.qualifier == 15) && (c.part.isNone || c.part == part)
def EvCounter.bump (c : EvCounter) (src : Nat) (qual part : Option Nat) (n : Nat) : EvCounter :=
  if c.counts src qual part then { c with value := c.value + BitVec.ofNat 48 n } else c

/-- Add n to every counter of a table that counts the event (R395). -/
def countIn (t : Assoc EvCounter) (src : Nat) (qual part : Option Nat) (n : Nat) : Assoc EvCounter :=
  t.map fun e => (e.1, e.2.bump src qual part n)

/-- A die's event, of a partition; the dieCounters key is die * 64 + counter - 24. -/
def countDieQ (s : State) (die src : Nat) (qual part : Option Nat) (n : Nat) : State :=
  modMod s fun m => { m with dieCounters := m.dieCounters.map fun e =>
    if e.1 / 64 = die then (e.1, e.2.bump src qual part n) else e }
def countDie (s : State) (die src : Nat) (part : Option Nat) (n : Nat) : State := countDieQ s die src none part n

def countClusterQ (s : State) (k src : Nat) (qual : Option Nat) (n : Nat) : State :=
  { s with clusters := s.clusters.map fun e =>
    if e.1 = k then (e.1, { e.2 with evcnt := countIn e.2.evcnt src qual (partOfCluster s k) n }) else e }
/-- A cluster's event (level cluster of R397). -/
def countCluster (s : State) (k src n : Nat) : State :=
  countDie (countClusterQ s k src none n) (dieOfCluster k) src (partOfCluster s k) n

/-- A core's event, seen by the counters of the core, its cluster and its die. -/
def countCore (s : State) (core src : Nat) (qual : Option Nat) (n : Nat) : State :=
  let p := partOfCore s core
  let s1 := { s with cores := s.cores.map fun e =>
    if e.1 = core then (e.1, { e.2 with evcnt := countIn e.2.evcnt src qual p n }) else e }
  if isGateway core then countDieQ s1 4 src qual p n
  else countDieQ (countClusterQ s1 (clusterOfCore core) src qual n) (dieOfCluster (clusterOfCore core)) src qual p n

/-- The granule of a device address of HBM4E or LPDDR6, with its half package of LPDDR6 (R3, R346). DESIGN CHOICE (log entry 61):
which granule an LPDDR6 address belongs to is not stated; the 64 runs of 64 GiB belong to the granules in ascending order. -/
def granuleOf (a : Nat) : Option Nat :=
  if a < 2 ^ 40 then some (a / 2 ^ 34) else if a < 5 * 2 ^ 40 then some ((a - 2 ^ 40) / 2 ^ 36) else none

/-- The die whose counters count an event at a device address (R3): the die of its granule. DESIGN CHOICE (log entry 61): a line of
the CXL-attached tier counts on the hub die. -/
def dieOfDpa (a : Nat) : Nat := match granuleOf a with | some g => g / 16 | none => 4

/-- The partition that owns a device address. -/
def partOfDpa (s : State) (a : Nat) : Option Nat :=
  (granuleOf a).bind fun g => (s.parts.find? fun e => e.2.granules.contains g).map (·.1)

/-- Unsigned and signed fields. -/
def bits (x : Nat) (h l : Nat) : Nat := x / 2 ^ l % 2 ^ (h + 1 - l)
def sx (x : Nat) (n : Nat) : Int := let y := x % 2 ^ n; if y < 2 ^ (n - 1) then (y : Int) else (y : Int) - 2 ^ n
def ofInt (i : Int) : Word := BitVec.ofInt 64 i
def w64 (n : Nat) : Word := BitVec.ofNat 64 n
def flag (b : Bool) : Nat := if b then 1 else 0

end Sys2Proof.Machine
end

