-- ==== Sys2Proof/Machine/Flags.lean ====
section
/-! DEFINITION. Number formats, rounding and the flags of every numeric result (R51 to R69). Values are exact: a finite
value is a sign, a natural mantissa and a power of two. Flags are five bits in the order of `fpflags` (R58). -/

namespace Sys2Proof.Machine

/-- Raised flags: bit 4 NV, 3 DZ, 2 OF, 1 UF, 0 NX (R58). -/
abbrev FFlags := BitVec 5
def fNX : FFlags := 1
def fUF : FFlags := 2
def fOF : FFlags := 4
def fDZ : FFlags := 8
def fNV : FFlags := 16
def fIf (c : Bool) (f : FFlags) : FFlags := if c then f else 0

/-- Rounding modes (R57). -/
inductive RMode where
  | rne | rtz | rdn | rup
  deriving DecidableEq, Repr
def rmOf (n : Nat) : RMode := match n % 4 with | 0 => .rne | 1 => .rtz | 2 => .rdn | _ => .rup

/-- A value: a NaN, an infinity, or (-1)^neg * m * 2^e. -/
inductive FVal where
  | nan
  | inf (neg : Bool)
  | fin (neg : Bool) (m : Nat) (e : Int)
  deriving DecidableEq, Repr

def FVal.isNan : FVal → Bool | .nan => true | _ => false
def FVal.isFin : FVal → Bool | .fin _ _ _ => true | _ => false
def FVal.isZero : FVal → Bool | .fin _ m _ => m == 0 | _ => false
def FVal.neg? : FVal → Bool | .nan => false | .inf n => n | .fin n _ _ => n
def FVal.negate : FVal → FVal | .nan => .nan | .inf n => .inf (!n) | .fin n m e => .fin (!n) m e
/-- The signed mantissa. -/
def FVal.int : FVal → Int | .fin n m _ => if n then -(m : Int) else m | _ => 0
def FVal.exp : FVal → Int | .fin _ _ e => e | _ => 0

/-- A floating format: exponent and fraction widths, bias, and which specials it has (R51). -/
structure FFmt where
  eb : Nat
  fb : Nat
  bias : Nat
  /-- 0: the top exponent holds infinities and NaNs; 1: E4M3, only the all-ones code is a NaN; 2: neither. -/
  special : Nat
  deriving DecidableEq, Repr

def fp32 : FFmt := { eb := 8, fb := 23, bias := 127, special := 0 }
def fp16 : FFmt := { eb := 5, fb := 10, bias := 15, special := 0 }
def bf16 : FFmt := { eb := 8, fb := 7, bias := 127, special := 0 }
def e4m3 : FFmt := { eb := 4, fb := 3, bias := 7, special := 1 }
def e5m2 : FFmt := { eb := 5, fb := 2, bias := 15, special := 0 }
def e3m2 : FFmt := { eb := 3, fb := 2, bias := 3, special := 2 }
def e2m3 : FFmt := { eb := 2, fb := 3, bias := 1, special := 2 }
def e2m1 : FFmt := { eb := 2, fb := 1, bias := 1, special := 2 }

/-- The floating format of a code of R51. -/
def floatFmt (code : Nat) : Option FFmt :=
  match code with
  | 7 => some fp32 | 8 => some fp16 | 9 => some bf16 | 10 => some e4m3 | 11 => some e5m2 | 12 => some e3m2
  | 13 => some e2m3 | 14 => some e2m1 | _ => none

/-- The element format of an MX or scaled-TERN code (R53); other codes are their own. -/
def elemCode (code : Nat) : Nat :=
  match code with
  | 15 => 10 | 16 => 11 | 17 => 12 | 18 => 13 | 19 => 14 | 20 => 1 | 21 => 4 | c => c

/-- The width of an element in bits (R51). -/
def elemWidth (code : Nat) : Nat :=
  match elemCode code with
  | 7 | 6 => 32 | 8 | 9 | 5 => 16 | 12 | 13 => 6 | 14 | 3 => 4 | 4 => 2 | _ => 8

def isMx (code : Nat) : Bool := decide (15 ≤ code) && decide (code ≤ 21)
/-- The block length of a block-length code (R108). -/
def blockLen (blen : Nat) : Nat := 2 ^ (blen + 2)
/-- A format code and a block-length code that R53 admits. -/
def fmtOk (code blen : Nat) : Bool :=
  if code = 21 then blen == 3
  else if isMx code then blen == 2 || blen == 3
  else decide (code ≤ 14) && blen == 0
/-- The emax of R53. -/
def emaxOf (code : Nat) : Int :=
  match code with | 15 => 8 | 16 => 15 | 17 => 4 | 18 => 2 | 19 => 2 | _ => 0
def isWide (code : Nat) : Bool := code == 7 || code == 8 || code == 9
def isIntFmt (code : Nat) : Bool := code == 1 || code == 2 || code == 3 || code == 4 || code == 5 || code == 6
/-- A format of 8 bits or fewer other than raw. -/
def isNarrow (code : Nat) : Bool := decide (elemWidth code ≤ 8) && code != 0

def FFmt.width (f : FFmt) : Nat := 1 + f.eb + f.fb
def FFmt.emin (f : FFmt) : Int := 1 - (f.bias : Int)
/-- The largest finite magnitude: mantissa and exponent of its last place. -/
def FFmt.maxMant (f : FFmt) : Nat := if f.special = 1 then 2 ^ (f.fb + 1) - 2 else 2 ^ (f.fb + 1) - 1
def FFmt.maxExp (f : FFmt) : Int :=
  (if f.special = 0 then (2 ^ f.eb - 2 : Int) else (2 ^ f.eb - 1 : Int)) - f.bias - f.fb

/-- The value of an encoding (R51). -/
def decodeF (f : FFmt) (x : Nat) : FVal :=
  let fr := x % 2 ^ f.fb
  let ex := x / 2 ^ f.fb % 2 ^ f.eb
  let neg := x / 2 ^ (f.fb + f.eb) % 2 == 1
  if f.special = 0 ∧ ex = 2 ^ f.eb - 1 then (if fr = 0 then .inf neg else .nan)
  else if f.special = 1 ∧ ex = 2 ^ f.eb - 1 ∧ fr = 2 ^ f.fb - 1 then .nan
  else if ex = 0 then .fin neg fr (f.emin - f.fb)
  else .fin neg (2 ^ f.fb + fr) ((ex : Int) - f.bias - f.fb)

/-- The default NaN (R51). -/
def FFmt.nanBits (f : FFmt) : Nat :=
  if f.special = 1 then 2 ^ (f.eb + f.fb) - 1 else (2 ^ f.eb - 1) * 2 ^ f.fb + 2 ^ (f.fb - 1)
def FFmt.signBit (f : FFmt) (neg : Bool) : Nat := if neg then 2 ^ (f.eb + f.fb) else 0
def FFmt.infBits (f : FFmt) (neg : Bool) : Nat := f.signBit neg + (2 ^ f.eb - 1) * 2 ^ f.fb
def FFmt.maxBits (f : FFmt) (neg : Bool) : Nat :=
  f.signBit neg + ((f.maxExp + f.bias + f.fb).toNat) * 2 ^ f.fb + (f.maxMant - 2 ^ f.fb)

/-- The encoding of m * 2^q where q is the last place of the format at that magnitude. -/
def FFmt.encodeAt (f : FFmt) (neg : Bool) (m : Nat) (q : Int) : Nat :=
  if m < 2 ^ f.fb then f.signBit neg + m
  else if m < 2 ^ (f.fb + 1) then f.signBit neg + (q + f.fb + f.bias).toNat * 2 ^ f.fb + (m - 2 ^ f.fb)
  else f.signBit neg + (q + f.fb + f.bias + 1).toNat * 2 ^ f.fb

/-- Whether a remainder rounds the magnitude up. -/
def roundsUp (mode : RMode) (neg odd : Bool) (rem half : Nat) (sticky : Bool) : Bool :=
  match mode with
  | .rne => decide (half < rem) || (rem == half && (sticky || odd))
  | .rtz => false
  | .rdn => neg && (rem != 0 || sticky)
  | .rup => !neg && (rem != 0 || sticky)

/-- m * 2^e rounded to a multiple of 2^q: the multiple and whether it is inexact. A sticky value lies strictly above
m * 2^e by less than 2^e. -/
def roundAt (mode : RMode) (neg : Bool) (m : Nat) (e q : Int) (sticky : Bool) : Nat × Bool :=
  if q ≤ e then (m * 2 ^ (e - q).toNat, sticky)
  else
    let sh := (q - e).toNat
    let r := m / 2 ^ sh
    let rem := m % 2 ^ sh
    ((if roundsUp mode neg (r % 2 == 1) rem (2 ^ (sh - 1)) sticky then r + 1 else r), rem != 0 || sticky)

/-- The exponent of the leading bit of m * 2^e, for m not 0. -/
def leadExp (m : Nat) (e : Int) : Int := e + Nat.log2 m

/-- The outcome of rounding a nonzero magnitude: the multiple of 2^q, and inexact, tiny and overflow. -/
structure Rounded where
  m : Nat
  q : Int
  inexact : Bool
  tiny : Bool
  tooLarge : Bool
  deriving DecidableEq, Repr

/-- Round a magnitude that is not 0 to a format (R58, R62). -/
def roundMag (f : FFmt) (mode : RMode) (neg : Bool) (m : Nat) (e : Int) (sticky : Bool) : Rounded :=
  let ex := leadExp m e
  let q := max ex f.emin - f.fb
  let r := roundAt mode neg m e q sticky
  let u := roundAt mode neg m e (ex - f.fb) sticky
  let tiny := decide (ex < f.emin) && !(ex == f.emin - 1 && u.1 == 2 ^ (f.fb + 1))
  let tooLarge := decide (f.maxExp < q) || (q == f.maxExp && decide (f.maxMant < r.1))
  { m := r.1, q := q, inexact := r.2, tiny := tiny, tooLarge := tooLarge }

/-- The overflow result of the wide formats (R62). -/
def overflowBits (f : FFmt) (mode : RMode) (neg : Bool) : Nat :=
  match mode with
  | .rne => f.infBits neg
  | .rtz => f.maxBits neg
  | .rdn => if neg then f.infBits neg else f.maxBits neg
  | .rup => if neg then f.maxBits neg else f.infBits neg

/-- RoundTo a wide format (R62) of a nonzero magnitude. -/
def roundWideMag (f : FFmt) (mode : RMode) (neg : Bool) (m : Nat) (e : Int) (sticky : Bool) : Nat × FFlags :=
  let r := roundMag f mode neg m e sticky
  if r.tooLarge then (overflowBits f mode neg, fOF ||| fNX)
  else (f.encodeAt neg r.m r.q, fIf r.inexact fNX ||| fIf (r.tiny && r.inexact) fUF)

/-- RoundTo a wide format of any value; a NaN gives the default NaN (R55). -/
def roundWide (f : FFmt) (mode : RMode) (v : FVal) : Nat × FFlags :=
  match v with
  | .nan => (f.nanBits, 0)
  | .inf n => (f.infBits n, 0)
  | .fin n m e => if m = 0 then (f.signBit n, 0) else roundWideMag f mode n m e false

/-! ### Exact arithmetic -/

/-- An integer times a power of two, as a value with the given sign when it is zero. -/
def ofDyadic (i : Int) (e : Int) (zeroNeg : Bool) : FVal :=
  if i = 0 then .fin zeroNeg 0 e else .fin (decide (i < 0)) i.natAbs e

/-- The exact sum of two dyadic numbers. -/
def addDy (a : Int × Int) (b : Int × Int) : Int × Int :=
  let e := min a.2 b.2
  (a.1 * 2 ^ (a.2 - e).toNat + b.1 * 2 ^ (b.2 - e).toNat, e)

def FVal.dy (v : FVal) : Int × Int := (v.int, v.exp)

/-- The sign of an exact zero sum (R56). -/
def zeroSumNeg (mode : RMode) (allNegZero : Bool) : Bool := mode == .rdn || allNegZero

def negZero (v : FVal) : Bool := v.isZero && v.neg?

/-- The exact product (R56): none for an invalid one. -/
def mulF (a b : FVal) : FVal :=
  match a, b with
  | .nan, _ | _, .nan => .nan
  | .inf n, x | x, .inf n => if x.isZero then .nan else .inf (n != x.neg?)
  | .fin n m e, .fin n' m' e' => .fin (n != n') (m * m') (e + e')

/-- The exact sum (R56). -/
def addF (mode : RMode) (a b : FVal) : FVal :=
  match a, b with
  | .nan, _ | _, .nan => .nan
  | .inf n, .inf n' => if n = n' then .inf n else .nan
  | .inf n, _ | _, .inf n => .inf n
  | x, y => let d := addDy x.dy y.dy
    ofDyadic d.1 d.2 (zeroSumNeg mode (negZero x && negZero y))

/-- NV is raised when a result is NaN and no input was (R55). -/
def nvIf (inputs : List FVal) (r : FVal) : FFlags := fIf (r.isNan && inputs.all fun v => !v.isNan) fNV

/-- Integer square root of n by bits, from 2^k down. -/
def isqrtFrom (n : Nat) : Nat → Nat → Nat
  | 0, r => r
  | k + 1, r =>
    let t := r + 2 ^ k
    isqrtFrom n k (if t * t ≤ n then t else r)
def isqrt (n : Nat) : Nat := isqrtFrom n (Nat.log2 n / 2 + 1) 0

/-- A quotient of magnitudes, with 80 bits and a sticky bit, rounded once. -/
def divMag (f : FFmt) (mode : RMode) (neg : Bool) (m : Nat) (e : Int) (m' : Nat) (e' : Int) : Nat × FFlags :=
  let n := m * 2 ^ 80
  roundWideMag f mode neg (n / m') (e - e' - 80) (n % m' != 0)

/-- A square root of a magnitude, rounded once. -/
def sqrtMag (f : FFmt) (mode : RMode) (m : Nat) (e : Int) : Nat × FFlags :=
  let sh : Nat := if e % 2 = 0 then 80 else 81
  let n := m * 2 ^ sh
  let r := isqrt n
  roundWideMag f mode false r ((e - sh) / 2) (r * r != n)

/-! ### Comparisons -/

/-- The order of two values that are not NaNs: a < b. Zeros are equal. -/
def ltF (a b : FVal) : Bool :=
  match a, b with
  | .inf n, y => n && !(match y with | .inf true => true | _ => false)
  | _, .inf n => !n
  | x, y => let d := addDy x.dy y.negate.dy
    decide (d.1 < 0)
def eqF (a b : FVal) : Bool :=
  match a, b with
  | .nan, _ | _, .nan => false
  | .inf n, .inf n' => n == n'
  | .inf _, _ | _, .inf _ => false
  | x, y => (addDy x.dy y.negate.dy).1 == 0

/-! ### Rounding to integers -/

/-- The exact dyadic number rounded to an integer, and whether it is inexact. -/
def roundInt (mode : RMode) (v : Int × Int) : Int × Bool :=
  let r := roundAt mode (decide (v.1 < 0)) v.1.natAbs v.2 0 false
  (if v.1 < 0 then -(r.1 : Int) else r.1, r.2)

def clampInt (lo hi x : Int) : Int := if x < lo then lo else if hi < x then hi else x
/-- The bits of an integer in w bits of two's complement. -/
def intBits (w : Nat) (x : Int) : Nat := (x % 2 ^ w).toNat

/-- The range of an integer format (R51, TERN included). -/
def intRange (code : Nat) : Int × Int :=
  match code with
  | 1 => (-128, 127) | 2 => (0, 255) | 3 => (-8, 7) | 4 => (-1, 1) | 5 => (-32768, 32767) | _ => (-2147483648, 2147483647)

/-- FP32, FP16 or BF16 to INT32 or INT16 (R64). -/
def floatToInt (mode : RMode) (lo hi : Int) (w : Nat) (v : FVal) : Nat × FFlags :=
  match v with
  | .nan => (0, fNV)
  | .inf n => (intBits w (if n then lo else hi), fNV)
  | x => let r := roundInt mode x.dy
    if r.1 < lo ∨ hi < r.1 then (intBits w (clampInt lo hi r.1), fNV) else (intBits w r.1, fIf r.2 fNX)

/-- A narrowing among integer formats (R69). -/
def satInt (code : Nat) (x : Int) : Nat × FFlags :=
  let g := intRange code
  (intBits (elemWidth code) (clampInt g.1 g.2 x), fIf (decide (x < g.1) || decide (g.2 < x)) fOF)

/-- The value of an integer-format code, with NV for the reserved TERN code (R51, R54). -/
def intValue (code x : Nat) : Int × FFlags :=
  match code with
  | 2 => ((x % 256 : Nat), 0)
  | 4 => if x % 4 = 1 then (1, 0) else if x % 4 = 3 then (-1, 0) else if x % 4 = 2 then (0, fNV) else (0, 0)
  | c => (sx x (elemWidth c), 0)

/-- The value of a narrow or wide element code, without its block scale (R51, R53, R54). -/
def elemValue (code x : Nat) : FVal × FFlags :=
  let c := elemCode code
  match floatFmt c with
  | some f => (decodeF f x, 0)
  | none =>
    let v := intValue c x
    (ofDyadic v.1 (if code = 20 then -6 else 0) false, v.2)

/-- The value of an element under a scale byte (R53): 0xFF is a NaN. -/
def scaleValue (scale : Nat) (v : FVal) : FVal :=
  if scale = 0xFF then .nan else
  match v with
  | .fin n m e => .fin n m (e + scale - 127)
  | x => x

/-! ### The final rounding to 8 bits or fewer (R65 to R68) -/

/-- A finite exact value to an unscaled narrow format (R65), RNE. sat is the saturating form of E5M2. -/
def narrowFin (code : Nat) (sat : Bool) (v : Int × Int) : Nat × FFlags :=
  match floatFmt code with
  | some f =>
    if v.1 = 0 then (0, 0) else
    let neg := decide (v.1 < 0)
    let r := roundMag f .rne neg v.1.natAbs v.2 false
    if r.tooLarge then (if code = 11 ∧ !sat then f.infBits neg else f.maxBits neg, fOF ||| fNX)
    else (f.encodeAt neg r.m r.q, fIf r.inexact fNX ||| fIf (r.tiny && r.inexact) fUF)
  | none =>
    let g := intRange code
    let r := roundInt .rne v
    if r.1 < g.1 ∨ g.2 < r.1 then (intBits (elemWidth code) (clampInt g.1 g.2 r.1), fOF ||| fNX)
    else (intBits (elemWidth code) r.1, fIf r.2 fNX)

/-- The NaN column of R65. -/
def narrowNan (code : Nat) : Nat × FFlags :=
  match code with | 10 => (0x7F, 0) | 11 => (0x7E, 0) | _ => (0, fNV)

/-- An element of an MX or scaled-TERN block: x * 2^(-E) rounded to the element, clamped without OF (R66, R68). The last
component says whether it was clamped. -/
def narrowElem (code : Nat) (ex : Int) (v : Int × Int) : Nat × FFlags × Bool :=
  if v.1 = 0 then (0, 0, false) else
  match floatFmt (elemCode code) with
  | some f =>
    let neg := decide (v.1 < 0)
    let r := roundMag f .rne neg v.1.natAbs (v.2 - ex) false
    if r.tooLarge then (f.maxBits neg, fNX, true)
    else (f.encodeAt neg r.m r.q, fIf r.inexact fNX ||| fIf (r.tiny && r.inexact) fUF, false)
  | none =>
    let g := intRange (elemCode code)
    let r := roundInt .rne (v.1, v.2 - ex + (if code = 20 then 6 else 0))
    if r.1 < g.1 ∨ g.2 < r.1 then (intBits (elemWidth code) (clampInt g.1 g.2 r.1), fNX, true)
    else (intBits (elemWidth code) r.1, fIf r.2 fNX, false)

/-- The largest exponent Floor(Log2 |x|) in a block, none when every element is zero. -/
def maxExpOf (l : List (Int × Int)) : Option Int :=
  l.foldl (fun (acc : Option Int) (v : Int × Int) => if v.1 = 0 then acc else
    let ex := leadExp v.1.natAbs v.2
    match acc with | none => some ex | some a => some (max a ex)) (none : Option Int)

/-- One finite block to an MX or scaled-TERN format: the codes, the scale byte and the flags (R66, R68, R86). DEDUCED (log entry 77): a block
whose exponent is capped raises OF when an element of it is clamped. -/
def narrowBlock (code : Nat) (l : List (Int × Int)) : List Nat × Nat × FFlags :=
  let raw : Int := match maxExpOf l with | none => -127 | some a => a - emaxOf code
  let capped := decide (127 < raw)
  let ex := clampInt (-127) 127 raw
  let rs := l.map (narrowElem code ex)
  (rs.map (·.1), (ex + 127).toNat,
   rs.foldl (fun f r => f ||| r.2.1 ||| fIf (capped && r.2.2) fOF) 0)

/-- Rounding of FP32, FP16 and BF16 among themselves: R62. -/
def wideFmt (code : Nat) : FFmt := if code = 8 then fp16 else if code = 9 then bf16 else fp32

end Sys2Proof.Machine
end

