-- ==== Sys2Proof/Machine/Rotation.lean ====
section
/-! DEFINITION. The signed block Hadamard rotation on integers (R76 to R91), and the narrowing and widening of whole
blocks that it belongs to. -/

namespace Sys2Proof.Machine

/-- The rotation length of a block code (R77). -/
def rotLen (blk : Nat) : Nat := match blk with | 1 => 16 | 2 => 64 | 3 => 256 | _ => 0

/-- One step of the sign stream (R81). -/
def signStep (z : BitVec 32) : BitVec 32 :=
  let a := z ^^^ (z <<< 13)
  let b := a ^^^ (a >>> 17)
  b ^^^ (b <<< 5)
def signStart (seed : BitVec 32) : BitVec 32 :=
  let z := seed ^^^ 0x9E3779B9
  if z = 0 then 1 else z
/-- The first n words of the sign stream after z. -/
def signWords (z : BitVec 32) : Nat → List (BitVec 32)
  | 0 => []
  | n + 1 => signStep z :: signWords (signStep z) n
/-- The sign bits of the n elements of a block (R81). -/
def signBits (seed : BitVec 32) (n : Nat) : List Bool :=
  ((signWords (signStart seed) (max 1 ((n + 31) / 32))).flatMap fun w => (List.range 32).map w.getLsbD).take n

/-- Sums and differences of the two halves of each pair of runs of length 2^t: one butterfly stage at distance half. -/
def addL (a b : List Int) : List Int := (a.zip b).map fun p => p.1 + p.2
def subL (a b : List Int) : List Int := (a.zip b).map fun p => p.1 - p.2

/-- H_n applied to a list of n = 2^t integers, in natural index order (R82): the recursion of the Sylvester matrix. -/
def hadamard : Nat → List Int → List Int
  | 0, l => l
  | t + 1, l =>
    let h := 2 ^ t
    let a := hadamard t (l.take h)
    let b := hadamard t (l.drop h)
    addL a b ++ subL a b

/-- The alignment step of R83: integers at 2^(e - 21), and whether any is inexact. -/
def alignBlock (ex : Int) (l : List (Int × Int)) : List Int × Bool :=
  let rs := l.map fun v =>
    let r := roundAt .rne (decide (v.1 < 0)) v.1.natAbs v.2 (ex - 21) false
    (if v.1 < 0 then -(r.1 : Int) else (r.1 : Int), r.2)
  (rs.map (·.1), rs.any (·.2))

def applySigns (sg : List Bool) (l : List Int) : List Int := (sg.zip l).map fun p => if p.1 then -p.2 else p.2

/-- log2 of n / 2: the normalising shift k (R83). -/
def rotShift (n : Nat) : Nat := Nat.log2 n / 2

/-- Rotate a finite block (R83, R84): the exact values and whether the alignment was inexact. -/
def rotateFin (seed : BitVec 32) (n : Nat) (l : List (Int × Int)) : List (Int × Int) × Bool :=
  match maxExpOf l with
  | none => (l.map fun _ => (0, 0), false)
  | some ex =>
    let a := alignBlock ex l
    let y := hadamard (Nat.log2 n) (applySigns (signBits seed n) a.1)
    (y.map fun v => (v, ex - 21 - rotShift n), a.2)

/-- Unrotate a finite block (R87). -/
def unrotateFin (seed : BitVec 32) (n : Nat) (l : List (Int × Int)) : List (Int × Int) × Bool :=
  match maxExpOf l with
  | none => (l.map fun _ => (0, 0), false)
  | some ex =>
    let a := alignBlock ex l
    let y := applySigns (signBits seed n) (hadamard (Nat.log2 n) a.1)
    (y.map fun v => (v, ex - 21 - rotShift n), a.2)

/-- The rotated values of one rotation block; none when it holds a NaN or an infinity (R84). -/
def rotateBlock (seed : BitVec 32) (n : Nat) (l : List FVal) : Option (List (Int × Int)) × FFlags :=
  if l.all FVal.isFin then
    let r := rotateFin seed n (l.map FVal.dy)
    (some r.1, fIf r.2 fNX)
  else (none, 0)

/-- Cut a list into runs of n. -/
def chunksOf {α : Type} (n : Nat) : Nat → List α → List (List α)
  | 0, _ => []
  | k + 1, l => if l.isEmpty then [] else l.take n :: chunksOf n k (l.drop n)

/-- Rotate the wide values of a run of elements, block by block: each element's exact value, or none where its rotation
block holds a NaN or an infinity. -/
def rotateRun (seed : BitVec 32) (n : Nat) (l : List FVal) : List (Option (Int × Int)) × FFlags :=
  let rs := (chunksOf n l.length l).map fun b =>
    let r := rotateBlock seed n b
    (match r.1 with | some y => y.map some | none => b.map fun _ => none, r.2)
  (rs.flatMap (·.1), rs.foldl (fun f r => f ||| r.2) 0)

/-- What a narrowing of a run gives: the element codes, the scale bytes and the flags. -/
structure Narrowed where
  codes : List Nat
  scales : List Nat
  flags : FFlags
  deriving DecidableEq, Repr

/-- The final rounding of a run of rotated elements to an unscaled format (R65, R84). -/
def finalUnscaled (code : Nat) (sat : Bool) (l : List (Option (Int × Int))) : Narrowed :=
  let rs := l.map fun v => match v with
    | some y => narrowFin code sat y
    | none => let r := narrowNan code; (r.1, r.2 ||| fNV)
  { codes := rs.map (·.1), scales := [], flags := rs.foldl (fun f r => f ||| r.2) 0 }

/-- The final rounding of a run to an MX or scaled-TERN format with blocks of b elements (R66 to R68, R84). -/
def finalScaled (code b : Nat) (l : List (Option (Int × Int))) : Narrowed :=
  let rs := (chunksOf b l.length l).map fun blk =>
    if blk.all Option.isSome then narrowBlock code (blk.map fun v => v.getD (0, 0))
    else (blk.map fun _ => 0, 0xFF, fNV)
  { codes := rs.flatMap (·.1), scales := rs.map (·.2.1), flags := rs.foldl (fun f r => f ||| r.2.2) 0 }

/-- Narrow a run of wide values: rotation, then the final rounding (R76, R85). -/
def narrowRun (code b : Nat) (sat : Bool) (seed : BitVec 32) (n : Nat) (l : List FVal) : Narrowed :=
  let r := rotateRun seed n l
  let f := if isMx code then finalScaled code b r.1 else finalUnscaled code sat r.1
  { f with flags := f.flags ||| r.2 }

/-- The exact values of narrow elements with their scales (R53, R63). DEDUCED (log entry 75): a TERN code 10 raises NV (R54) also in a block
whose scale is 0xFF, which itself raises no flag. -/
def decodeRun (code b : Nat) (codes scales : List Nat) : List (FVal × FFlags) :=
  codes.mapIdx fun i x =>
    let v := elemValue code x
    if isMx code then (scaleValue (scales.getD (i / b) 0) v.1, v.2) else v

/-- Widen without the inverse (R63): each value rounds once. -/
def widenRun (f : FFmt) (mode : RMode) (l : List (FVal × FFlags)) : List (Nat × FFlags) :=
  l.map fun v => let r := roundWide f mode v.1; (r.1, r.2 ||| v.2)

/-- Unrotate one block of values and round into the wide destination (R87). -/
def unrotateBlock (f : FFmt) (mode : RMode) (seed : BitVec 32) (n : Nat) (l : List FVal) : List Nat × FFlags :=
  if l.all FVal.isFin then
    let r := unrotateFin seed n (l.map FVal.dy)
    let ys := r.1.map fun y => roundWide f mode (ofDyadic y.1 y.2 false)
    (ys.map (·.1), ys.foldl (fun g y => g ||| y.2) (fIf r.2 fNX))
  else (l.map fun _ => f.nanBits, fIf (l.all fun v => !v.isNan) fNV)

def unrotateRun (f : FFmt) (mode : RMode) (seed : BitVec 32) (n : Nat) (l : List FVal) : List Nat × FFlags :=
  let rs := (chunksOf n l.length l).map (unrotateBlock f mode seed n)
  (rs.flatMap (·.1), rs.foldl (fun g r => g ||| r.2) 0)

/-- Rotate one block within a wide format (VHAD, R156): a NaN or an infinity makes every element the default NaN. -/
def rotateWide (f : FFmt) (mode : RMode) (seed : BitVec 32) (n : Nat) (l : List FVal) : List Nat × FFlags :=
  if l.all FVal.isFin then
    let r := rotateFin seed n (l.map FVal.dy)
    let ys := r.1.map fun y => roundWide f mode (ofDyadic y.1 y.2 false)
    (ys.map (·.1), ys.foldl (fun g y => g ||| y.2) (fIf r.2 fNX))
  else (l.map fun _ => f.nanBits, fIf (l.all fun v => !v.isNan) fNV)

/-! ### Tags (R90, R91) -/

def tagOf (blk axis seed : Nat) : Nat := blk * 2 ^ 34 + axis * 2 ^ 32 + seed % 2 ^ 32
def tagBlk (t : Nat) : Nat := t / 2 ^ 34 % 4
def tagAxis (t : Nat) : Nat := t / 2 ^ 32 % 4
def tagSeed (t : Nat) : Nat := t % 2 ^ 32
/-- A tag that R91 admits, leaving out the conditions on a shape record's axis. -/
def tagOk (t : Nat) : Bool := tagBlk t != 0 || t % 2 ^ 34 == 0

end Sys2Proof.Machine
end

