-- ==== Sys2Proof/Machine/Crypto.lean ====
section
/-! DEFINITION. The named algorithms that the spec takes from their standards (R379, R384 to R387; log entry 17): SHAKE256 and
KMAC256, AES-256-XTS, and X448. -/

namespace Sys2Proof.Machine

/-! ### Keccak, SHAKE256 and KMAC256 (FIPS 202, SP 800-185) -/

/-- The 25 lanes of a state: lane (x, y) is number x + 5 y, both taken modulo 5. -/
abbrev Lanes := Vector (BitVec 64) 25
def laneOf (a : Lanes) (x y : Nat) : BitVec 64 := a.toList.getD (x % 5 + 5 * (y % 5)) 0
def byLane (f : Nat → Nat → BitVec 64) : Lanes := Vector.ofFn fun i => f (i.val % 5) (i.val / 5)

/-- The register of the step rc after t of its steps: its bits move up, and the one that leaves comes back in at 0, 4, 5 and 6. -/
def rcRegister : Nat → Nat
  | 0 => 1
  | t + 1 => let r := 2 * rcRegister t; if r < 256 then r else r ^^^ 0x171
/-- The constant of round i: bit 2^j - 1 of it is the low bit of the register after 7 i + j steps. -/
def roundConst (i : Nat) : BitVec 64 :=
  w64 (((List.range 7).map fun j => rcRegister (7 * i + j) % 2 * 2 ^ (2 ^ j - 1)).sum)

/-- The walk of the step rho from lane (x, y) on: step t turns its lane by (t + 1)(t + 2) / 2 and goes on to (y, 2 x + 3 y). -/
def rhoWalk : Nat → Nat → Nat → Nat → List ((Nat × Nat) × Nat)
  | 0, _, _, _ => []
  | n + 1, t, x, y => ((x, y), (t + 1) * (t + 2) / 2 % 64) :: rhoWalk n (t + 1) y ((2 * x + 3 * y) % 5)
/-- How far the step rho turns lane (x, y); the walk leaves lane (0, 0) out. -/
def rhoTurn (x y : Nat) : Nat := match (rhoWalk 24 0 1 0).find? (·.1 == (x, y)) with | some q => q.2 | none => 0

/-- The parity of the column x. -/
def parityOf (a : Lanes) (x : Nat) : BitVec 64 := ((List.range 5).map (laneOf a x)).foldl (· ^^^ ·) 0
def stepTheta (a : Lanes) : Lanes := byLane fun x y => laneOf a x y ^^^ parityOf a (x + 4) ^^^ (parityOf a (x + 1)).rotateLeft 1
def stepRho (a : Lanes) : Lanes := byLane fun x y => (laneOf a x y).rotateLeft (rhoTurn x y)
def stepPi (a : Lanes) : Lanes := byLane fun x y => laneOf a (x + 3 * y) x
def stepChi (a : Lanes) : Lanes := byLane fun x y => laneOf a x y ^^^ (~~~laneOf a (x + 1) y &&& laneOf a (x + 2) y)
def stepIota (i : Nat) (a : Lanes) : Lanes := a.set 0 (a[0] ^^^ roundConst i)

/-- The permutation of 24 rounds. -/
def keccakF (a : Lanes) : Lanes :=
  (List.range 24).foldl (fun l i => stepIota i (stepChi (stepPi (stepRho (stepTheta l))))) a

/-- The rate of the 256-bit strength, in bytes. -/
def rate : Nat := 136

/-- A block of the rate goes into the first lanes, and the state is permuted. -/
def absorbBlock (a : Lanes) (blk : List Byte) : Lanes :=
  let n := leNat blk
  keccakF (Vector.ofFn fun i : Fin 25 => a[i] ^^^ BitVec.ofNat 64 (n / 2 ^ (64 * i.val)))
def stateBytes (a : Lanes) : List Byte := a.toList.flatMap fun v => leBytes 8 v.toNat

/-- Pad with a suffix byte and the final bit. -/
def padded (suffix : Byte) (l : List Byte) : List Byte :=
  let n := rate - 1 - l.length % rate
  if n = 0 then l ++ [suffix ||| 0x80] else l ++ [suffix] ++ List.replicate (n - 1) 0 ++ [0x80]

/-- At most k blocks of the rate come out, n bytes in all. -/
def squeeze : Nat → Lanes → Nat → List Byte
  | 0, _, _ => []
  | k + 1, a, n => ((stateBytes a).take rate).take n ++ (if rate < n then squeeze k (keccakF a) (n - rate) else [])

def sponge (suffix : Byte) (l : List Byte) (n : Nat) : List Byte :=
  let m := padded suffix l
  squeeze (n / rate + 1) ((chunksOf rate m.length m).foldl absorbBlock (Vector.replicate 25 0)) n

/-- SHAKE256 with n bytes of output. -/
def shake256 (l : List Byte) (n : Nat) : List Byte := sponge 0x1F l n

/-- The big-endian bytes of a number, at least one. -/
def bigEndian (n : Nat) : List Byte :=
  (leBytes (Nat.log2 n / 8 + 1) n).reverse
def leftEncode (n : Nat) : List Byte := BitVec.ofNat 8 (bigEndian n).length :: bigEndian n
def rightEncode (n : Nat) : List Byte := bigEndian n ++ [BitVec.ofNat 8 (bigEndian n).length]
def encodeString (l : List Byte) : List Byte := leftEncode (8 * l.length) ++ l
def bytePad (l : List Byte) : List Byte :=
  let x := leftEncode rate ++ l
  x ++ List.replicate ((rate - x.length % rate) % rate) 0

/-- The bytes of an ASCII string. -/
def ascii (t : String) : List Byte := t.toList.map fun c => BitVec.ofNat 8 c.toNat

/-- KMAC256 with n bytes of output (R379). -/
def kmac256 (key x : List Byte) (n : Nat) (t : String) : List Byte :=
  sponge 0x04 (bytePad (encodeString (ascii "KMAC") ++ encodeString (ascii t)) ++ bytePad (encodeString key) ++ x ++
    rightEncode (8 * n)) n

/-! ### AES-256 and XTS (FIPS 197, IEEE 1619) -/

/-- The product in the field of AES. -/
def gmul (a b : Nat) : Nat :=
  ((List.range 8).foldl (fun (acc : Nat × Nat) i =>
    (if b / 2 ^ i % 2 = 1 then acc.1 ^^^ acc.2 else acc.1, if 128 ≤ acc.2 then (acc.2 * 2) % 256 ^^^ 0x1B else acc.2 * 2))
    (0, a)).1
/-- The inverse, a^254; 0 for 0. -/
def ginv (a : Nat) : Nat :=
  let a2 := gmul a a
  let a4 := gmul a2 a2
  let a8 := gmul a4 a4
  let a16 := gmul a8 a8
  let a32 := gmul a16 a16
  let a64 := gmul a32 a32
  gmul (gmul (gmul a2 a4) (gmul a8 a16)) (gmul (gmul a32 a64) (gmul a64 a64))
def sbox (a : Nat) : Nat :=
  let b : BitVec 8 := BitVec.ofNat 8 (ginv a)
  (b ^^^ b.rotateLeft 1 ^^^ b.rotateLeft 2 ^^^ b.rotateLeft 3 ^^^ b.rotateLeft 4 ^^^ 0x63).toNat

def xorL (a b : List Nat) : List Nat := (a.zip b).map fun p => p.1 ^^^ p.2

/-- The next word of the key schedule; ws is newest first. -/
def nextKeyWord (ws : List (List Nat)) : List Nat :=
  let i := ws.length
  let prev := ws.getD 0 []
  let t := if i % 8 = 0 then
      (let r := (prev.drop 1 ++ prev.take 1).map sbox
       let rcon := (List.range (i / 8 - 1)).foldl (fun v _ => gmul v 2) 1
       match r with | x :: l => (x ^^^ rcon) :: l | [] => [])
    else if i % 8 = 4 then prev.map sbox else prev
  xorL t (ws.getD 7 [])
/-- The 15 round keys of 16 bytes. -/
def roundKeys (key : List Nat) : List (List Nat) :=
  let w0 := ((List.range 8).map fun i => (key.drop (4 * i)).take 4).reverse
  let ws := ((List.range 52).foldl (fun l _ => nextKeyWord l :: l) w0).reverse
  (List.range 15).map fun r => ((ws.drop (4 * r)).take 4).flatten

/-- Byte r + 4 c of the state after ShiftRows. -/
def shiftRows (a : List Nat) : List Nat := (List.range 16).map fun i => a.getD ((i + 4 * (i % 4)) % 16) 0
def mixColumn (c : List Nat) : List Nat :=
  (List.range 4).map fun i => gmul (c.getD i 0) 2 ^^^ gmul (c.getD ((i + 1) % 4) 0) 3 ^^^ c.getD ((i + 2) % 4) 0 ^^^ c.getD ((i + 3) % 4) 0
def mixColumns (a : List Nat) : List Nat := (List.range 4).flatMap fun c => mixColumn ((a.drop (4 * c)).take 4)

/-- One block under the round keys of an expanded key. -/
def aesBlock (ks : List (List Nat)) (blk : List Nat) : List Nat :=
  let mid := ((ks.drop 1).take 13).foldl (fun a k => xorL (mixColumns (shiftRows (a.map sbox))) k) (xorL blk (ks.getD 0 []))
  xorL (shiftRows (mid.map sbox)) (ks.getD 14 [])

/-- Multiply a tweak by the primitive element. -/
def doubleTweak (t : Nat) : Nat := (t * 2) % 2 ^ 128 ^^^ (if 2 ^ 127 ≤ t then 0x87 else 0)

/-- The blocks of one data unit from a tweak on. -/
def xtsBlocks (ks : List (List Nat)) : List (List Byte) → Nat → List Byte
  | [], _ => []
  | b :: rest, t =>
    let tw := (leBytes 16 t).map (·.toNat)
    (xorL (aesBlock ks (xorL (b.map (·.toNat)) tw)) tw).map (BitVec.ofNat 8) ++ xtsBlocks ks rest (doubleTweak t)

/-- AES-256-XTS encryption of one data unit, a whole number of blocks, under 64 key bytes and a 128-bit tweak. -/
def xtsEncrypt (key : List Byte) (tweak : Nat) (l : List Byte) : List Byte :=
  let k := key.map (·.toNat)
  let t := aesBlock (roundKeys ((k.drop 32).take 32)) ((leBytes 16 tweak).map (·.toNat))
  xtsBlocks (roundKeys (k.take 32)) (chunksOf 16 l.length l) (leNat (t.map (BitVec.ofNat 8)))

/-! ### X448 (RFC 7748) -/

def p448 : Nat := 2 ^ 448 - 2 ^ 224 - 1

def powMod (b : Nat) (m : Nat) : Nat → Nat → Nat
  | 0, _ => 1
  | n + 1, e => let h := powMod b m n (e / 2); if e % 2 = 1 then h * h % m * b % m else h * h % m

/-- One step of the ladder, for a bit of the scalar. -/
def ladderStep (u : Nat) (st : Nat × Nat × Nat × Nat) (bit : Bool) : Nat × Nat × Nat × Nat :=
  let p := p448
  let (x2, z2, x3, z3) := if bit then (st.2.2.1, st.2.2.2, st.1, st.2.1) else st
  let a := (x2 + z2) % p
  let aa := a * a % p
  let b := (x2 + p - z2) % p
  let bb := b * b % p
  let e := (aa + p - bb) % p
  let da := ((x3 + p - z3) % p) * a % p
  let cb := ((x3 + z3) % p) * b % p
  let y3 := (da + cb) % p * ((da + cb) % p) % p
  let d := (da + p - cb) % p
  let r := (aa * bb % p, e * ((aa + 39081 * e) % p) % p, y3, u * (d * d % p) % p)
  if bit then (r.2.2.1, r.2.2.2, r.1, r.2.1) else r

/-- X448 of a scalar and a u-coordinate, both 56 bytes as numbers. -/
def x448 (k u : Nat) : Nat :=
  let s := k / 4 * 4 % 2 ^ 447 + 2 ^ 447
  let r := (List.range 448).foldl (fun st i => ladderStep (u % p448) st ((s / 2 ^ (447 - i)) % 2 == 1)) (1, 0, u % p448, 1)
  r.1 * powMod r.2.1 p448 448 (p448 - 2) % p448

end Sys2Proof.Machine
end

