-- ==== Sys2Proof/Machine/Seal.lean ====
section
/-! DEFINITION. Device memory by its ranges (R346), page metadata and its blocks (R381), and what sealed lines look like outside the
clusters (R377 to R382). -/

namespace Sys2Proof.Machine

/-- The first address of the management window (R346). -/
def windowBase : Nat := 0xF00000000000
def isWindow (a : Nat) : Bool := decide (windowBase ≤ a) && decide (a < windowBase + 0x10000)
/-- An address of device memory that R346 assigns. -/
def isDpa (a : Nat) : Bool :=
  decide (a < 0x10000000000) || (decide (0x10000000000 ≤ a) && decide (a < 0x50000000000)) ||
  (decide (0x80000000000 ≤ a) && decide (a < 0x100000000000)) || isWindow a
def isDm (a : Nat) : Bool := decide (a < 2 ^ 48) && !isWindow a
def isHost (a : Nat) : Bool := decide (2 ^ 60 ≤ a) && decide (a < 2 ^ 61)

/-! ### Metadata blocks (R381) -/

/-- The memory range of R346 that an address lies in: its base and its size. -/
def rangeOf (a : Nat) : Nat × Nat :=
  if a < 2 ^ 40 then (0, 2 ^ 40) else if a < 5 * 2 ^ 40 then (2 ^ 40, 2 ^ 42) else (2 ^ 43, 2 ^ 43)
/-- The metadata region of a range: its top 1/64. -/
def metaBase (a : Nat) : Nat := (rangeOf a).1 + (rangeOf a).2 - (rangeOf a).2 / 64
def isMetadata (a : Nat) : Bool := decide (metaBase a ≤ a) && decide (a < 2 ^ 44)

/-- The address of the block of a page's address, and the page of a block's address. DESIGN CHOICE (log entry 2): the blocks of a range lie
in the order of its pages. -/
def blockAddr (a : Nat) : Nat := metaBase a + (a - (rangeOf a).1) / 4096 * 64
def metaPage (a : Nat) : Nat := (rangeOf a).1 + (a - metaBase a) / 64 * 4096

/-- The metadata of the page of a device address. -/
def pageAt (s : State) (a : Nat) : PageMeta := lookupD s.pages (a / 4096) PageMeta.reset

/-- Bytes 0 to 47 of a block. -/
def blockHead (m : PageMeta) : List Byte :=
  leBytes 8 m.zero.toNat ++ leBytes 8 m.const.toNat ++ leBytes 4 m.value.toNat ++ leBytes 2 (m.dom % 4096 + flag m.opened * 2 ^ 15) ++
  leBytes 26 0
/-! ### Sealing (R379) -/

def keyBytes (k : BitVec 256) : List Byte := leBytes 32 k.toNat
/-- The key pair of a world key: 64 bytes for XTS, then the tag key. -/
def lineKeys (k : BitVec 256) : List Byte := kmac256 (keyBytes k) [] 96 "LINE"
def xtsKey (k : BitVec 256) : List Byte := (lineKeys k).take 64
def tagKey (k : BitVec 256) : List Byte := (lineKeys k).drop 64
def lineTweak (dom a : Nat) : Nat := a / 64 % 2 ^ 42 + dom % 2 ^ 12 * 2 ^ 42
/-- The ciphertext of a line of a domain, and its 56-bit tag. -/
def cipherLine (k : BitVec 256) (dom a : Nat) (bs : List Byte) : List Byte := xtsEncrypt (xtsKey k) (lineTweak dom a) bs
def lineTag (k : BitVec 256) (dom a : Nat) (c : List Byte) : List Byte := kmac256 (tagKey k) (leBytes 8 a ++ leBytes 8 dom ++ c) 7 "LTAG"
/-- The MAC of the block of the page at an address; an open page has none. -/
def pageMac (page : Nat) (m : PageMeta) : List Byte :=
  match m.opened, m.key with
  | false, some k => kmac256 (tagKey k) (leBytes 8 page ++ blockHead m) 16 "PMAC"
  | _, _ => leBytes 16 0
/-- The 64 bytes of the block of the page at an address. -/
def blockBytes (page : Nat) (m : PageMeta) : List Byte := blockHead m ++ pageMac page m

/-- What an LLC slice, a home directory, memory and a link hold of a line: of an open page its bytes in clear, with no tag and no domain; of
a sealed page its ciphertext, its tag and its domain (R377, R379). -/
structure LineImage where
  bytes : List Byte
  tag : Option (List Byte)
  dom : Option Nat
  deriving DecidableEq, Repr

def lineImage (s : State) (a : Nat) : LineImage :=
  let line := a / 64 * 64
  let bs := memReadBytes s.mem line 64
  let m := pageAt s line
  match m.opened, m.key with
  | false, some k =>
    let c := cipherLine k m.dom line bs
    { bytes := c, tag := some (lineTag k m.dom line c), dom := some m.dom }
  | _, _ => { bytes := bs, tag := none, dom := none }

/-- A line of a page is elided (R382). -/
def elidedLine (m : PageMeta) (a : Nat) : Bool := (m.zero ||| m.const).getLsbD (a % 4096 / 64)

/-- The block of a page lets a line of it be read (R381, R382). The device alone writes blocks, each with its MAC, so a MAC fails only when
the block's own line is poisoned: then an elided line, which is served from the block, and every line of a sealed page are. -/
def blockOk (s : State) (a : Nat) (m : PageMeta) : Bool :=
  (m.opened && !elidedLine m a) || !s.poison.contains (blockAddr a)

/-- The elision state after a write that leaves a line holding these bytes (R382). -/
def elideMeta (m : PageMeta) (line : Nat) (bs : List Byte) : PageMeta :=
  let first := leNat (bs.take 4)
  let same := (List.range 16).all fun j => leNat ((bs.drop (4 * j)).take 4) == first
  let bit : BitVec 64 := 1#64 <<< (line % 4096 / 64)
  if bs.all (· == 0) then { m with zero := m.zero ||| bit, const := m.const &&& ~~~bit }
  else if same && (m.const == 0 || m.value == BitVec.ofNat 32 first) then
    { m with value := BitVec.ofNat 32 first, const := m.const ||| bit, zero := m.zero &&& ~~~bit }
  else { m with zero := m.zero &&& ~~~bit, const := m.const &&& ~~~bit }

/-- A page scrubbed to a domain: every line elided as zero (R383). -/
def scrubbed (m : PageMeta) (dom : Nat) (key : Option (BitVec 256)) : PageMeta :=
  { m with opened := false, dom := dom, zero := BitVec.allOnes 64, const := 0, key := key }

/-- The metadata of a page after its lines were all written with what memory holds. -/
def writtenPage (s : State) (page : Nat) (m : PageMeta) : PageMeta :=
  (List.range 64).foldl (fun m i => elideMeta m (page + 64 * i) (memReadBytes s.mem (page + 64 * i) 64)) m

end Sys2Proof.Machine
end

