-- ==== Sys2Proof/Machine/Ordering.lean ====
section
/-! DEFINITION. The ordering machine (R243 to R258): points, paths, the conditions of each step, and what a write does
when it reaches its home. -/

namespace Sys2Proof.Machine

def evCovers (e : MemEv) (a : Nat) : Bool := e.addrs.contains a
/-- The byte that an event holds for an address. -/
def evByte (e : MemEv) (a : Nat) : Option Byte := ((e.addrs.zip e.data).find? fun p => p.1 == a).map (·.2)
def evOverlap (e f : MemEv) : Bool := e.addrs.any (evCovers f)

/-- The point at which a write stands; none when it is at home. -/
def evPoint (e : MemEv) : Option Point := e.path.head?

/-- The points a write of a thread passes before the home (R244, R106, R372). -/
def pathOf (s : State) (th : Nat) (ty : Space) (node : Nat) : List Point :=
  if 2 ^ 21 ≤ th then
    let k := (th - 2 ^ 21) / 16
    let p := (partOfCluster s k).getD 64
    match ty with
    | .lm | .sp => []
    | .dm => [.cluster k]
    | .pm => [.cluster k, .partition p, .link node]
    | .hm => [.cluster k, .partition p]
  else if 2 ^ 20 ≤ th then
    match ty with
    | .lm | .sp => []
    | .dm => [.coreBuffer th]
    | .pm => [.coreBuffer th, .link node]
    | .hm => [.coreBuffer th]
  else
    let c := coreOfSlot th
    let p := (partOfCore s c).getD 64
    let up := if isGateway c then [Point.coreBuffer c] else [.coreBuffer c, .cluster (clusterOfCore c)]
    match ty with
    | .lm => []
    | .sp => [.coreBuffer c]
    | .dm => up
    | .pm => up ++ [.partition p, .link node]
    | .hm => up ++ [.partition p]

/-- A write in transit is performed at a scope (R246). -/
def writePerformed (sc : Scope) (w : MemEv) : Bool :=
  match sc with
  | .thread | .core => true
  | .cluster => w.path.all fun p => match p with | .coreBuffer _ => false | _ => true
  | .partition => w.path.all fun p => match p with | .coreBuffer _ | .cluster _ => false | _ => true
  | .system => w.path.isEmpty

def EvKind.reads : EvKind → Bool
  | .read | .atomic _ _ _ => true
  | _ => false
def EvKind.writes : EvKind → Bool
  | .write | .atomic _ _ _ => true
  | _ => false
def EvKind.isFence : EvKind → Bool
  | .fence => true
  | _ => false
def Order.acquires : Order → Bool
  | .acquire | .acqRel => true
  | _ => false
def Order.releases : Order → Bool
  | .release | .acqRel => true
  | _ => false

/-- Events of the same thread that stand before an event in program order. -/
def earlier (l : List MemEv) (e : MemEv) : List MemEv := l.filter fun x => x.thread == e.thread && decide (x.id < e.id)

/-- No earlier acquire read, acquire atomic or fence is unperformed (R247, R249). -/
def noAcquireBefore (s : State) (e : MemEv) : Bool :=
  (earlier s.iq e).all fun x => !(x.kind.isFence || (x.kind.reads && x.order.acquires))

/-- Every earlier event of the thread is performed at a scope. -/
def earlierPerformed (s : State) (e : MemEv) (sc : Scope) : Bool :=
  (earlier s.iq e).isEmpty && (earlier s.transit e).all (writePerformed sc)

def nearSpace (ty : Space) : Bool := ty == .lm || ty == .sp

/-- The conditions of Accept (R247). A write whose bytes the sequencer has not yet produced is not accepted. -/
def acceptOk (s : State) (w : MemEv) : Bool :=
  w.data.length == w.addrs.length &&
  (earlier s.iq w).all (fun x => !x.kind.writes) &&
  noAcquireBefore s w &&
  (earlier s.iq w).all (fun x => !(x.kind.reads && (evOverlap x w || nearSpace w.space))) &&
  (!w.order.releases || earlierPerformed s w w.scope)

/-- The bytes of a live tile's footprint (its length is kept with the tile). -/
def tileHas (t : Tile) (pva : Nat) : Bool := decide (t.base ≤ pva) && decide (pva < t.base + t.ext)

/-- The live tile that a PVA belongs to (R271): a byte of a split tile's child belongs to the child, and a byte between the children
to the innermost of the split tiles (R273). -/
def footprintAt (s : State) (p pva : Nat) : Option (Nat × Tile) :=
  let holds : List (Nat × Tile) := match partAt s p with
    | some x => x.tiles.filterMap fun e => match e.2.tile with
      | some t => if tileHas t pva then some (e.1, t) else none
      | none => none
    | none => []
  let inner := fun (best : Option (Nat × Tile)) (e : Nat × Tile) => match best with
    | some b => if e.2.ext < b.2.ext then some e else best
    | none => some e
  match holds.find? fun e => e.2.state != 2 with
  | some e => some e
  | none => holds.foldl inner none

/-- Two reads of the footprint of one tile. The bytes of an event lie in one page, and so in one tile. -/
def sameTile (s : State) (x r : MemEv) : Bool :=
  match x.footprint, r.footprint with
  | some (p, a :: _), some (q, b :: _) => p == q && (footprintAt s p a).map (·.1) == (footprintAt s q b).map (·.1)
  | _, _ => false
/-- Two raw reads of one footprint (R249). -/
def sameFootprint (s : State) (x r : MemEv) : Bool := x.raw && r.raw && sameTile s x r

/-- The conditions of Bind (R249). -/
def bindOk (s : State) (r : MemEv) : Bool :=
  (earlier s.iq r).all (fun x =>
    !(x.kind.writes && (evOverlap x r || nearSpace r.space)) &&
    !(x.kind.reads && (evOverlap x r || nearSpace r.space || sameFootprint s x r))) &&
  noAcquireBefore s r

/-- The conditions of an atomic step (R250). -/
def atomicOk (s : State) (a : MemEv) : Bool :=
  acceptOk s { a with data := a.addrs.map fun _ => 0 } && bindOk s a && s.transit.all (fun x => !evOverlap x a)

/-- The condition of a fence (R251). -/
def fenceOk (s : State) (f : MemEv) : Bool :=
  match f.order with
  | .acquire => (earlier s.iq f).all fun x => !x.kind.reads
  | _ => earlierPerformed s f f.scope

/-- The status of a window operation for a reader, and the words of the window (R335, R361, R391, R396, R399). -/
def tierWord (p : PartSt) (i : Nat) : Word := p.tier.toList.getD i 0

def logBytes (r : LogRec) : List Byte :=
  leBytes 1 r.kind ++ leBytes 1 r.part ++ leBytes 2 r.number ++ leBytes 4 r.discarded ++ leBytes 8 r.cycle ++ leBytes 16 0

/-- The doubleword at an aligned window offset, as reader who sees it. -/
def windowWord (s : State) (who : Nat) (off : Nat) : Word :=
  if off = 0x300 ∨ off = 0x100 then lookupD s.mod.portStatus who 0
  else if 0x1000 ≤ off ∧ off < 0x3000 then
    match partAt s ((off - 0x1000) / 128) with | some p => tierWord p ((off - 0x1000) % 128 / 8) | none => 0
  else if 0x4000 ≤ off ∧ off < 0x6000 then
    let f := lookupD s.mod.ifaces ((off - 0x4000) / 16) Iface.reset
    if off % 16 = 0 then f.config0 else f.config1
  else if 0x6000 ≤ off ∧ off < 0x6200 then lookupD s.mod.msix ((off - 0x6000) / 8) 0
  else if 0x7000 ≤ off ∧ off < 0x8000 then
    match partAt s ((off - 0x7000) / 64) with
    | some p => w64 (leNat ((p.routes.toList.drop ((off - 0x7000) % 64)).take 8))
    | none => 0
  else if 0x8000 ≤ off ∧ off < 0xC000 then
    match lookup (clusterAt s ((off - 0x8000) / 128)).evcnt (8 + (off - 0x8000) % 128 / 8) with
    | some c => w64 c.value.toNat
    | none => 0
  else if 0xC000 ≤ off ∧ off < 0xCA00 then
    match lookup s.mod.dieCounters ((off - 0xC000) / 8) with | some c => w64 c.value.toNat | none => 0
  else if 0xD000 ≤ off ∧ off < 0xD800 then
    match s.mod.faultLog[(off - 0xD000) / 32]? with
    | some r => w64 (leNat (((logBytes r).drop ((off - 0xD000) % 32)).take 8))
    | none => 0
  else if off = 0xD800 then w64 s.mod.faultCount
  else if off = 0xE000 then
    w64 ((s.clusters.foldl (fun m c => min m c.2.clock) 120) * 2 ^ 24 + s.mod.temp % 256 * 2 ^ 16 + s.mod.power % 65536)
  else if off = 0xE008 then w64 (s.mod.pth % 65536 * 2 ^ 16 + s.mod.tth % 256)
  else 0

def windowByte (s : State) (who : Nat) (a : Nat) : Byte :=
  let off := a - windowBase
  BitVec.ofNat 8 ((windowWord s who (off / 8 * 8)).toNat / 2 ^ (8 * (off % 8)))

/-- The byte at an address's home, as a thread sees it. The metadata region holds the blocks of the pages (R381). -/
def homeByte (s : State) (th : Nat) (a : Nat) : Byte :=
  if isWindow a then windowByte s (if 2 ^ 20 ≤ th ∧ th < 2 ^ 21 then th - 2 ^ 20 + 1 else 0) a
  else if isMetadata a then (blockBytes (metaPage a) (pageAt s (metaPage a))).getD (a % 64) 0
  else memRead s.mem a

/-- The youngest write to a byte among the writes in transit at a point. -/
def pointByte (s : State) (pt : Point) (a : Nat) : Option Byte :=
  s.transit.foldl (fun acc e => if evPoint e == some pt then (match evByte e a with | some b => some b | none => acc)
    else acc) none

/-- A byte as a read of a path takes it: the first of the points that holds a write to it, else the home (R249). -/
def viewByte (s : State) (th : Nat) (path : List Point) (a : Nat) : Byte :=
  match path.findSome? (fun pt => pointByte s pt a) with
  | some b => b
  | none => homeByte s th a

/-- The points of a path at which a read looks: those short of the home. -/
def viewPath (s : State) (th : Nat) (ty : Space) (node : Nat) : List Point :=
  (pathOf s th ty node).filter fun pt => match pt with | .link _ => false | _ => true

/-- The node of a peer address (R349). -/
def nodeOf (a : Nat) : Nat := if 2 ^ 61 ≤ a ∧ a < 2 ^ 62 then (a - 2 ^ 61) / 2 ^ 52 else 0

/-- A byte as a thread reads it now. -/
def threadByte (s : State) (th : Nat) (ty : Space) (a : Nat) : Byte := viewByte s th (viewPath s th ty (nodeOf a)) a
def threadBytes (s : State) (th : Nat) (ty : Space) (l : List Nat) : List Byte := l.map (threadByte s th ty)

/-- The key in the key slot of a world. -/
def worldKey (s : State) (id : Nat) : Option (BitVec 256) := (worldOf s id).key

/-- A device address depends on a part that is out of service (R390): an LLC slice serves granule n / 4, an HBM channel
granule n / 8, an LPDDR6 package its 128 GiB (log entry 15). -/
def depends (kind n a : Nat) : Bool :=
  (match kind with
  | 2 => decide (a < 2 ^ 40) && a / 2 ^ 34 == n / 4 || (decide (2 ^ 40 ≤ a) && decide (a < 5 * 2 ^ 40) && (a - 2 ^ 40) / 2 ^ 36 == n / 4)
  | 3 => decide (a < 2 ^ 40) && a / 2 ^ 34 == n / 8
  | 4 => decide (2 ^ 40 ≤ a) && decide (a < 5 * 2 ^ 40) && (a - 2 ^ 40) / 2 ^ 37 == n
  | _ => false) && Config.frameDepends kind n (a / 2 ^ 21)
def failedAt (s : State) (a : Nat) : Bool := isDm a && s.mod.failed.any fun f => depends f.1 f.2 a

/-- A line can be opened by a request of a domain (R380, R381). An open page opens for every request. -/
def lineOpens (s : State) (dom : Option Nat) (a : Nat) : Bool :=
  !s.poison.contains (a / 64 * 64) && !failedAt s a &&
  (!isDm a || (let m := pageAt s a
    blockOk s a m && (m.opened || (match dom with
      | none => false
      | some d => d == m.dom && m.key.isSome && worldKey s d == m.key))))

/-- A write has reached a line: its elision state follows, and an elided write is counted (R382). -/
def elide (s : State) (line : Nat) : State :=
  if isMetadata line then s else
  let m := pageAt s line
  let m1 := elideMeta m line (memReadBytes s.mem line 64)
  let s1 := if m1 = m then s else { s with pages := insert s.pages (line / 4096) m1 }
  if elidedLine m1 line then countDie s1 (dieOfDpa line) 14 (partOfDpa s1 line) 1 else s1

/-- Store one byte at its home. DESIGN CHOICE (log entry 2): the device alone writes the metadata region; another write of it is dropped. -/
def homeStore (s : State) (p : Nat × Byte) : State :=
  if isMetadata p.1 then s else { s with mem := memWrite s.mem p.1 p.2 }

/-- The lines that a list of addresses of some memory touches, each once. -/
def linesIn (f : Nat → Bool) (l : List Nat) : List Nat :=
  l.foldl (fun acc a => if f a && !acc.contains (a / 64 * 64) then a / 64 * 64 :: acc else acc) []
/-- The lines of device memory. -/
def linesOf (l : List Nat) : List Nat := linesIn isDm l

/-- A write reaches its home: the home's bytes take its values (R248). A write of the management window becomes a port
operation of its writer (R335). -/
def reachHome (s : State) (th : Nat) (addrs : List Nat) (data : List Byte) : State :=
  match addrs with
  | [] => s
  | a :: _ =>
    if isWindow a then
      modMod s fun m => { m with portWrites := m.portWrites ++
        [(if 2 ^ 20 ≤ th ∧ th < 2 ^ 21 then th - 2 ^ 20 + 1 else 0, a - windowBase, w64 (leNat data))] }
    else (linesOf addrs).foldl elide ((addrs.zip data).foldl homeStore s)

def removeEv (l : List MemEv) (id : Nat) : List MemEv := l.filter fun e => !(e.id == id)

/-- The launch of a thread; a copy channel acts for the task that launched its transfer. -/
def launchOfThread (s : State) (th : Nat) : Nat :=
  if th < 2 ^ 20 then (slotAt s th).task.launch
  else if 2 ^ 21 ≤ th ∧ th < 2 ^ 22 then
    (lookupD (clusterAt s ((th - 2 ^ 21) / 16)).chans ((th - 2 ^ 21) % 16) Chan.reset).job.launch
  else 0
/-- An event enters the machine: it keeps its launch from now on. -/
def tagged (s : State) (e : MemEv) : MemEv := { e with launch := some (e.launch.getD (launchOfThread s e.thread)) }

/-- A write leaves the issue queue: it stands at the first point of its path, or at its home (R247). -/
def acceptEv (s : State) (w : MemEv) : State :=
  let s1 := { s with iq := removeEv s.iq w.id }
  if w.path.isEmpty then reachHome s1 w.thread w.addrs w.data else { s1 with transit := s1.transit ++ [tagged s w] }

/-- Whether a write may leave its point: none that arrived before it and touches a byte of it is still there (R248). -/
def advanceOk (s : State) (w : MemEv) : Bool :=
  (s.transit.takeWhile fun x => !(x.id == w.id)).all fun x => !(evPoint x == evPoint w && evOverlap x w)

/-- The partition of a thread. -/
def threadPart (s : State) (th : Nat) : Option Nat :=
  if 2 ^ 21 ≤ th then partOfCluster s ((th - 2 ^ 21) / 16) else if 2 ^ 20 ≤ th then none else partOfSlot s th
/-- The port on which an access to a peer leaves, by its partition's route table (R367). -/
def portOfEvent (s : State) (e : MemEv) : Option Nat :=
  if e.space != .pm then none else
  match (threadPart s e.thread).bind (partAt s), e.addrs.head? with
  | some x, some a => some (x.routes.toList.getD (nodeOf a) 0xFF).toNat
  | _, _ => none
/-- An access to a peer whose port is down goes no further: PORT_DOWN ends it (R368). -/
def linkDown (s : State) (e : MemEv) : Bool :=
  match portOfEvent s e with | some i => !(lookupD s.mod.ports i Port.reset).up | none => false

/-- A write moves to the next point of its path or to its home (R248). -/
def advanceEv (s : State) (w : MemEv) : State :=
  let rest := w.path.drop 1
  let s1 := { s with transit := removeEv s.transit w.id }
  if rest.isEmpty then reachHome s1 w.thread w.addrs w.data else { s1 with transit := s1.transit ++ [{ w with path := rest }] }

/-- Advance, to their homes, the writes in transit that meet a condition and those that they must not overtake: a legal
sequence of Advance steps, nearest to the home first. -/
def drainPass (s : State) (want : MemEv → Bool) (n : Nat) : State :=
  (s.transit.filter fun e => want e && e.path.length == n && !linkDown s e).foldl
    (fun t e => reachHome { t with transit := removeEv t.transit e.id } e.thread e.addrs e.data) s
def drainWrites (s : State) (want : MemEv → Bool) : State :=
  let near := fun (w : MemEv → Bool) (e : MemEv) => w e || (s.transit.filter w).any (evOverlap e)
  let all := near (near want)
  [1, 2, 3, 4, 5].foldl (fun t n => drainPass t all n) s

/-- The value of each byte of a read event now. -/
def readNow (s : State) (r : MemEv) : List Byte := threadBytes s r.thread r.space r.addrs

/-- A read takes its value: it leaves the issue queue and waits for its instruction. -/
def bindEv (s : State) (r : MemEv) : State :=
  { s with iq := removeEv s.iq r.id,
           bound := s.bound ++ [{ r with data := readNow s r, poisoned := r.poisoned || !(r.addrs.all (lineOpens s r.dom)) }] }

/-- The new memory value of an atomic of a width, or none when it does not write (R135). -/
def amoNew (op : AmoOp) (w : Nat) (old b x : Nat) : Option Nat :=
  match op with
  | .add => some ((old + b) % 2 ^ w)
  | .and => some (old &&& b)
  | .or => some (old ||| b)
  | .xor => some (old ^^^ b)
  | .min => some (if sx old w ≤ sx b w then old else b)
  | .max => some (if sx old w ≤ sx b w then b else old)
  | .swp => some b
  | .cas => if old = x then some b else none

/-- An atomic reads, computes and writes its location at the home in one step (R250). -/
def atomicEv (s : State) (a : MemEv) : State :=
  let old := a.addrs.map (homeByte s a.thread)
  let s1 := { s with iq := removeEv s.iq a.id,
                     bound := s.bound ++ [{ a with data := old, poisoned := !(a.addrs.all (lineOpens s a.dom)) }] }
  if !(a.addrs.all (lineOpens s a.dom)) then s1 else
  match a.kind with
  | .atomic op b x =>
    match amoNew op (8 * a.addrs.length) (leNat old) b x with
    | some v => reachHome s1 a.thread a.addrs (leBytes a.addrs.length v)
    | none => s1
  | _ => s1

/-- Add a new event of a thread at the end of its program order; its number is the state's nextId. -/
def pushEv (s : State) (e : MemEv) : State := { s with iq := s.iq ++ [tagged s { e with id := s.nextId }], nextId := s.nextId + 1 }

def evIn (l : List MemEv) (id : Nat) : Option MemEv := l.find? fun e => e.id == id

/-- Take the bytes that an event bound; the event leaves the machine. -/
def takeBound (s : State) (id : Nat) : State := { s with bound := removeEv s.bound id }

/-- Discard the events of a thread that are not accepted, bound or performed, and that meet a condition (R254); a message
whose event is discarded is not sent. -/
def discardWhere (s : State) (th : Nat) (f : MemEv → Bool) : State :=
  let gone := s.iq.filter fun e => e.thread == th && f e
  { s with iq := s.iq.filter (fun e => !(e.thread == th && f e)), bound := s.bound.filter (fun e => !(e.thread == th)),
           network := s.network.filter fun m => !(gone.any (·.id == m.id)) }
def discardEvents (s : State) (th : Nat) : State := discardWhere s th fun _ => true
/-- Discard the events of given numbers that are not performed, or whose value nobody has taken. -/
def discardIds (s : State) (ids : List Nat) : State :=
  { s with iq := s.iq.filter fun e => !ids.contains e.id, bound := s.bound.filter fun e => !ids.contains e.id }

/-- A write whose bytes are known. -/
def isReadyWrite (e : MemEv) : Bool := e.kind == .write && e.data.length == e.addrs.length

end Sys2Proof.Machine
end

