-- ==== Sys2Proof/Machine/Walk.lean ====
section
/-! DEFINITION. The two stages of translation and the walk (R346 to R353). -/

namespace Sys2Proof.Machine

def seqNat (a n : Nat) : List Nat := (List.range n).map (a + ·)

/-- The rights of a translation that an access needs: 1 read, 2 write, 4 fetch. -/
def tlbAllows (t : Tlb) (need : Nat) : Bool :=
  (need &&& 1 == 0 || t.r) && (need &&& 2 == 0 || t.w) && (need &&& 4 == 0 || t.x)

/-- The result of a walk (R350, R351). -/
inductive Xl where
  | ok (t : Tlb)
  | notPresent (addr : Nat) (stage2 : Bool)
  | moving (frame : Nat)
  | malformed
  | poisoned
  deriving DecidableEq, Repr

/-- The result of stage 2: the flat address of the byte, the type, rights and ceiling. -/
structure S2 where
  flat : Nat
  ty : Space
  r : Bool
  w : Bool
  x : Bool
  ceil : Nat
  deriving DecidableEq, Repr

/-- The doubleword of a table, read at the partition point (R353); none when the line does not open without a domain. -/
def tableWord (s : State) (p a : Nat) : Option Nat :=
  if lineOpens s none a then
    some (leNat ((List.range 8).map fun i => viewByte s (2 ^ 22) [.partition p] (a + i)))
  else none

/-- Stage 2 for a GPA (R349 to R351, R367). -/
def stage2 (s : State) (p : Nat) (x : PartSt) (gpa : Nat) : Except Xl S2 :=
  if 2 ^ 46 ≤ gpa then .error .malformed else
  match tableWord s p (x.stage2 + 8 * (gpa / 2 ^ 21)) with
  | none => .error .poisoned
  | some e =>
    if e % 2 = 0 then .error (.notPresent gpa true)
    else if (x.frameCounts.any fun f => f.gpaFrame == gpa / 2 ^ 21 && f.moving.isSome) then .error (.moving (gpa / 2 ^ 21))
    else
      let tier := bits e 8 7
      let bias := bits e 6 6
      let peer := bits e 10 10
      let node := bits e 16 11
      let frame := bits e 62 32 * 2 ^ 21
      let a := frame + gpa % 2 ^ 21
      let dev := peer = 0 ∧ tier ≠ 2
      let held := dev ∧ s.mod.pageMoves.contains (a / 4096)
      let port := (x.routes.toList.getD node 0xFF).toNat
      if e / 2 ^ 63 ≠ 0 ∨ bits e 31 17 ≠ 0 ∨ tier = 3 ∨ (peer = 1 ∧ (bias = 1 ∨ tier ≠ 0)) ∨ (peer = 0 ∧ node ≠ 0) ∨
         ((dev ∨ peer = 1) ∧ (!isDpa a || isMetadata a)) ∨
         (peer = 1 ∧ (port = 0xFF ∨ x.lanes.getD port 0 = 0)) then .error .malformed
      else if held then .error (.moving (gpa / 2 ^ 21))
      else .ok { flat := if peer = 1 then flatPeer node a else if tier = 2 then flatHost a else flatDevice a,
                 ty := if peer = 1 then .pm else if tier = 2 ∨ bias = 1 then .hm else .dm,
                 r := bits e 1 1 == 1, w := bits e 2 2 == 1, x := bits e 3 3 == 1, ceil := bits e 5 4 }

/-- A stage-1 table entry: read through stage 2. -/
def stage1Word (s : State) (p : Nat) (x : PartSt) (gpa : Nat) : Except Xl Nat :=
  match stage2 s p x gpa with
  | .error e => .error e
  | .ok t => match tableWord s p t.flat with | some v => .ok v | none => .error .poisoned

/-- The last step of a walk: the leaf e of a page of n bits (R348, R350). -/
def leafOf (s : State) (p : Nat) (x : PartSt) (pva e n : Nat) (seen : List Nat) : Xl :=
  let a := bits e 45 12 * 4096
  let c64 := bits e 7 7
  if (n ≠ 12 ∧ c64 = 1) ∨ a % 2 ^ n ≠ 0 ∨ (n = 12 ∧ c64 = 1 ∧ bits e 15 12 ≠ bits pva 15 12) then .malformed
  else
    let gpa := a + pva % 2 ^ n
    match stage2 s p x gpa with
    | .error err => err
    | .ok t => .ok { part := p, page := pva / 4096, flat := t.flat / 4096 * 4096, space := t.ty,
                     r := bits e 2 2 == 1 && t.r, w := bits e 3 3 == 1 && t.w, x := bits e 4 4 == 1 && t.x,
                     ceil := min (bits e 6 5) t.ceil, gpa := gpa / 4096 * 4096, span := if c64 = 1 then 16 else n,
                     frames := (gpa / 2 ^ 21 :: seen).eraseDups }

/-- Walk the levels of stage 1 from a table at GPA tab (R347): lo is the level's low PVA bit, seen the frames read so far. -/
def walkFrom (s : State) (p : Nat) (x : PartSt) (pva : Nat) : List (Nat × Nat) → Nat → List Nat → Xl
  | [], _, _ => .malformed
  | (lo, width) :: rest, tab, seen =>
    match stage1Word s p x (tab + 8 * (pva / 2 ^ lo % 2 ^ width)) with
    | .error err => err
    | .ok e =>
      if e % 2 = 0 then .notPresent pva false
      else if e / 2 ^ 46 ≠ 0 ∨ bits e 11 8 ≠ 0 then .malformed
      else if bits e 1 1 = 1 then (if lo = 39 then .malformed else leafOf s p x pva e lo (tab / 2 ^ 21 :: seen))
      else if bits e 7 2 ≠ 0 then .malformed
      else walkFrom s p x pva rest (bits e 45 12 * 4096) (tab / 2 ^ 21 :: seen)

/-- The walk of a PVA (R347). -/
def walk (s : State) (p pva : Nat) : Xl :=
  match partAt s p with
  | none => .malformed
  | some x => walkFrom s p x pva [(39, 18), (30, 9), (21, 9), (12, 9)] x.stage1 []

/-! ### What a walk reads -/

/-- Reads of elided lines are counted (R382). -/
def noteElided (s : State) (addrs : List Nat) : State :=
  (linesOf addrs).foldl (fun t l =>
    let m := pageAt t l
    if elidedLine m l then countDie t (dieOfDpa l) 14 (partOfDpa t l) 1 else t) s

/-- The addresses of the words of the two stages that a walk of a PVA reads, from a table of stage 1 on. -/
def walkReads (s : State) (p : Nat) (x : PartSt) (pva : Nat) : List (Nat × Nat) → Nat → List Nat
  | [], _ => []
  | (lo, width) :: rest, tab =>
    let gpa := tab + 8 * (pva / 2 ^ lo % 2 ^ width)
    (x.stage2 + 8 * (gpa / 2 ^ 21)) :: match stage2 s p x gpa with
      | .error _ => []
      | .ok t => t.flat :: match tableWord s p t.flat with
        | none => []
        | some e =>
          if e % 2 = 0 then []
          else if bits e 1 1 = 1 then [x.stage2 + 8 * ((bits e 45 12 * 4096 + pva % 2 ^ lo) / 2 ^ 21)]
          else walkReads s p x pva rest (bits e 45 12 * 4096)

/-- A walk counts the elided lines that it reads (R382); no counter, no count. -/
def noteWalk (s : State) (p pva : Nat) : State :=
  if s.mod.dieCounters.isEmpty then s else
  match partAt s p with
  | none => s
  | some x => noteElided s (walkReads s p x pva [(39, 18), (30, 9), (21, 9), (12, 9)] x.stage1)

end Sys2Proof.Machine
end

