-- ==== Sys2Proof/Machine/Device.lean ====
section
/-! DEFINITION. Reads and writes that the device makes for itself, through both stages of a partition: records, tables and
rings in open pages (R253, R315, R326 to R334, R381). -/

namespace Sys2Proof.Machine

/-- The state with no frame and no page marked as moving. -/
def unmarked (s : State) : State :=
  { s with parts := s.parts.map fun e => (e.1, { e.2 with frameCounts := e.2.frameCounts.map fun f => { f with moving := none } }),
           mod := { s.mod with pageMoves := [] } }

/-- The flat address of a PVA, when it translates with a right. A frame that is only marked (R358) still holds its bytes: what the device
reads and writes there before the move, the move carries along. -/
def devFlat (s : State) (p pva need : Nat) : Option (Nat × Space) :=
  match (match walk s p pva with | .moving _ => walk (unmarked s) p pva | w => w) with
  | .ok t => if tlbAllows t need then some (t.flat + pva % 4096, t.space) else none
  | _ => none

/-- One byte of memory as the device reads it at the partition point. -/
def devByte (s : State) (p flat : Nat) : Byte := viewByte s (2 ^ 22) [.partition p] flat

/-- A byte of a partition for a key domain; none when it does not translate, or its line does not open. -/
def devReadOne (s : State) (dom : Option Nat) (p pva : Nat) : Option Byte :=
  match devFlat s p pva 1 with
  | some (a, _) => if lineOpens s dom a then some (devByte s p a) else none
  | none => none

/-- n bytes from a PVA, for a key domain or for no key. -/
def devReadAs (s : State) (dom : Option Nat) (p pva n : Nat) : Option (List Byte) := (seqNat pva n).mapM (devReadOne s dom p)
def devRead (s : State) (p pva n : Nat) : Option (List Byte) := devReadAs s none p pva n

/-- The device counts the elided lines that it reads (R382). -/
def devNote (s : State) (p pva n : Nat) : State :=
  if s.mod.dieCounters.isEmpty then s else noteElided s ((seqNat pva n).filterMap fun a => (devFlat s p a 1).map (·.1))

/-- A little-endian number of n bytes at a PVA. -/
def devNat (s : State) (p pva n : Nat) : Option Nat := (devRead s p pva n).map leNat

/-- Write one byte at its home; a byte that does not translate, or whose line does not open, is not written (log entry 9). -/
def devWriteOne (s : State) (dom : Option Nat) (p pva : Nat) (b : Byte) : State :=
  match devFlat s p pva 2 with
  | some (a, _) => if lineOpens s dom a then reachHome s (2 ^ 22) [a] [b] else s
  | none => s

/-- Write bytes from a PVA on, at their homes. -/
def devWriteAs (s : State) (dom : Option Nat) (p pva : Nat) (bs : List Byte) : State :=
  (bs.mapIdx fun i b => (i, b)).foldl (fun t q => devWriteOne t dom p (pva + q.1) q.2) s
def devWrite (s : State) (p pva : Nat) (bs : List Byte) : State := devWriteAs s none p pva bs

/-! ### Halyard frames in memory (R300, R301) -/

def loopStart (l : Loop) : Nat := l.start.toNat % 2 ^ 48 + (if l.active then 2 ^ 63 else 0)
def segBytes (g : Seg) : List Byte := leBytes 8 g.w0.toNat ++ leBytes 8 g.w1.toNat

/-- The 512 bytes of a frame. -/
def frameBytes (f : Frame) : List Byte :=
  leBytes 8 (f.caller % 4096) ++ leBytes 8 f.ret.toNat ++ f.g.toList.flatMap segBytes ++
  leBytes 8 f.lmbase.toNat ++ leBytes 8 f.lmbound.toNat ++ leBytes 8 f.thandler.toNat ++
  leBytes 8 f.lc0.count.toNat ++ leBytes 8 f.lc1.count.toNat ++
  leBytes 8 (loopStart f.lc0) ++ leBytes 8 (f.lc0.stop.toNat % 2 ^ 48) ++
  leBytes 8 (loopStart f.lc1) ++ leBytes 8 (f.lc1.stop.toNat % 2 ^ 48) ++
  leBytes 8 f.window.toNat ++ leBytes 8 f.gate.toNat ++ leBytes 8 (f.mark.getD (2 ^ 63)) ++
  (f.saved.toList.flatMap fun x => leBytes 8 x.toNat) ++
  leBytes 8 (f.status % 256 + 256 * flag f.cleaning + 512 * flag f.vec) ++ List.replicate 96 0

/-- A doubleword of an image. -/
def dword (bs : List Byte) (o : Nat) : Nat := leNat ((bs.drop o).take 8)
def segAt (bs : List Byte) (o : Nat) : Seg := { w0 := w64 (dword bs o), w1 := w64 (dword bs (o + 8)) }
def loopAt (bs : List Byte) (c o : Nat) (old : Loop) : Loop :=
  { old with count := w64 (dword bs c), start := w64 (dword bs o % 2 ^ 48), stop := w64 (dword bs (o + 8)),
             active := decide (2 ^ 63 ≤ dword bs o) }

/-- The frame that an image holds; what the image does not hold stays as it was. -/
def frameOfBytes (bs : List Byte) (old : Frame) : Frame :=
  { old with
    caller := dword bs 0 % 4096, ret := w64 (dword bs 8), g := Vector.ofFn fun i : Fin 8 => segAt bs (16 + 16 * i.val),
    lmbase := w64 (dword bs 144), lmbound := w64 (dword bs 152), thandler := w64 (dword bs 160),
    lc0 := loopAt bs 168 184 old.lc0, lc1 := loopAt bs 176 200 old.lc1,
    window := w64 (dword bs 216), gate := w64 (dword bs 224),
    mark := if 2 ^ 63 ≤ dword bs 232 then none else some (dword bs 232),
    saved := Vector.ofFn fun i : Fin 21 => w64 (dword bs (240 + 8 * i.val)),
    status := dword bs 408 % 256, cleaning := dword bs 408 / 256 % 2 == 1, vec := dword bs 408 / 512 % 2 == 1 }

/-- Where frame i spills. -/
def spillAt (hspill : Word) (i : Nat) : Nat := hspill.toNat + 512 * (i - 1)

/-- What a pop that leaves depth d finds (R301): the frames that remain, of which frame d - 4, now the fourth from the innermost, is
refilled; a page that is not present or is being moved; or a line that cannot be read. -/
inductive Refill where
  | frames (l : List Frame)
  | absent (addr : Nat) (stage2 : Bool)
  | moving (frame : Nat)
  | poisoned
  deriving DecidableEq, Repr

def refillOf (s : State) (p : Option Nat) (hspill : Word) (d : Nat) (rest : List Frame) : Refill :=
  if d ≤ 4 then .frames rest else
  match p, rest[3]? with
  | some q, some f =>
    let a := spillAt hspill (d - 4)
    (match walk s q a with
    | .notPresent x st => .absent x st
    | .moving n => .moving n
    | _ => match devReadAs s (some (worldId q 0)) q a 512 with
      | some bs => .frames (rest.set 3 (frameOfBytes bs f))
      | none => .poisoned)
  | _, _ => .frames rest
/-- The frames after a pop; a frame that could not be refilled stays as it was spilled. -/
def refilled (s : State) (p : Option Nat) (hspill : Word) (d : Nat) (rest : List Frame) : List Frame :=
  match refillOf s p hspill d rest with | .frames l => l | _ => rest

end Sys2Proof.Machine
end

