-- ==== Sys2Proof/Machine/Ops.lean ====
section
/-! DEFINITION. The shared operations: retiring, parking, records and interrupts, banks, tenures, transfers, halyard
frames and unwinding, kills, and taking a trap (R310 to R313) with the return beside it. -/

namespace Sys2Proof.Machine

/-- What exec answers. -/
abbrev Out := Host.Outcome State Fault Refusal

/-- A piece of a meaning: a value, or the state in which the instruction has ended early (a trap or a park). -/
abbrev Run (α : Type) := Except State α

/-- The outcome of a meaning. -/
def Run.out : Run State → Out
  | .ok s => .next s
  | .error s => .next s

/-! ### Retiring -/

/-- A loop counter at a retiring address: its new value and where it sends the PC (R131). -/
def loopStep (l : Loop) (p : Word) : Loop × Option Word :=
  if l.active && l.stop == p then
    if l.count.toNat ≤ 1 then ({ l with count := 0, active := false }, none)
    else ({ l with count := l.count - 1 }, some l.start)
  else (l, none)

/-- The PC and the loop counters after an instruction at the PC retires without branching (R131). -/
def retireSc (level : Nat) (x : ScalarSt) : ScalarSt :=
  if level ≠ 0 then { x with pc := x.pc + 4 }
  else if x.lc0.order < x.lc1.order then
    let a := loopStep x.lc1 x.pc
    match a.2 with
    | some t => { x with lc1 := a.1, pc := t }
    | none =>
      let b := loopStep x.lc0 x.pc
      { x with lc1 := a.1, lc0 := b.1, pc := b.2.getD (x.pc + 4) }
  else
    let a := loopStep x.lc0 x.pc
    match a.2 with
    | some t => { x with lc0 := a.1, pc := t }
    | none =>
      let b := loopStep x.lc1 x.pc
      { x with lc0 := a.1, lc1 := b.1, pc := b.2.getD (x.pc + 4) }

/-- An instruction of an agent retires without branching. -/
def retireOf (s : State) (ag : Agent) : State := modScOf s ag (retireSc (tlOf s ag))
/-- The instruction of the executor retires. -/
def retire (s : State) : State := retireOf s s.cur

/-! ### Parking -/

/-- Park an agent (R29). -/
def parkOf (s : State) (ag : Agent) (r : ParkReason) (abandon : Bool) (c : Cont) : State :=
  let p : Park := { reason := r, abandon := abandon, cont := c }
  match ag with
  | .slot k => modSlot s k fun x => { x with state := .parked, park := some p }
  | .app n => modApp s n fun x => { x with park := some p }

/-- Park the executor and end the instruction there. -/
def park {α : Type} (s : State) (r : ParkReason) (abandon : Bool) (c : Cont) : Run α := .error (parkOf s s.cur r abandon c)

/-- The reason of an agent's park has cleared: it leaves the park (R25). A context of a HELD session stays parked until its session is LIVE
again (R388). -/
def readyOf (s : State) (ag : Agent) : State :=
  match ag with
  | .slot k => modSlot s k fun x =>
    if x.park.isSome && heldNow s x then { x with park := x.park.map fun p => { p with cont := .cleared } }
    else { x with state := .ready, park := none, rdy := s.cycle }
  | .app n => modApp s n fun x => { x with park := none }

/-- The reason of a slot's park has cleared, and what its instruction has still to do is done before the slot is Ready (R29, R30). -/
def resumeOf (s : State) (k : Nat) : State :=
  modSlot s k fun x => { x with park := x.park.map fun p => { p with cont := .resume } }

/-- A completion-class park ends with its instruction retired (R30). -/
def completeOf (s : State) (ag : Agent) : State := readyOf (retireOf s ag) ag

def parkOfAg (s : State) : Agent → Option Park
  | .slot k => (slotAt s k).park
  | .app n => (appAt s n).park

/-- The agent of a thread number. -/
def agentOfThread (th : Nat) : Agent := if 2 ^ 20 ≤ th ∧ th < 2 ^ 21 then .app (th - 2 ^ 20) else .slot th

/-! ### Slot 15, records, and interrupt sources -/

/-- The key of a core's slot 15. -/
def supervisorOf (core : Nat) : Nat := slotKey core 15

/-- Set pending WAIT events of a slot (R225); a WAIT or a HALT parked on one ends its park. -/
def setPend (s : State) (k : Nat) (ev : BitVec 5) : State :=
  let s1 := modSlot s k fun x => { x with eng := { x.eng with pend := x.eng.pend ||| ev } }
  match (slotAt s1 k).park with
  | some { cont := .wait mask _, .. } => if mask &&& ev = 0 then s1 else readyOf s1 (.slot k)
  | _ => s1

/-- An entry of slot 15's queue arrives: its message event becomes pending, and HALT ends (R45, R314). -/
def wakeSupervisor (s : State) (core : Nat) : State :=
  let k := supervisorOf core
  let s1 := setPend s k 1
  match (slotAt s1 k).park with
  | some { cont := .halt, .. } => completeOf s1 (.slot k)
  | _ => s1

/-- The entries of the queue that hold device records of a slot. -/
def recordsOf (c : CoreSt) (k : Nat) : Nat := (c.delivered.filter fun e => e.recordOf == some k).length

/-- The device record of R314. -/
def recordWord (level worldAt cause kind slot : Nat) : Word :=
  w64 (level % 4 * 2 ^ 28 + worldAt % 4096 * 2 ^ 16 + cause % 256 * 2 ^ 8 + kind % 16 * 16 + slot % 16)

def recordEntry (s : State) (k level worldAt cause kind : Nat) (p : Word) : Delivered :=
  { world := worldId ((partOfSlot s k).getD 0) 0, header := w64 (2 ^ 28 + 2 * 2 ^ 12 + 0xFFF),
    payload := [recordWord level worldAt cause kind (slotNo k), p], recordOf := some k, posted := false, fifo := none }

/-- Post a device record, or keep it until an entry of the slot frees (R314). -/
def postRecord (s : State) (k : Nat) (e : Delivered) : State :=
  let c := coreOfSlot k
  if recordsOf (coreAt s c) k < 2 then
    wakeSupervisor (modCore s c fun x => { x with delivered := x.delivered ++ [e] }) c
  else modCore s c fun x => { x with waitingRecs := x.waitingRecs ++ [{ slot := k, entry := e }] }

/-- An event of a claimed source reaches an application core; it is held pending per source (R106). -/
def appEvent (s : State) (n src : Nat) : State :=
  modApp s n fun x => if x.pendingSources.contains src then x else { x with pendingSources := x.pendingSources ++ [src] }

/-- A message for vector v of a VF, for a partition or for the module (R365). -/
def sendVector (s : State) (vf v : Nat) (part : Option Nat) : State :=
  let base := (lookupD s.mod.msix vf 0).toNat % 2 ^ 48
  let e := leNat (memReadBytes s.mem (base + 4 * v) 4)
  if e / 2 ^ 31 = 1 && (match part with | some p => e / 2 ^ 16 % 64 == p | none => true) then
    modMod s fun m =>
      if m.msixMask.contains (vf, e % 2048) then
        { m with msixPending := if m.msixPending.contains (vf, e % 2048) then m.msixPending else m.msixPending ++ [(vf, e % 2048)] }
      else { m with sentInterrupts := m.sentInterrupts ++ [(vf, e % 2048)] }
  else countDie s 4 17 part 1

/-- The partition that a source concerns (R317). -/
def partOfSource (src : Nat) : Option Nat :=
  if src < 64 then some src else if src < 128 then some (src - 64) else none

/-- Deliver an event of a claimable source by the claim bits that hold now (R318). -/
def deliverEvent (s : State) (src : Nat) : State :=
  if 198 ≤ src then s else
  let c := { lookupD s.mod.claims src Claim.reset with occurred := true }
  let s1 := modMod s fun m => { m with claims := insert m.claims src { c with pend := c.pend || !(c.sup || c.host) } }
  if c.sup then appEvent s1 c.acore src
  else if c.host then sendVector s1 c.vf c.vec (partOfSource src)
  else s1

/-! ### Vector banks -/

/-- The lowest-numbered free bank of a core (R32). -/
def freeBankOf (c : CoreSt) : Option Nat := (List.range 4).find? fun i => (c.holders.toList.getD i none).isNone

def setHolder (c : CoreSt) (b : Nat) (h : Option Nat) : CoreSt :=
  if hb : b < 4 then { c with holders := c.holders.set b h } else c
def setBank (c : CoreSt) (b : Nat) (x : Bank) : CoreSt :=
  if hb : b < 4 then { c with banks := c.banks.set b x } else c
def getBank (c : CoreSt) (b : Nat) : Bank := if hb : b < 4 then c.banks[b] else Bank.zero

/-- Bind a bank to a slot. -/
def bindBank (s : State) (k b : Nat) : State :=
  modSlot (modCore s (coreOfSlot k) fun c => setHolder c b (some k)) k fun x =>
    { x with vec := { x.vec with bank := some b, recent := [] } }

/-- A restored slot's saved bank number, marked by 16, becomes the number of the bank now bound (R320). -/
def renameBank (old new : Nat) (x : SlotSt) : SlotSt :=
  let f := fun (b : Option Nat) => if b = some (16 + old) then some new else b
  { x with vec := { x.vec with bank := f x.vec.bank }, frames := x.frames.map fun y => { y with bank := f y.bank } }

/-- Matrix instructions are performed by the matrix engine (R39, R180). -/
def isMatrix : Instr → Bool
  | .mma _ _ _ | .mmas _ _ _ | .mmr _ _ _ => true
  | _ => false

/-- Put a released slot into the queue of the matrix engine: after the earlier clocks, and among those of its clock by slot (R180). -/
def queueMatrix : List (Nat × Nat) → Nat → Nat → List (Nat × Nat)
  | [], c, k => [(c, k)]
  | (d, j) :: rest, c, k => if c < d ∨ (c = d ∧ k < j) then (c, k) :: (d, j) :: rest else (d, j) :: queueMatrix rest c k

/-- A matrix instruction at the head of a slot's sequencer is released to the core's matrix engine, which performs them in
the order of release (R39, R180). -/
def releaseMatrix (s : State) (k : Nat) : State :=
  let x := slotAt s k
  let c := coreAt s (coreOfSlot k)
  let busy := (c.matrixQueue.any fun j => j.2 == k) || (match c.matrixRun with | some r => r.slot == k | none => false)
  match x.vec.seq with
  | e :: _ =>
    if !x.vec.frozen && !busy && e.body.any (fun h => isMatrix h.instr) then
      modCore s (coreOfSlot k) fun c => { c with matrixQueue := queueMatrix c.matrixQueue s.cycle k }
    else s
  | [] => s

/-- A matrix instruction stands at the head of a slot's sequencer although the slot has gone past it: its exception was deferred, or its
context was saved then. It is performed again, and the slot is parked with reason 2 as R39 says until it completes. -/
def awaitMatrix (s : State) (k : Nat) : State :=
  match (slotAt s k).vec.seq with
  | e :: _ => if !(slotAt s k).vec.frozen && e.body.any fun h => isMatrix h.instr then releaseMatrix (parkOf s (.slot k) .matrix false .matrixAgain) k else s
  | [] => s

/-- A restored slot waits, first for its banks, then for its tokens, then for its gang; then it is Ready (R320). -/
def restoreWait (s : State) (k : Nat) (banks : List (Nat × Nat × Bank)) (tokens : List Nat) (gang : Bool) : State :=
  let c : Cont := .restore banks tokens gang
  if !banks.isEmpty then parkOf s (.slot k) .bank false c
  else if !tokens.isEmpty then parkOf s (.slot k) .tile false c
  else if gang then parkOf s (.slot k) .barrier false c
  else awaitMatrix (readyOf s (.slot k)) k

/-- A slot that a CXREST placed and that still waits, before its first instruction issues (R320), or that is held with its gang (R319). It
leaves this wait only to be killed or saved (log entry 91). -/
def restoring (x : SlotSt) : Bool := match x.park with | some { cont := .restore _ _ _, .. } => true | _ => false
/-- The banks that a restored slot has not been given yet, by the number that its fields name, less 16. -/
def pendingBanks (s : State) (k : Nat) : List (Nat × Bank) :=
  let of := fun (j : Nat) => match (slotAt s j).park with | some { cont := .restore l _ _, .. } => l | _ => []
  ((of k ++ of (if k % 2 = 0 then k + 1 else k - 1)).filter fun e => e.1 == k).map (·.2)

/-- The first waiting slot of a core takes a free bank (R32, R320). -/
def serveBankOne (s : State) (core : Nat) : State :=
  let c := coreAt s core
  match c.bankQueue, freeBankOf c with
  | k :: rest, some b =>
    let s1 := modCore s core fun c => { c with bankQueue := rest }
    (match (slotAt s k).park with
    | some { cont := .bank d, .. } => completeOf (setRegOf (bindBank s1 k b) (.slot k) d (w64 b)) (.slot k)
    | some { cont := .restore ((j, o, v) :: l) t g, .. } =>
      let s2 := modCore s1 core fun c =>
        let c1 := setHolder (setBank c b v) b (some j)
        if l.isEmpty then c1 else { c1 with bankQueue := k :: rest }
      restoreWait (modSlot s2 j (renameBank o b)) k l t g
    | _ => s1)
  | _, _ => s

/-- Give free banks to the waiting slots in the order in which they parked; there are four. -/
def serveBank (s : State) (core : Nat) : State :=
  serveBankOne (serveBankOne (serveBankOne (serveBankOne s core) core) core) core

/-- The events of a memory entry. -/
def entryIds (h : Handed) : List Nat := h.lanes.flatMap (·.2)

/-- Discard the entries of a slot's sequencer, with their events that are not performed (R40, R254). -/
def dropEntries (s : State) (k : Nat) : State :=
  discardIds (modSlot s k fun x => { x with vec := { x.vec with seq := [], frozen := false, deferred := none } })
    ((slotAt s k).vec.seq.flatMap fun e => e.body.flatMap entryIds)

/-- Free the bank of a slot, zeroed (R33), and empty the sequencer. -/
def freeBank (s : State) (k : Nat) : State :=
  let core := coreOfSlot k
  let s0 := dropEntries s k
  let s1 := match (slotAt s k).vec.bank with
    | some b => modCore s0 core fun c => setHolder (setBank c b Bank.zero) b none
    | none => s0
  let s2 := modSlot s1 k fun x => { x with vec := { x.vec with bank := none, seq := [], frozen := false,
                                                               deferred := none, recent := [] } }
  serveBank s2 core

/-! ### Copy transfers: how one ends -/

def chanAt (s : State) (cl ch : Nat) : Chan := lookupD (clusterAt s cl).chans ch Chan.reset
def setChan (s : State) (cl ch : Nat) (c : Chan) : State :=
  modCluster s cl fun k => { k with chans := insert k.chans ch c }

/-- The slot number that transfers, pins and events keep while the context of their slot, the i-th of it, is saved. -/
def savedKey (world context i : Nat) : Nat := 2 ^ 80 * (world + 1) + 2 ^ 70 * i + context

/-- The channel of a completion entry (R196). -/
def Completion.chan (e : Completion) : Nat := e.xfer / 4096 % 16

/-- A completion entry enters the queue, after those of other clocks and of lower channels; the entry that the queue has no room for
becomes its channel's pending bit (R196). -/
def queueEntry (x : EngineSt) (ch : Nat) (e : Completion) : EngineSt :=
  let before := fun (y : Completion) => !(y.clock == e.clock && decide (ch < y.chan))
  let l := x.queue.takeWhile before ++ e :: x.queue.dropWhile before
  match l[4]? with
  | none => { x with queue := l }
  | some y => { x with queue := l.take 4, pending := x.pending ||| (1#16 <<< y.chan), pendingInfo := insert x.pendingInfo y.chan y }

/-- An end of a transfer reaches its launching slot: the copy event of WAIT, and with a handler a completion entry or,
when the queue is full, the channel's pending bit (R196, R225). A saved context keeps it in its pending word (R319). -/
def completionOf (s : State) (k ch : Nat) (e : Completion) : State :=
  if k = 2 ^ 79 then s else if 2 ^ 80 ≤ k then
    let i := k / 2 ^ 70 % 2
    match (s.parts.find? fun p => p.2.saves.any fun c => savedKey c.world c.context i == k) with
    | some (p, _) =>
      let set := fun (c : SaveCounter) =>
        if savedKey c.world c.context i = k then
          { c with pending := c.pending ||| (1#16 <<< ch), pendingInfo := insert c.pendingInfo (16 * i + ch) e } else c
      modPart s p fun x => { x with saves := x.saves.map set }
    | none => s
  else
    let s1 := setPend s k 2
    if e.handler = 0 then s1 else
    let s2 := setPend s1 k 16
    modSlot s2 k fun x => { x with eng := queueEntry x.eng ch e }

/-- The word of a completion entry (R196). -/
def xferWord (id : Nat) (st : ChanState) : Nat :=
  id + (match st with | .faulted => 2 ^ 17 | .cancelled => 2 ^ 18 | _ => 0)

/-- The end of a transfer clears the parks of the CPWAITIDs that name it (R194). -/
def wakeCopyWaiters (s : State) (cl id : Nat) : State :=
  (s.slots.filter fun e => clusterOfSlot e.1 == cl && (match e.2.park with
    | some { cont := .transfer i, .. } => i == id
    | _ => false)).foldl (fun s e => readyOf s (.slot e.1)) s

/-- The scope at which a delivered byte is performed (R191). -/
def deliveryScope (ty : Space) : Scope := match ty with | .lm | .sp => .cluster | .dm => .partition | .pm | .hm => .system

/-- The write pointer of a channel: the element bytes before its first write that is not performed at the destination's
scope (R191, R253). -/
def chanWp (s : State) (cl ch : Nat) : Nat :=
  let c := chanAt s cl ch
  match c.frozenWp with
  | some p => p
  | none => s.transit.foldl (fun p e =>
      match e.copyOffset with
      | some o => if e.thread = chanThread cl ch && !writePerformed (deliveryScope e.space) e then min p o else p
      | none => p) c.written

/-- A running transfer of a channel ends in a state (R192, R194, R196): its write pointer stops, a partial galley entry is
discarded and the galley is released (a transfer holds it while it runs). -/
def endTransfer (s : State) (cl ch : Nat) (st : ChanState) (cause : Nat) : State :=
  let c := chanAt s cl ch
  if c.state != .running then s else
  let s1 := setChan (discardEvents s (chanThread cl ch)) cl ch
    { c with state := st, frozenWp := if st == .idle then none else some (chanWp s cl ch), cause := cause, waiting := false,
             entryBytes := [], entryScales := [] }
  wakeCopyWaiters (completionOf s1 c.job.slot ch { xfer := xferWord c.id st,
                                                   handler := (c.job.regs.toList.getD 14 0).toNat, depth := c.job.depth,
                                                   clock := s.cycle }) cl c.id

/-- The elements of a transfer (R188). -/
def CopyJob.count (j : CopyJob) (k : Nat) : Nat := (j.regs.toList.getD (2 + k) 0).toNat
def CopyJob.total (j : CopyJob) : Nat := j.count 0 * j.count 1 * j.count 2 * j.count 3

/-- The channel that a slot's CPLAUNCH has claimed starts its transfer (R190): its id goes to the register. A transfer of
no elements completes at once. -/
def startTransfer (s : State) (k : Nat) (a : BitVec 5) : State :=
  let cl := clusterOfSlot k
  match (clusterAt s cl).chans.find? fun e => (match e.2.claim with | some c => c.1 == k | none => false) with
  | none => s
  | some (ch, c) =>
    let job := match c.claim with | some x => x.2 | none => c.job
    let seq := if c.seq = 4095 then 1 else c.seq + 1
    let s1 := setChan s cl ch { Chan.reset with seq := seq, state := .running, id := ch * 4096 + seq, job := job }
    let s2 := setRegOf s1 (.slot k) a (w64 (ch * 4096 + seq))
    if job.total = 0 then endTransfer s2 cl ch .idle 0 else s2

/-- Channels of a cluster with a running transfer that meets a condition. -/
def chansWhere (s : State) (cl : Nat) (f : Chan → Bool) : List Nat :=
  ((clusterAt s cl).chans.filter fun e => e.2.state == .running && f e.2).map (·.1)

/-- Cancel the transfers of a slot launched at a depth, or all of them (R192). -/
def cancelTransfers (s : State) (k : Nat) (depth : Option Nat) : State :=
  let mine := fun (c : Chan) => c.job.slot == k && (match depth with | none => true | some d => c.job.depth == d)
  (s.clusters.flatMap fun e => (chansWhere s e.1 mine).map fun ch => (e.1, ch)).foldl
    (fun s q => endTransfer s q.1 q.2 .cancelled 0) s

/-- The transfers of a task that exits go on, and nobody takes their completion (R192). -/
def renameTransfers (s : State) (k j : Nat) : State :=
  { s with clusters := s.clusters.map fun q => (q.1, { q.2 with chans := q.2.chans.map fun e =>
    if e.2.job.slot = k then (e.1, { e.2 with job := { e.2.job with slot := j } }) else e }) }
def orphanTransfers (s : State) (k : Nat) : State := renameTransfers s k (2 ^ 79)

/-! ### Tiles: grants, and what the end of a tenure does -/

def tileIx (s : State) (p i : Nat) : Option TileIx := (partAt s p).bind fun x => lookup x.tiles i
def tileAt (s : State) (p i : Nat) : Option Tile := (tileIx s p i).bind fun x => x.tile
def setTile (s : State) (p i : Nat) (t : Option Tile) : State :=
  modPart s p fun x => match lookup x.tiles i with
    | some ix => { x with tiles := insert x.tiles i { ix with tile := t } }
    | none => x
def modTile (s : State) (p i : Nat) (f : Tile → Tile) : State :=
  match tileAt s p i with | some t => setTile s p i (some (f t)) | none => s

/-- The version that a launch sees as published (R206): its own held version, or the published one. -/
def seenVersion (t : Tile) (launch : Nat) : Nat :=
  t.frames.foldl (fun v f => if f.held = some launch && launch != 0 then max v f.version else v) t.version

def frameOf (t : Tile) (v : Nat) : Option TFrame := t.frames.find? fun f => f.version == v

/-- The number of the next version: one above every version that has been assigned (R206, R394). -/
def nextVersion (t : Tile) : Nat := t.frames.foldl (fun v f => max v f.version) t.version + 1

def launchOfSlot (s : State) (k : Nat) : Nat := (slotAt s k).task.launch

/-- A read request for a version that is not yet published waits aside (R266). -/
def waitsAside (s : State) (t : Tile) (r : TReq) : Bool :=
  !r.write && r.version != 0xFFFFFFFF && decide (seenVersion t (launchOfSlot s r.slot) < r.version)

/-- The active persistent request: of those there are, the first that reached the home (R267). -/
def persistentReq (t : Tile) : Option TReq :=
  t.requests.foldl (fun best r => match r.persistent, best.bind (·.persistent) with
    | none, _ => best
    | some _, none => some r
    | some a, some b => if a < b then some r else best) none

/-- An earlier request of the same cluster holds a request back (R266). DEDUCED (log entry 90): nothing holds the active persistent request
back, or a request that waited aside when it was made would keep it from the tokens that R267 gives it alone. -/
def heldBack (s : State) (t : Tile) (r : TReq) : Bool :=
  persistentReq t != some r &&
  (t.requests.takeWhile fun x => !(x == r)).any fun x => x.cluster == r.cluster && !waitsAside s t x

/-- The cluster's head request, if it lacks tokens: what TOKEN_FORWARD serves. -/
def lackingReq (s : State) (t : Tile) (cl : Nat) : Option TReq :=
  t.requests.find? fun r => r.cluster == cl && !heldBack s t r && !waitsAside s t r &&
    (if r.write then lookupD t.tokens cl 0 != 64 else lookupD t.tokens cl 0 == 0)

/-- The tokens that an agent may grant a request from: none to another request while a persistent one is active (R267). -/
def grantTokens (t : Tile) (r : TReq) : Nat :=
  match persistentReq t with
  | some q => if q == r then lookupD t.tokens r.cluster 0 else 0
  | none => lookupD t.tokens r.cluster 0

/-- What the tile point answers a request now: a status and a version, or nothing yet (R205, R266, R267, R270, R274). -/
def decideReq (s : State) (t : Tile) (r : TReq) : Option (Nat × Nat) :=
  let seen := seenVersion t (launchOfSlot s r.slot)
  let tok := grantTokens t r
  if t.state = 2 then some (3, 0)
  else if t.shadow.isSome then none
  else if r.write then
    (if 0xFFFFFFFE ≤ t.version then some (3, 0) else if tok = 64 then some (0, nextVersion t) else none)
  else
    let v := if r.version = 0xFFFFFFFF then seen else r.version
    if seen < v then none
    else if (frameOf t v).isNone then some (1, t.oldest)
    else if 1 ≤ tok then some (0, v) else none

/-- The tile after a grant: a pin, or a shadow that shares every published page (R266, R268). -/
def grantTile (t : Tile) (r : TReq) (v : Nat) : Tile :=
  if r.write then
    { t with shadow := some { slot := r.slot, version := v, frameNo := none, pages := t.basePages.map fun _ => none } }
  else { t with pins := t.pins ++ [(r.slot, v)] }

/-- The tenure entry of a slot after an answer. -/
def answerTenure (s : State) (k h status v : Nat) : State :=
  let upd := fun (e : Tenure) =>
    if e.handle = h ∧ !e.granted then (if status = 0 then some { e with granted := true, version := v } else none) else some e
  modSlot s k fun x => { x with eng := { x.eng with tenures := x.eng.tenures.filterMap upd } }

def tileHandle (s : State) (p i : Nat) : Nat :=
  match tileIx s p i with | some ix => ix.gen * 2 ^ 20 + i | none => 0

/-- Answer a request that waits: the parked slot takes the result, or the `.nw` request's event becomes pending. -/
def settle (s : State) (p i : Nat) (r : TReq) (status v : Nat) : State :=
  let h := tileHandle s p i
  let s1 := modTile s p i fun t =>
    let t1 := { t with requests := t.requests.filter fun x => !(x == r) }
    if status = 0 then grantTile t1 r v else t1
  let s2 := answerTenure s1 r.slot h status v
  if r.noWait then (if status = 0 then setPend s2 r.slot 4 else s2)
  else completeOf (setRegOf s2 (.slot r.slot) r.reg (w64 (status * 2 ^ 32 + v))) (.slot r.slot)

/-- The tile point takes the waiting requests in their order (R265, R266). -/
def serveList (s : State) (p i : Nat) : List TReq → State
  | [] => s
  | r :: rest =>
    match tileAt s p i with
    | none => s
    | some t =>
      if t.requests.contains r && !heldBack s t r then
        match decideReq s t r with
        | some (st, v) => serveList (settle s p i r st v) p i rest
        | none => serveList s p i rest
      else serveList s p i rest

/-- Requests that lack tokens go to the home (R266). -/
def sendHome (s : State) (p i : Nat) : State :=
  match tileAt s p i with
  | none => s
  | some t =>
    let goes := fun (r : TReq) => r.since.isNone && lackingReq s t r.cluster == some r
    let s1 := modTile s p i fun t =>
      { t with requests := t.requests.map fun r => if goes r then { r with since := some s.cycle } else r }
    if t.state = 1 then (t.requests.filter goes).foldl (fun s r => countCluster s r.cluster 10 1) s1 else s1

/-- The tile point serves what it can, and the requests that now lack tokens go to the home. -/
def serve (s : State) (p i : Nat) : State :=
  match tileAt s p i with | some t => sendHome (serveList s p i t.requests) p i | none => s

/-- Return pages to the version pool (R269). -/
def poolPages (s : State) (p : Nat) (l : List Nat) : State := modPart s p fun x => { x with pool := x.pool ++ l }

/-- The pages of the version pool that frames and a shadow of a tile use. -/
def pooledPages (l : List TFrame) (sh : Option Shadow) : List Nat :=
  (l.flatMap fun f => ((f.pages.zip f.pooled).filter (·.2)).map (·.1)) ++
  (match sh with | some x => x.pages.filterMap id | none => [])

/-- Replace the frames of a tile; pool pages that nothing of the tile uses any more return to the pool (R268, R271). -/
def setFrames (s : State) (p i : Nat) (l : List TFrame) : State :=
  match tileAt s p i with
  | none => s
  | some t =>
    let kept := pooledPages l t.shadow
    let gone := ((pooledPages t.frames none).filter fun a => !kept.contains a).eraseDups
    poolPages (modTile s p i fun t => { t with frames := l }) p gone

/-- Discard the shadow of a tile: earlier writes into it land, then its slot and pages return (R206, R269). Those that are not accepted
would land in pages whose contents go. -/
def discardShadow (s : State) (p i : Nat) : State :=
  match (tileAt s p i).bind (·.shadow) with
  | none => s
  | some sh =>
    let own := sh.pages.filterMap id
    let into := fun (e : MemEv) => e.kind == .write && e.addrs.any fun a => own.contains (a / 4096 * 4096)
    let s1 := drainWrites { s with iq := s.iq.filter fun e => !into e } into
    poolPages (modTile s1 p i fun t => { t with shadow := none }) p own

/-- Cancel the transfers that write the shadow of a tile (R192). -/
def cancelTileTransfers (s : State) (p h : Nat) : State :=
  (s.clusters.flatMap fun e => ((e.2.chans.filter fun c => c.2.state == .running && c.2.job.part == p &&
      c.2.job.dst.tile == some h).map
        fun c => (e.1, c.1))).foldl (fun s c => endTransfer s c.1 c.2 .cancelled 0) s

/-- Withdraw the requests of a slot for a tile: those behind them may be granted (R205, R266). -/
def withdraw (s : State) (p i k : Nat) : State :=
  serve (modTile s p i fun x => { x with requests := x.requests.filter fun r => !(r.slot == k) }) p i

/-- End one tenure entry of a slot: abandon a write tenure, release a pin, withdraw a request (R201). -/
def endTenure (s : State) (k : Nat) (t : Tenure) : State :=
  match partOfSlot s k with
  | none => s
  | some p =>
    let i := t.handle % 2 ^ 20
    if tileHandle s p i ≠ t.handle then s
    else if !t.granted then withdraw s p i k
    else if t.write then serve (discardShadow (cancelTileTransfers s p t.handle) p i) p i
    else modTile s p i fun x => { x with pins := x.pins.erase (k, t.version) }

/-- End the tenures of a slot that were acquired at a depth, or all of them. -/
def endTenures (s : State) (k : Nat) (depth : Option Nat) : State :=
  let mine := fun (t : Tenure) => match depth with | none => true | some d => t.depth == d
  let s1 := ((slotAt s k).eng.tenures.filter mine).foldl (fun s t => endTenure s k t) s
  modSlot s1 k fun x => { x with eng := { x.eng with tenures := x.eng.tenures.filter fun t => !mine t } }

/-! ### Local memory windows -/

def winBase (x : SlotSt) : Nat := bits x.lmbase.toNat 15 8 * 256
def winLen (x : SlotSt) : Nat := bits x.lmbound.toNat 15 8 * 256

/-- Zero a range of flat addresses. -/
def memClear (m : List Host.Cell) (a n : Nat) : List Host.Cell :=
  m.filter fun c => !(decide (a ≤ c.1) && decide (c.1 < a + n))
/-- Zero a range of a core's local memory, up to its end at 48 KiB (R46, R50). -/
def clearLocal (s : State) (core a n : Nat) : State :=
  { s with mem := memClear s.mem (flatLocal core a) (min n (0xC000 - a)) }

/-! ### Gangs and barriers -/

/-- The live tasks of a gang. -/
def gangSlots (s : State) (launch gang : Nat) : List Nat :=
  (s.slots.filter fun e => !(e.2.state == .empty) && e.2.task.launch == launch && e.2.task.gang == gang &&
    decide (0 < e.2.task.gangSize)).map (·.1)

def slotArrived (s : State) (k : Nat) : Bool :=
  let x := slotAt s k
  x.task.arrived || (x.ganged && k % 2 == 1 && (slotAt s (k - 1)).task.arrived)

/-- The earlier events of a slot are all performed at a scope. -/
def allPerformed (s : State) (th : Nat) (sc : Scope) : Bool :=
  s.iq.all (fun e => !(e.thread == th)) && (s.transit.filter fun e => e.thread == th).all (writePerformed sc)

/-- A barrier completes when every live task has arrived and its events are performed at cluster scope (R217, R253). -/
def barrierTry (s : State) (launch gang : Nat) : State :=
  let l := gangSlots s launch gang
  if !l.isEmpty && l.all (fun k => slotArrived s k && allPerformed s k .cluster) then
    l.foldl (fun s k =>
      if (slotAt s k).task.arrived then
        completeOf (modSlot s k fun x => { x with task := { x.task with arrived := false } }) (.slot k)
      else s) s
  else s

/-- Barriers of the gang of a thread, after one of its events is performed. -/
def barrierOfThread (s : State) (th : Nat) : State :=
  let x := slotAt s th
  if slotArrived s th then barrierTry s x.task.launch x.task.gang else s

/-! ### The end of a task -/

/-- Wake the partner that was parked in GANG, or any slot, without retiring: used when a partner disappears. -/
def partnerOf (k : Nat) : Nat := if k % 2 = 0 then k + 1 else k - 1

/-- A matrix instruction that does not hold its entries leaves the engine's queue (R182). -/
def dropMatrix (s : State) (k : Nat) : State :=
  modCore s (coreOfSlot k) fun c => { c with matrixQueue := c.matrixQueue.filter fun j => !(j.2 == k) }

/-- Whether the slot's matrix instruction holds its entries. -/
def matrixHeld (s : State) (k : Nat) : Bool :=
  match (coreAt s (coreOfSlot k)).matrixRun with | some r => r.slot == k | none => false

/-- The empty slot that a task leaves: the window registers, quoin and the clocks of the wheel stay (R50). -/
def SlotSt.emptied (x : SlotSt) : SlotSt :=
  { SlotSt.reset with last := x.last, rdy := x.rdy, lmbase := x.lmbase, lmbound := x.lmbound, quoin := x.quoin }

/-- A SLOTKILL that waits for the end of a task writes status 0 (R224). -/
def wakeKillers (s : State) (k : Nat) : State :=
  let done := fun (t : State) (ag : Agent) => match parkOfAg t ag with
    | some { cont := .kill d j, .. } => if j = k then completeOf (setRegOf t ag d 0) ag else t
    | _ => t
  let s1 := s.slots.foldl (fun t e => done t (.slot e.1)) s
  s.apps.foldl (fun t e => done t (.app e.1)) s1

/-- A task ends (R50, R201, R216, R313): its writes whose bytes are known go on (R254), tenures end, transfers are cancelled after a kill
and go on after an exit, the window is zeroed, the bank freed, the sequencer emptied, and the slot becomes Empty. -/
def endTask (s : State) (k : Nat) (killed : Bool) : State :=
  let x := slotAt s k
  let s1 := discardWhere s k fun e => !isReadyWrite e
  let s2 := endTenures s1 k none
  let s3 := if killed then cancelTransfers s2 k none else orphanTransfers s2 k
  let s4 := freeBank (dropMatrix s3 k) k
  let s5 := clearLocal s4 (coreOfSlot k) (winBase x) (winLen x)
  let s6 := modCore (modSlot s5 k SlotSt.emptied) (coreOfSlot k) fun c =>
    { c with bankQueue := c.bankQueue.filter fun j => !(j == k) }
  let s7 := wakeKillers s6 k
  if x.task.gangSize = 0 then s7 else barrierTry s7 x.task.launch x.task.gang

/-- The first fault of a launch decides its colophon (R329). -/
def faultLaunch (s : State) (k kind cause : Nat) (p : Word) (status : Nat) : State :=
  let t := (slotAt s k).task
  modLaunch s t.launch fun l =>
    if l.status = 0 ∧ partOfSlot s k = some l.part then
      { l with status := status, cause := cause, killKind := kind, faultTask := t.taskid.toNat % 2 ^ 32, faultPc := p }
    else l

/-! ### Halyard frames (R300 to R304) and unwinding (R306, R307) -/

/-- The frame at a depth, 1 being the outermost. -/
def frameAt (x : SlotSt) (d : Nat) : Option Frame := x.frames[x.frames.length - d]?

/-- Put the callers' s11 to s31 back. -/
def restoreSaved (x : ScalarSt) (v : Regs 21) : ScalarSt :=
  { x with s := Vector.ofFn fun i : Fin 32 => if h : 11 ≤ i.val then v[i.val - 11]'(by omega) else x.s[i] }

/-- Pop the innermost frame as GRET does (R221, R302): the callee's window is zeroed, the callee's bank is freed and the caller's returns, a spilled frame is refilled (R301),
tenures and transfers of the depth end, and the caller's state returns. -/
def popFrame (s : State) (k : Nat) : State :=
  let x := slotAt s k
  match x.frames with
  | [] => s
  | f :: rest =>
    let d := x.frames.length
    let s1 := if x.vec.bank.isSome then freeBank s k else s
    let frames := refilled s (partOfSlot s k) x.hspill d rest
    let s2 := cancelTransfers (endTenures s1 k (some d)) k (some d)
    let s3 := clearLocal s2 (coreOfSlot k) (winBase x) (winLen x)
    modSlot s3 k fun y =>
      { y with sc := { restoreSaved y.sc f.saved with pc := f.ret, g := f.g, lc0 := f.lc0, lc1 := f.lc1 },
               tr := { y.tr with thandler := f.thandler },
               vec := { y.vec with bank := f.bank },
               world := f.caller, lmbase := f.lmbase, lmbound := f.lmbound, frames := frames, deadline := f.mark }

def isRevoked (s : State) (id : Nat) : Bool := (worldOf s id).revoked
/-- The callee of a frame is revoked, or was since the call (R306, R309). -/
def frameRevoked (s : State) (f : Frame) : Bool := isRevoked s f.callee || (worldOf s f.callee).epoch != f.epoch

/-- The frames below the source of a frame's window (R304, R307): for a caller's window or segment the caller; for the caller's own g7, or
a segment of its that is a window, the source of the frame below. -/
def windowSource : List Frame → List Frame
  | [] => []
  | f :: rest =>
    let wd := f.window.toNat
    let onward := wd / 2 ^ 62 = 2 ∨
      (wd / 2 ^ 62 = 1 ∧ (f.g.toList.getD (wd / 2 ^ 59 % 8) Seg.void).w0.toNat / 2 ^ 57 % 8 = 5)
    if onward then windowSource rest else rest

/-- The world of a slot's task is revoked, or was since the task started (R296, R309). -/
def taskRevoked (s : State) (x : SlotSt) : Bool := isRevoked s x.task.world || (worldOf s x.task.world).epoch != x.task.epoch

/-- The world that supplied the window of the innermost frame is revoked, or was since it supplied it (R307, R309). -/
def windowRevoked (s : State) (x : SlotSt) (l : List Frame) : Bool :=
  match windowSource l with
  | [] => taskRevoked s x
  | f :: _ => frameRevoked s f

/-- Whether the cleanup of frame f at depth d runs (R307). -/
def runsCleanup (s : State) (u : Unwind) (f : Frame) (d : Nat) : Bool :=
  f.cleanup != 0 && !f.cleaning && (worldOf s f.callee).live && !frameRevoked s f &&
  u.skipFrame != some d && u.skipWorld != some f.callee

/-- Start the cleanup of the innermost frame (R307, R343). -/
def startCleanup (s : State) (k : Nat) (u : Unwind) (f : Frame) (rest : List Frame) : State :=
  let void := windowRevoked s (slotAt s k) (f :: rest)
  let f1 := { f with cleaning := true, status := u.status, window := if void then 0 else f.window }
  let s1 := modSlot s k fun x =>
    { x with frames := f1 :: rest, unwind := some { u with cleanup := some (s.cycle + 4096) },
             deadline := some (s.cycle + 4096), tr := { x.tr with thandler := 0, tl := 0 },
             sc := { x.sc with pc := w64 f.cleanup }, state := .ready, park := none, rdy := s.cycle }
  setRegOf (setRegOf s1 (.slot k) 3 (w64 u.status)) (.slot k) 4 f.gate

/-- Slot 15 halts for good, with its registers kept, and its partition's source is raised (R310). -/
def haltForGood (s : State) (k : Nat) : State :=
  let p : Park := { reason := .held, abandon := false, cont := .stopped }
  deliverEvent (modSlot s k fun x => { x with unwind := none, state := .parked, park := some p }) (64 + (partOfSlot s k).getD 0)

/-- The end of an unwind: slot 15 halts (R310), or the task ends, with its record and its launch's status, or the caller of the affected
frame resumes (R307, R313). Kind 8 marks the other slot of a killed pair, whose record names the slot killed (R44). -/
def finishUnwind (s : State) (k : Nat) (u : Unwind) : State :=
  if u.halts then haltForGood s k
  else match u.kill with
  | some (kind, cause, p) =>
    if kind = 8 then endTask s k true else
    let s1 := faultLaunch s k kind cause p (if kind = 6 then 3 else 1)
    postRecord (endTask s1 k true) k (recordEntry s k u.tlAt u.worldAt cause kind p)
  | none =>
    let s1 := modSlot s k fun x =>
      { x with unwind := none, state := .ready, park := none, rdy := s.cycle,
               sc := { x.sc with s := Vector.ofFn fun i : Fin 32 =>
                 if i.val = 3 then w64 u.status else if i.val = 4 then u.gate
                 else if 5 ≤ i.val ∧ i.val ≤ 10 then 0 else x.sc.s[i] } }
    s1

/-- Go on with an unwind from the innermost frame, for at most n frames. -/
def unwindFrom (s : State) (k : Nat) : Nat → State
  | 0 => s
  | n + 1 =>
    let x := slotAt s k
    match x.unwind with
    | none => s
    | some u =>
      match x.frames with
      | [] => finishUnwind s k u
      | f :: rest =>
        if x.frames.length < u.affected then finishUnwind s k u
        else if runsCleanup s u f x.frames.length then startCleanup s k u f rest
        else
          let s1 := modSlot s k fun y =>
            { y with unwind := some { u with cleanup := none, gate := f.gate }, frames := { f with cleaning := true } :: rest }
          let pop := unwindFrom (popFrame s1 k) k n
          match refillOf s (partOfSlot s k) x.hspill x.frames.length rest with
          | .frames _ => pop
          | .absent a st => parkOf s1 (.slot k) .notPresent true (.fault a st false 4 false)
          | .moving fr => parkOf s1 (.slot k) .notPresent true (.moving fr)
          | .poisoned =>
            if u.kill.isSome || u.halts then pop
            else modSlot s1 k fun y => { y with stopKill := some (7, 0, y.sc.pc) }

/-- An unwind that stopped in the middle of its frames goes on once the slot has left its park (R301). -/
def unwindStopped (x : SlotSt) : Bool :=
  x.state == .ready && x.stopKill.isNone && (match x.unwind with | some u => u.cleanup.isNone | none => false)

/-- The order of causes that affect one frame: kill, revocation, budget, trap (R306). -/
def Unwind.rank (u : Unwind) : Nat := if u.kill.isSome || u.halts then 0 else u.status

/-- A cause of unwinding arrives at a slot that has stopped (R306). The lower affected frame governs, then the rank. -/
def startUnwind (s : State) (k : Nat) (u : Unwind) : State :=
  let x := slotAt s k
  match x.unwind with
  | some v =>
    let w := if u.affected < v.affected || (u.affected == v.affected && decide (u.rank < v.rank)) then
        { u with cleanup := v.cleanup, gate := v.gate, skipFrame := if u.skipFrame.isSome then u.skipFrame else v.skipFrame } else v
    let s1 := modSlot s k fun y => { y with unwind := some w }
    if v.cleanup.isSome then s1 else unwindFrom s1 k 10
  | none =>
    -- The frozen entries of the trap that is discarded go, or the sequencer would stay frozen.
    let s0 := if x.vec.frozen then dropEntries s k else s
    let s1 := modSlot s0 k fun y => { y with unwind := some u, tr := { y.tr with tl := 0 }, park := none, state := .ready }
    unwindFrom s1 k 10

/-- A cleanup ends, by its GRET, a trap or its deadline: the frame is discarded and the unwind goes on (R307). -/
def endCleanup (s : State) (k : Nat) : State :=
  match (slotAt s k).unwind with
  | some u => unwindFrom (modSlot s k fun y => { y with unwind := some { u with cleanup := none }, tr := { y.tr with tl := 0 } }) k 10
  | none => s

def inCleanup (x : SlotSt) : Bool := match x.unwind with | some u => u.cleanup.isSome | none => false

/-! ### Leaving a park, and kills -/

/-- A park that completes before the slot stops (R305); so does one whose reason has cleared. -/
def completesFirst (s : State) (k : Nat) : Bool :=
  match (slotAt s k).park with
  | some p => p.cont != .cleared && (p.cont != .resume || !heldNow s (slotAt s k)) &&
              (p.reason == .memory || p.reason == .divide || p.reason == .sequencer || p.cont == .resume ||
              ((p.reason == .matrix || p.reason == .galley) && (p.cont == .matrix || p.cont == .matrixAgain) && matrixHeld s k))
  | none => false

/-- Abandon the park of a slot, with no effect of its instruction (R305). -/
def abandonPark (s : State) (k : Nat) : State :=
  let x := slotAt s k
  match x.park with
  | none => s
  | some p =>
    let s1 := modSlot s k fun y => { y with state := .ready, park := none, rdy := s.cycle,
                                            task := { y.task with arrived := false } }
    match p.cont with
    | .tenure _ h _ _ =>
      let s2 := modSlot s1 k fun y => { y with eng := { y.eng with tenures := y.eng.tenures.filter fun e => !(e.handle == h) } }
      match partOfSlot s k with
      | some q => withdraw s2 q (h % 2 ^ 20) k
      | none => s2
    | .bank _ | .restore _ _ _ => modCore s1 (coreOfSlot k) fun c =>
        { c with bankQueue := c.bankQueue.filter fun j => !(j == k) }
    | .matrix => modSlot (dropMatrix s1 k) k fun y => { y with vec := { y.vec with seq := y.vec.seq.dropLast } }
    | .matrixAgain => dropMatrix s1 k
    | _ => s1

/-- The thread's own g0 to g3 and world return, as TRET at TL2 would return them (R306, R312). -/
def leaveTl2 (x : SlotSt) : SlotSt :=
  if x.tr.tl = 2 then
    { x with world := x.tr.heldWorld, tr := { x.tr with tl := 0 },
             sc := { x.sc with g := Vector.ofFn fun i : Fin 8 =>
               if h : i.val < 4 then x.tr.heldG[i.val]'h else x.sc.g[i] } }
  else { x with tr := { x.tr with tl := 0 } }

/-- The world of the interrupted thread (R338). -/
def threadWorld (x : SlotSt) : Nat := if x.tr.tl = 2 then x.tr.heldWorld else x.world

/-- The unwind of a kill (R306): its status, and the world of the trap that caused it. -/
def killCause (x : SlotSt) (kind cause : Nat) (p : Word) (trapWorld : Nat) : Unwind :=
  { affected := 1, status := if kind = 5 ∨ kind = 6 then 1 else 3, kill := some (kind, cause, p), skipFrame := none,
    skipWorld := if kind = 1 ∨ kind = 2 then some trapWorld else none, cleanup := none, gate := 0,
    worldAt := threadWorld x, tlAt := x.tr.tl, halts := false }

/-- Kill the context of one slot (R313): it leaves its park, its events that are not accepted, bound or performed are discarded (R254), its
halyard unwinds from frame 1, its task ends. -/
def killOne (s : State) (k : Nat) (u : Unwind) : State :=
  if (slotAt s k).state == .empty then s else
  let s1 := dropEntries (discardEvents (dropMatrix (abandonPark s k) k) k) k
  startUnwind (modSlot s1 k fun x => { leaveTl2 x with stopKill := none }) k u

/-- The partner that shares the fate of a slot: ganged with it, or split from it (R44). -/
def pairedWith (s : State) (k : Nat) : Option Nat :=
  let j := partnerOf k
  if (slotAt s k).ganged || (slotAt s k).state == .splitWait || (slotAt s j).state == .splitWait then some j else none

/-- Slot 15 halts with its registers kept, once its halyard is unwound with status 3 (R310): the cleanup of the frame that trapped at
tl = 0, or the cleanups of the world that trapped at tl = 1, are skipped as for a fatal trap and for a kill (log entry 67). -/
def haltSupervisor (s : State) (k : Nat) : State :=
  let x := slotAt s k
  if x.frames.isEmpty then haltForGood s k else startUnwind s k
    { affected := 1, status := 3, kill := none, skipFrame := if x.tr.tl = 0 then some x.frames.length else none,
      skipWorld := if x.tr.tl = 0 then none else some x.world, cleanup := none, gate := 0, worldAt := x.world, tlAt := x.tr.tl,
      halts := true }

/-- Kill the context of a slot; a kill of either slot of a pair ends both (R44). The record names the slot killed. Slot 15 runs no task:
it halts (R310). -/
def killSlot (s : State) (k kind cause : Nat) (p : Word) : State :=
  if slotNo k = 15 then haltSupervisor s k else
  let u := killCause (slotAt s k) kind cause p (threadWorld (slotAt s k))
  match pairedWith s k with
  | some j =>
    let s1 := modSlot (modSlot s k fun x => { x with ganged := false }) j fun x => { x with ganged := false }
    let s2 := killOne s1 j { u with kill := some (8, cause, p) }
    deliverEvent (killOne s2 k u) (64 + (partOfSlot s k).getD 0)
  | none => deliverEvent (killOne s k u) (64 + (partOfSlot s k).getD 0)

/-- The outermost depth whose frame has a revoked callee (R306). -/
def revokedDepth (s : State) (x : SlotSt) : Option Nat :=
  ((List.range x.frames.length).map (· + 1)).find? fun i => match frameAt x i with | some f => frameRevoked s f | none => false

/-- The unwinding that a revocation begins (R306). -/
def revokeCause (x : SlotSt) (a w : Nat) : Unwind :=
  { affected := a, status := 1, kill := none, skipFrame := none, skipWorld := some w, cleanup := none, gate := 0,
    worldAt := x.world, tlAt := x.tr.tl, halts := false }

/-- The outermost depth whose deadline has expired: the deadline of depth i is the mark of frame i + 1, and the current one is
that of the innermost depth. -/
def expiredDepth (s : State) (x : SlotSt) : Option Nat :=
  let passed := fun (d : Option Nat) => match d with | some c => decide (c ≤ s.cycle) | none => false
  let n := x.frames.length
  (List.range (n + 1)).find? fun i =>
    decide (1 ≤ i) && passed (if i = n then x.deadline else ((frameAt x (i + 1)).map (·.mark)).getD none)

/-- The unwinding a passed deadline begins: status 2, outward to depth a (R305, R306). -/
def budgetCause (x : SlotSt) (a : Nat) : Unwind :=
  { affected := a, status := 2, kill := none, skipFrame := none, skipWorld := none, cleanup := none, gate := 0,
    worldAt := x.world, tlAt := x.tr.tl, halts := false }

/-- Of the revocation and the passed deadlines that stand for a slot, the one that governs: the lower affected frame, a revocation first
(R306). -/
def standingCause (s : State) (x : SlotSt) : Option Unwind :=
  match revokedDepth s x, expiredDepth s x with
  | some a, some b =>
    some (if b < a then budgetCause x b else revokeCause x a (((frameAt x a).map (·.callee)).getD 0))
  | some a, none => some (revokeCause x a (((frameAt x a).map (·.callee)).getD 0))
  | none, some b => some (budgetCause x b)
  | none, none => none

/-! ### Taking a trap (R310 to R313, R106) -/

/-- TL1 entry (R311). -/
def tl1Entry (s : State) (ag : Agent) (cw : Nat) (v p : Word) : State :=
  let h := (trOf s ag).thandler
  setPcOf (modTrOf s ag fun t => { t with tcause1 := w64 cw, tepc1 := p, tval1 := v, tl := 1 }) ag h

/-- A doubleword of a core's local memory. -/
def localWord (s : State) (core a : Nat) : Word := w64 (leNat (memReadBytes s.mem (flatLocal core a) 8))

/-- TL2 entry (R312): the record, the level, the world, the supervisor's segments and the PC change in one step. -/
def tl2Entry (s : State) (k : Nat) (cw : Nat) (v p : Word) : State :=
  let x := slotAt s k
  let core := coreOfSlot k
  let b := x.sgbase.toNat
  let sg := fun (i : Nat) => ({ w0 := localWord s core (b + 16 * i), w1 := localWord s core (b + 16 * i + 8) } : Seg)
  let s1 := modSlot s k fun y =>
    { y with state := .ready, park := none, rdy := if y.state == .ready then y.rdy else s.cycle,
             world := worldId ((partOfSlot s k).getD 0) 0,
             tr := { y.tr with tcause2 := w64 cw, tepc2 := p, tval2 := v, tl := 2, heldWorld := y.world,
                               heldG := Vector.ofFn fun i : Fin 4 => y.sc.g[i.val]'(by omega) },
             sc := { y.sc with pc := 0, g := Vector.ofFn fun i : Fin 8 => if i.val < 4 then sg i.val else y.sc.g[i] } }
  postRecord s1 k (recordEntry s k 1 x.world (cw % 256) 0 p)

/-- A trap at TL1 enters TL2, or waits with reason 13 while both record entries of the slot are taken (R314). -/
def tl2OrWait (s : State) (k cw : Nat) (v p : Word) : State :=
  if recordsOf (coreAt s (coreOfSlot k)) k < 2 then tl2Entry s k cw v p
  else parkOf s (.slot k) .record false (.tl2 cw p v)

/-- A trap splits a ganged pair (R43). -/
def splitPair (s : State) (k : Nat) (p : Word) : State :=
  if (slotAt s k).ganged then
    modSlot (modSlot s k fun x => { x with ganged := false }) (partnerOf k) fun x =>
      { x with ganged := false, state := .splitWait, park := none, sc := { x.sc with pc := p } }
  else s

/-- Take the trap with cause word cw (the cause, DEF and FLAGS), value v and PC p (R310). -/
def takeTrapOf (s : State) (ag : Agent) (cw : Nat) (v p : Word) : State :=
  match ag with
  | .app n =>
    if tlOf s ag = 0 then tl1Entry s ag cw v p
    else deliverEvent (modApp s n fun x => { x with halted := true }) (166 + n)
  | .slot k =>
    let s0 := splitPair s k p
    let x := slotAt s0 k
    if inCleanup x then endCleanup s0 k
    else if slotNo k = 15 then
      if x.tr.tl = 0 && x.tr.thandler != 0 then tl1Entry s0 ag cw v p else haltSupervisor s0 k
    else if x.tr.tl = 2 then killSlot s0 k 1 (cw % 256) p
    else if x.tr.tl = 1 then tl2OrWait s0 k cw v p
    else if x.tr.thandler = 0 then
      if x.frames.isEmpty then killSlot s0 k 2 (cw % 256) p
      else startUnwind s0 k ((standingCause s0 x).getD
        { affected := x.frames.length, status := 3, kill := none, skipFrame := some x.frames.length, skipWorld := none,
          cleanup := none, gate := 0, worldAt := x.world, tlAt := 0, halts := false })
    else tl1Entry s0 ag cw v p

/-- The executor takes a trap at its own instruction. -/
def takeTrap (s : State) (cause : Nat) (v : Word) : State := takeTrapOf s s.cur cause v (pc s)

/-- Trap of a meaning: the block ends there (R23). -/
def trap {α : Type} (s : State) (cause : Nat) (v : Word) : Run α := .error (takeTrap s cause v)

/-- An illegal instruction: 0x01 with the word (R107). -/
def illegal {α : Type} (s : State) : Run α := trap s 0x01 (s.word.setWidth 64)
/-- A privileged instruction outside its mode: 0x02 with the word (R104, R107). -/
def privTrap {α : Type} (s : State) : Run α := trap s 0x02 (s.word.setWidth 64)

/-- A trap whose value the spec does not state: the value is free (log entry 4). -/
def trapFree {α : Type} (s : State) (cause : Nat) : Run α := trap (bumpFree s) cause (Config.freeWord s.free)

/-- TRET (R224, R106): the return from TL1 and from TL2. -/
def returnFromTrap (s : State) : Run State :=
  match s.cur with
  | .app n =>
    if tl s = 0 then illegal s else
    .ok (modApp (setPcOf s s.cur (trOf s s.cur).tepc1) n fun x =>
      { x with tr := { x.tr with tl := 0 },
               sc := { x.sc with uienEn := x.sc.uienEn || x.tr.tcause1.toNat % 256 == 0x20 } })
  | .slot k =>
    let x := slotAt s k
    if x.tr.tl = 0 then illegal s
    else if x.tr.tl = 1 then .ok (awaitMatrix (modSlot s k fun y =>
      { y with sc := { y.sc with pc := y.tr.tepc1 }, tr := { y.tr with tl := 0 }, vec := { y.vec with frozen := false } }) k)
    else .ok (modSlot s k fun y =>
      let z := leaveTl2 y
      { z with sc := { z.sc with pc := y.tr.tepc2 }, tr := { z.tr with tl := 1 } })

end Sys2Proof.Machine
end

