-- ==== Sys2Proof/Machine/Operands.lean ====
section
/-! DEFINITION. Operand forms: fat pointers and segments (R108 to R114), argument windows (R304), the two stages of
translation (R346 to R353), tile footprints (R256, R271), and the accesses of scalar and engine instructions. -/

namespace Sys2Proof.Machine

/-! ### Segments -/

def Seg.kind (g : Seg) : Nat := bits g.w0.toNat 59 57
def Seg.base (g : Seg) : Nat := g.w0.toNat % 2 ^ 57
def Seg.limit (g : Seg) : Nat := g.w1.toNat % 2 ^ 48
/-- The rights: bit 0 R, 1 W, 2 X, 3 A, 4 T (R110). -/
def Seg.rights (g : Seg) : Nat := bits g.w1.toNat 52 48
def Seg.locked (g : Seg) : Bool := bits g.w1.toNat 53 53 == 1
/-- A segment of kind 0, 6 or 7, or with nonzero reserved bits, behaves as void (R110). -/
def Seg.isVoid (g : Seg) : Bool :=
  g.kind == 0 || g.kind == 6 || g.kind == 7 || g.w0.toNat / 2 ^ 60 != 0 || g.w1.toNat / 2 ^ 54 != 0
/-- The register without its reserved bits, which read as 0 and ignore writes (R9, R110). A set that the device loads may hold them, and
then the segment behaves as void although they read as 0 (log entry 64). -/
def Seg.tidy (g : Seg) : Seg := { w0 := g.w0 &&& w64 (2 ^ 60 - 1), w1 := g.w1 &&& w64 (2 ^ 54 - 1) }
def Seg.mk2 (kind base limit rights : Nat) : Seg :=
  { w0 := w64 (kind * 2 ^ 57 + base % 2 ^ 57), w1 := w64 (rights % 32 * 2 ^ 48 + limit % 2 ^ 48) }

def rR : Nat := 1
def rW : Nat := 2
def rX : Nat := 4
def rA : Nat := 8
def rT : Nat := 16

/-- a has every right of b. -/
def hasRights (a b : Nat) : Bool := a &&& b == b

/-- A write to a segment register narrows it (R111). -/
def Seg.narrows (old new : Seg) : Bool :=
  old.kind == new.kind && hasRights old.rights new.rights && decide (old.base ≤ new.base) &&
  decide (new.base + new.limit ≤ old.base + old.limit) && !old.locked && !new.locked

/-- A fat pointer passes R109. -/
def ptrOk (p : Word) : Bool :=
  bits p.toNat 55 48 == 0 && decide (bits p.toNat 63 59 < 22) && bits p.toNat 58 56 != 7
def ptrOff (p : Word) : Nat := p.toNat % 2 ^ 48

/-- Where a checked access goes: a byte address of its storage. -/
inductive Target where
  | lm (core a : Nat)
  | sp (cluster a : Nat)
  | paged (cva : Nat) (dom : Option Nat)
  deriving DecidableEq, Repr

/-- The effective rights of a segment for the executor: at TL2 nothing is stored through g4 to g7 (R312). -/
def effRights (s : State) (k : BitVec 3) (g : Seg) : Nat :=
  if !isApp s.cur && tl s == 2 && decide (4 ≤ k.toNat) then g.rights &&& 29 else g.rights

/-- The key domain of an access through a segment of the executor (R378). -/
def domOf (s : State) (k : BitVec 3) : Option Nat :=
  match s.cur with
  | .app _ => none
  | .slot j => let x := slotAt s j
    if x.tr.tl = 2 && decide (4 ≤ k.toNat) then some x.tr.heldWorld else some x.world

/-- Where the local memory that a slot may reach ends (R46). -/
def localEnd (k : Nat) : Nat := if slotNo k = 15 then 0xC000 else 0xB000

/-- The window check of R48, and the range of R46. -/
def localOk (s : State) (k a size : Nat) : Bool :=
  if slotNo k = 15 then decide (a + size ≤ localEnd k)
  else let x := slotAt s k
    decide (winBase x ≤ a) && decide (a + size ≤ winBase x + winLen x) && decide (a + size ≤ localEnd k)

/-- The mode of the scratchpad bank of an offset is SCRATCH. -/
def scratchMode (s : State) (cl a : Nat) : Bool := ((clusterAt s cl).modes.toList.getD (a / 2 ^ 17) 0) == 1

/-- The storage of a checked CVA of kind local, scratch or paged (R114). win is true for local memory of a caller's
window: GCALL has checked that it lies in the caller's window, which leaves the range of R46. -/
def storage (s : State) (kind cva size : Nat) (off : Int) (dom : Option Nat) (win : Bool) : Run Target :=
  match kind with
  | 2 => match s.cur with
    | .slot k => if (if win then decide (cva + size ≤ localEnd k) else localOk s k cva size) then .ok (.lm (coreOfSlot k) cva) else trap s 0x03 (w64 cva)
    | .app _ => trap s 0x03 (w64 cva)
  | 3 => match s.cur with
    | .slot k =>
      if 0x1FFFFF < cva + size - 1 then trap s 0x03 (w64 cva)
      else if isGateway (coreOfSlot k) || !scratchMode s (clusterOfSlot k) cva then trap s 0x1A (w64 cva)
      else .ok (.sp (clusterOfSlot k) cva)
    | .app _ => trap s 0x1A (w64 cva)
  | _ => if 2 ^ 57 ≤ cva + size - 1 then trap s 0x03 (ofInt off) else .ok (.paged cva dom)

/-- The checks of R114 against one segment: kind and rights, range, alignment. -/
def segChecks (s : State) (g : Seg) (eff : Nat) (off : Int) (size align need : Nat) : Run Nat :=
  if g.isVoid || !hasRights eff need then trap s 0x04 (ofInt off)
  else if off < 0 ∨ (g.limit : Int) < off + size - 1 then trap s 0x03 (ofInt off)
  else
    let cva := g.base + off.toNat
    if cva % align ≠ 0 then trap s 0x06 (w64 cva) else .ok cva

/-- Where the bytes of an argument window lie: nowhere, in the caller's local memory from an address on, or in a caller's segment
from an offset on (R304). -/
inductive WindowEnd where
  | void
  | loc (base : Nat) (dom : Nat)
  | seg (g : Seg) (add : Nat) (dom : Nat)
  deriving DecidableEq, Repr

/-- The window of g7, resolved at the frames from the innermost (R304, R342): the callers' segments that an access passes, each with
what it adds to the g7 offset, and where the bytes lie. add is what the frames so far add. -/
def windowChain : List Frame → Nat → List (Seg × Nat) × WindowEnd
  | [], _ => ([], .void)
  | f :: rest, add =>
    let wd := f.window.toNat
    if bits wd 55 32 = 0 then ([], .void)
    else
      let src := wd / 2 ^ 62
      let at_ := add + wd % 2 ^ 32
      if src = 0 then ([], .loc (bits f.lmbase.toNat 15 8 * 256 + at_) f.caller)
      else if src = 1 then
        let g := f.g.toList.getD (bits wd 61 59) Seg.void
        if g.kind = 5 then
          let r := windowChain rest (at_ + g.base)
          ((g, at_) :: r.1, r.2)
        else ([(g, at_)], .seg g at_ f.caller)
      else if src = 2 then windowChain rest (at_ + (f.g[7]).base)
      else ([], .void)

/-- The storage of size bytes at g7 offset o. -/
def windowTarget (s : State) (e : WindowEnd) (size o : Nat) : Run Target :=
  match e with
  | .void => trapFree s 0x13
  | .loc base dom => storage s 2 (base + o) size (base + o) (some dom) true
  | .seg g add dom => storage s g.kind (g.base + (add + o)) size (add + o) (some dom) false

/-- The checks of the callers' segments that an access at g7 offset o passes. -/
def windowChecks (s : State) (size align need o : Nat) : List (Seg × Nat) → Run Unit
  | [] => .ok ()
  | (g, add) :: rest =>
    match segChecks s g g.rights (add + o) size align need with
    | .error e => .error e
    | .ok _ => windowChecks s size align need o rest

/-- An access through g7 at offset o. -/
def windowPath (s : State) (size align need : Nat) (l : List Frame) (o : Nat) : Run Target :=
  let c := windowChain l 0
  match windowChecks s size align need o c.1 with
  | .error e => .error e
  | .ok _ => windowTarget s c.2 size o

/-- The frames of the executing slot. -/
def myFrames (s : State) : List Frame := match s.cur with | .slot k => (slotAt s k).frames | .app _ => []

/-- The address path of R114 through a segment value, from the pointer to the storage. -/
def segPath (s : State) (g : Seg) (eff : Nat) (dom : Option Nat) (p : Word) (disp : Int) (size align need : Nat) : Run Target :=
  if !ptrOk p then trap s 0x05 p
  else
    let off : Int := (ptrOff p : Int) + disp
    match segChecks s g eff off size align need with
    | .error e => .error e
    | .ok cva =>
      if g.kind = 5 then windowPath s size align need (myFrames s) cva
      else storage s g.kind cva size off dom false

/-- The address path of R114 through segment register k of the executor. -/
def addrPath (s : State) (k : BitVec 3) (p : Word) (disp : Int) (size align need : Nat) : Run Target :=
  let g := segOf s s.cur k
  segPath s g (effRights s k g) (domOf s k) p disp size align need

/-! ### Translation -/

/-- Free choice among n things: no choice when there is only one. -/
def choose (s : State) (n : Nat) : State × Nat := if n ≤ 1 then (s, 0) else (bumpFree s, Config.freeChoice s.free % n)

def tlbFind (s : State) (cl p page : Nat) : Option Tlb := (clusterAt s cl).tlb.find? fun t => t.part == p && t.page == page
/-- The access counter of a stage-2 frame starts when its entry is first seen present (R356); it is that of the frame that the
entry names now. -/
def noteFrame (s : State) (t : Tlb) : State :=
  let at_ := t.flat / 2 ^ 21 * 2 ^ 21
  modPart s t.part fun p =>
    if p.frameCounts.any fun f => f.gpaFrame == t.gpa / 2 ^ 21 then
      { p with frameCounts := p.frameCounts.map fun f =>
          if f.gpaFrame = t.gpa / 2 ^ 21 ∧ f.moving = none then { f with flat := at_ } else f }
    else { p with frameCounts := p.frameCounts ++ [{ gpaFrame := t.gpa / 2 ^ 21, flat := at_, count := 0, moving := none }] }

/-- Keep a translation at a cluster port, 2,048 at most (R353). -/
def tlbKeep (s : State) (cl : Nat) (t : Tlb) : State :=
  noteFrame (modCluster s cl fun c =>
    let l := t :: c.tlb.filter fun u => !(u.part == t.part && u.page == t.page)
    { c with tlb := l.take 2048,
             tlbOld := (c.tlbOld ++ l.drop 2048 ++ c.tlb.filter fun u => u.part == t.part && u.page == t.page && u != t).eraseDups })
    t

/-- The cap of a memory type on the cache ceiling (R240). -/
def typeCap : Space → Nat
  | .dm => 3
  | .hm => 1
  | .pm | .lm | .sp => 0

/-- The access counter of a line's frame rises by 1, saturating at 255 (R356). -/
def countLine (s : State) (line : Nat) : State :=
  let up := fun (f : FrameCount) => if f.flat = line / 2 ^ 21 * 2 ^ 21 then { f with count := min 255 (f.count + 1) } else f
  { s with parts := s.parts.map fun p => (p.1, { p.2 with frameCounts := p.2.frameCounts.map up }) }

/-- An access of an effective ceiling and a hint reaches a line's home (R115, R240, R356). At C0 it is served from memory. Otherwise it
misses for certain only at C1 on a line that no slice can hold; else whether it misses is a free choice, since the replacement of
lines is not stated (log entry 62). A miss fills a slice and marks the line as the hint says, or with hint 0b10 fills none. -/
def noteFill (ceil hint : Nat) (s : State) (line : Nat) : State :=
  if ceil = 0 then countLine s line else
  let seen := s.parts.any fun p => p.2.frameCounts.any fun f => f.flat == line / 2 ^ 21 * 2 ^ 21
  let (s1, miss) := if seen && (ceil != 1 || (lookup s.llc line).isSome) then choose s 2 else (s, 1)
  if miss = 0 then s1
  else if hint = 2 then (if ceil = 1 then countLine s1 line else s1)
  else countLine { s1 with llc := insert s1.llc line (hint == 3) } line
def noteFills (s : State) (ceil hint : Nat) (addrs : List Nat) : State :=
  (linesIn (fun a => isDm a || isHost a) addrs).foldl (noteFill ceil hint) s

/-- A kept translation leads into a frame or a page that is being moved (R358, R362, R383). -/
def keptMoves (s : State) (t : Tlb) : Bool :=
  (match partAt s t.part with
   | some x => x.frameCounts.any fun f => f.gpaFrame == t.gpa / 2 ^ 21 && f.moving.isSome
   | none => false) || s.mod.pageMoves.contains (t.flat / 4096)

/-- Translate a page at a cluster port. A kept translation that differs from the tables may be used until PGINV (R354):
which of the two is a free choice. No translation completes while its frame is being moved (R358). -/
def translateAt (s : State) (cl p pva : Nat) : State × Xl :=
  let w := walk s p pva
  match tlbFind s cl p (pva / 4096) with
  | some t => if w = .ok t then (s, w) else if keptMoves s t then (s, .moving (t.gpa / 2 ^ 21)) else
    let (s1, i) := choose s 2
    if i = 0 then (s1, .ok t) else (match w with | .ok u => tlbKeep s1 cl u | _ => s1, w)
  | none =>
    let s1 := noteWalk s p pva
    match w with | .ok t => (tlbKeep s1 cl t, w) | _ => (s1, w)

/-! ### Tiles and footprints -/

/-- The page of a version that holds a footprint page index. -/
def versionPage (t : Tile) (v i : Nat) : Option Nat := (frameOf t v).bind fun f => f.pages[i]?

/-- The flat address of a footprint byte as a thread reads it now (R256, R352). -/
def footprintFlat (s : State) (th p pva : Nat) : Option Nat :=
  match footprintAt s p pva with
  | some (_, t) => (versionPage t (seenVersion t (launchOfThread s th)) ((pva - t.base) / 4096)).map (· + pva % 4096)
  | none => none

/-! ### Accesses -/

/-- One part of an access, inside one page. -/
structure Place where
  ty : Space
  addrs : List Nat
  dom : Option Nat
  foot : Option (Nat × List Nat)
  node : Nat
  /-- The effective cache ceiling and the hint (R115, R240). -/
  ceil : Nat
  hint : Nat := 0
  /-- Not a TLDV's. -/
  raw : Bool := true
  deriving DecidableEq, Repr

/-- Translate one page part of a paged access of the executor: footprint writes, presence, rights, seal (R138). kind is
the requester kind of R315; val is the trap value of a protection violation; part is the partition translated for. -/
def pagePart (s : State) (p cva size need kind : Nat) (val : Word) (dom : Option Nat) : Run (State × Place) :=
  if need &&& 2 ≠ 0 && (footprintAt s p cva).isSome then trapFree s 0x0D
  else
    let (s1, r) := translateAt s (myCluster s) p cva
    match r with
    | .notPresent a st => park s1 .notPresent true (.fault a st (need &&& 2 != 0) kind false)
    | .moving f => park s1 .notPresent true (.moving f)
    | .malformed => trap s1 0x15 val
    | .poisoned => trapFree s1 0x16
    | .ok t =>
      if !tlbAllows t need then trap s1 0x15 val
      else
        let fp := footprintFlat s1 (threadOf s.cur) p cva
        let flat := fp.getD (t.flat + cva % 4096)
        let pl : Place := { ty := t.space, addrs := seqNat flat size, dom := dom,
                            foot := if fp.isSome then some (p, seqNat cva size) else none, node := nodeOf flat,
                            ceil := min t.ceil (typeCap t.space) }
        if pl.addrs.all (lineOpens s1 dom) then .ok (s1, pl) else trapFree s1 0x16

/-- Split a range into parts that lie in one 4 KiB page each. -/
def pageParts (a : Nat) : Nat → Nat → List (Nat × Nat)
  | _, 0 => []
  | 0, _ => []
  | n + 1, size =>
    let k := min size (4096 - a % 4096)
    (a, k) :: pageParts (a + k) n (size - k)

/-- Resolve a checked target to its parts. -/
def placeParts (s : State) (need kind : Nat) (dom : Option Nat) (p : Nat) :
    List (Nat × Nat) → Run (State × List Place)
  | [] => .ok (s, [])
  | (a, n) :: rest =>
    match pagePart s p a n need kind (w64 a) dom with
    | .error e => .error e
    | .ok (s1, pl) =>
      match placeParts s1 need kind dom p rest with
      | .error e => .error e
      | .ok (s2, l) => .ok (s2, pl :: l)

def pageNeed (need : Nat) : Nat := need &&& 7

/-- The places of an access of size bytes at a target. -/
def places (s : State) (t : Target) (size need kind : Nat) : Run (State × List Place) :=
  match t with
  | .lm c a => .ok (s, [{ ty := .lm, addrs := seqNat (flatLocal c a) size, dom := none, foot := none, node := 0, ceil := 0 }])
  | .sp c a => .ok (s, [{ ty := .sp, addrs := seqNat (flatScratch c a) size, dom := none, foot := none, node := 0, ceil := 0 }])
  | .paged cva dom =>
    match s.cur with
    | .app _ =>
      -- An application core reaches device physical addresses (R335, log entry 7).
      if isDpa cva && isDpa (cva + size - 1) then
        let pl : Place := { ty := .dm, addrs := seqNat cva size, dom := none, foot := none, node := 0, ceil := 0 }
        if pl.addrs.all (lineOpens s none) then .ok (s, [pl]) else trapFree s 0x16
      else trap s 0x15 (w64 cva)
    | .slot k =>
      match partOfSlot s k with
      | none => trap s 0x15 (w64 cva)
      | some p => placeParts s (pageNeed need) kind dom p (pageParts cva (size + 1) size)

/-- The whole path of a memory operand: from pointer to places. -/
def access (s : State) (k : BitVec 3) (p : Word) (disp : Int) (size align need kind : Nat) : Run (State × List Place) :=
  match addrPath s k p disp size align need with
  | .error e => .error e
  | .ok t => places s t size need kind

/-- The event of a place. Its number is given by pushEv. -/
def placeEv (th : Nat) (pl : Place) (k : EvKind) (data : List Byte) (o : Order) (sc : Scope) (path : List Point) : MemEv :=
  { id := 0, thread := th, kind := k, addrs := pl.addrs, data := data, order := o, scope := sc, space := pl.ty,
    dom := pl.dom, path := path, footprint := pl.foot, copyOffset := none, poisoned := false, launch := none, ceil := pl.ceil,
    hint := pl.hint, raw := pl.raw }

/-- Earlier accesses of the sequencer that touch a byte and are not performed (R162). -/
def vectorBlocks (s : State) (th : Nat) (addrs : List Nat) : List Nat :=
  (s.iq.filter fun e => e.thread == th && addrs.any (evCovers e)).map (·.id)

/-- A scalar access that touches bytes of an unperformed vector access waits with reason 4 (R142, R162). -/
def holdForVector (s : State) (addrs : List Nat) : Run Unit :=
  match s.cur with
  | .app _ => .ok ()
  | .slot k => match vectorBlocks s k addrs with
    | [] => .ok ()
    | ids => park s .sequencer false (.retryEvents ids)

/-- Ordered instructions wait with reason 4 for every earlier vector access (R162). -/
def holdForAllVector (s : State) : Run Unit :=
  match s.cur with
  | .app _ => .ok ()
  | .slot k => match (s.iq.filter fun e => e.thread == k).map (·.id) with
    | [] => .ok ()
    | ids => park s .sequencer false (.retryEvents ids)

/-- Scopes on local memory and scratchpad: system is performed as cluster (R98). -/
def effScope (ty : Space) (sc : Scope) : Scope := if nearSpace ty && sc == .system then .cluster else sc

/-- Extend a loaded value (R132). -/
def extendLoad (size : Nat) (signed : Bool) (v : Nat) : Word := if signed then ofInt (sx v (8 * size)) else w64 v

/-- The lines that an L1D keeps after a load, 512 at most: 32 KiB (R240). DESIGN CHOICE (log entry 63): it keeps the lines loaded last, from
the issue of the load on; which lines it holds decides only whether a load parks (R133). A line with hint 0b11 goes where the next one
replaces it (R115). -/
def fillL1d (s : State) (core a hint : Nat) : State :=
  modCore s core fun c =>
    let others := c.l1d.filter fun x => !(x == a / 64)
    { c with l1d := if hint = 3 then others.take 511 ++ [a / 64] else (a / 64 :: others).take 512 }

/-- Whether a load is served without parking: by local memory or by the L1D (R133). -/
def servedAtOnce (s : State) (pl : Place) : Bool :=
  pl.ty == .lm || (match s.cur with
    | .slot k => pl.ty == .dm && pl.ceil == 3 && (coreAt s (coreOfSlot k)).l1d.contains ((pl.addrs.getD 0 0) / 64)
    | .app _ => false)

/-- A load, once its place is known (R132, R133, R134). -/
def loadAt (s : State) (d : BitVec 5) (size : Nat) (signed : Bool) (pl : Place) (o : Order) (sc : Scope) : State :=
  let th := threadOf s.cur
  let e := placeEv th pl .read [] o (effScope pl.ty sc) (viewPath s th pl.ty pl.node)
  if servedAtOnce s pl && bindOk s { e with id := s.nextId } then
    retire (wr s d (extendLoad size signed (leNat (threadBytes s th pl.ty pl.addrs))))
  else parkOf (pushEv s e) s.cur .memory false (.load d size signed s.nextId)

/-- A store, once its place is known (R133): accepted at issue when the ordering machine permits, else parked. -/
def storeAt (s : State) (size : Nat) (v : Word) (pl : Place) (o : Order) (sc : Scope) : State :=
  let th := threadOf s.cur
  let e := { placeEv th pl .write (leBytes size v.toNat) o (effScope pl.ty sc) (pathOf s th pl.ty pl.node) with id := s.nextId }
  if acceptOk s e then retire (acceptEv (bumpId s) e)
  else parkOf (pushEv s e) s.cur .memory false (.store s.nextId)

/-- An atomic, once its place is known (R135, R250). -/
def atomicAt (s : State) (d : BitVec 5) (wide : Bool) (op : AmoOp) (b x : Nat) (pl : Place) (o : Order) (sc : Scope) : State :=
  let th := threadOf s.cur
  let e := { placeEv th pl (.atomic op b x) [] o (effScope pl.ty sc) (pathOf s th pl.ty pl.node) with id := s.nextId }
  if pl.ty == .lm && atomicOk s e then
    let old := leNat (pl.addrs.map (homeByte s th))
    let s1 := match amoNew op (8 * pl.addrs.length) old b x with
      | some v => reachHome s th pl.addrs (leBytes pl.addrs.length v)
      | none => s
    retire (wr s1 d (if wide then w64 old else ofInt (sx old 32)))
  else parkOf (pushEv s e) s.cur .memory false (.atomic d wide s.nextId)

/-- The first of the places of an access; there is one for an access inside a page. -/
def onePlace (r : Run (State × List Place)) : Run (State × Place) :=
  match r with
  | .error e => .error e
  | .ok (s, pl :: _) => .ok (s, pl)
  | .ok (s, []) => trapFree s 0x15

/-- A place of a peer whose port is down (R368). -/
def placeDown (s : State) (pl : Place) : Bool := linkDown s (placeEv (threadOf s.cur) pl .read [] .relaxed .thread [])
/-- A read of a place is counted where it is served (R356, R382). -/
def notePlace (s : State) (pl : Place) : State := noteFills (noteElided s pl.addrs) pl.ceil pl.hint pl.addrs

/-- Read a range at once, as an engine command does, through a segment of the executor (right R). -/
def readRange (s : State) (k : BitVec 3) (p : Word) (disp : Int) (size align kind : Nat) : Run (State × List Byte) :=
  match access s k p disp size align rR kind with
  | .error e => .error e
  | .ok (s1, l) =>
    let addrs := (l.map (·.addrs)).flatten
    match holdForVector s1 addrs with
    | .error e => .error e
    | .ok _ =>
      if l.any (placeDown s1) then trapFree s1 0x16
      else .ok (l.foldl notePlace s1, (l.map fun pl => threadBytes s1 (threadOf s.cur) pl.ty pl.addrs).flatten)

/-- Accept writes of bytes at places, in ascending order, as relaxed writes of the executor (R133, R400). -/
def writePlaces (s : State) (l : List Place) (data : List Byte) : State :=
  match l with
  | [] => s
  | pl :: rest =>
    let th := threadOf s.cur
    let n := pl.addrs.length
    let e := { placeEv th pl .write (data.take n) .relaxed .thread (pathOf s th pl.ty pl.node) with id := s.nextId }
    writePlaces (acceptEv (bumpId s) e) rest (data.drop n)

end Sys2Proof.Machine
end

