-- ==== Sys2Proof/Machine/Inbox.lean ====
section
/-! DEFINITION. Task records, deques and the overflow list (R212, R280), counters (R211, R284), messages and inboxes (R214,
R239, R285). -/

namespace Sys2Proof.Machine

/-- The virtual-time floor of a partition (R287). -/
def floorOf (s : State) (p : Option Nat) : Nat := match p.bind (partAt s) with | some x => x.floor | none => 0
def gvtOf (s : State) (p : Option Nat) : Nat := match p.bind (partAt s) with | some x => x.gvt | none => 0

/-! ### Deques -/

/-- The 32 bytes of a task record (R212). -/
def recordBytes (r : TaskRec) : List Byte :=
  leBytes 4 r.entry ++ leBytes 4 r.launch ++ (r.tile.toList.map fun x => leBytes 2 x.toNat).flatten ++
  leBytes 2 r.flags ++ leBytes 4 r.arg ++ leBytes 4 r.counter ++ leBytes 8 r.stamp

/-- The spill area holds the records 65 to 128 of the deque, in order (R231, R280, log entry 10). -/
def spillDeque (s : State) (core : Nat) : State :=
  let l := ((coreAt s core).deque.drop 64).take 64
  (l.mapIdx fun i r => (i, r)).foldl (fun t q =>
    reachHome t (slotKey core 15) (seqNat (flatLocal core (0xB800 + 32 * q.1)) 32) (recordBytes q.2)) s

/-- The overflow list of a partition is full (R213). -/
def overflowFull (s : State) (p : Nat) : Bool :=
  match partAt s p with | some x => decide (2 ^ x.overflowLog2 ≤ x.overflow.length) | none => true

/-- A record leaves the top of a deque for the partition's overflow ring. -/
def handOver (s : State) (p : Nat) (r : TaskRec) : State :=
  match partAt s p with
  | none => s
  | some x =>
    let s1 := devWrite s p (x.overflowPva + 32 * x.overflowTail) (recordBytes r)
    modPart s1 p fun y => { y with overflow := y.overflow ++ [r], overflowTail := (y.overflowTail + 1) % 2 ^ y.overflowLog2 }

/-- Records that the deque of a core holds. DESIGN CHOICE (log entry 48): a gateway core, which has no deque, hands every record to the
overflow list. -/
def dequeRoom (core : Nat) : Nat := if isGateway core then 0 else 128

/-- A push may proceed: the deque has room, or the overflow list has. -/
def pushRoom (s : State) (core : Nat) : Bool :=
  decide ((coreAt s core).deque.length < dequeRoom core) || (match partOfCore s core with | some p => !overflowFull s p | none => false)

/-- A record whose launch has ended, or is discarded, lost or cancelled, starts nowhere (R281, R329). -/
def recordDead (s : State) (r : TaskRec) : Bool :=
  match launchOf s r.launch with
  | some l => l.phase == 2 || l.status == 2 || l.status == 3 || l.status == 5 || isRevoked s l.world
  | none => true

/-- The deque of a core without the ended records that have reached either end (R281). -/
def liveDeque (s : State) (core : Nat) : List TaskRec :=
  (((coreAt s core).deque.dropWhile (recordDead s)).reverse.dropWhile (recordDead s)).reverse

/-- The clock's pushes on a deque, with one more. -/
def onePush (s : State) (core : Nat) : Option (Nat × Nat) :=
  match (coreAt s core).pushClock with
  | some (c, n) => if c = s.cycle then some (c, n + 1) else some (s.cycle, 1)
  | none => some (s.cycle, 1)

/-- Push a record at the bottom of a deque (R280): beyond 128 records the top one goes to the overflow list. -/
def pushRecord (s : State) (core : Nat) (r : TaskRec) : State :=
  let l := r :: liveDeque s core
  let s1 := spillDeque (modCore s core fun c => { c with deque := l.take (dequeRoom core), pushClock := onePush s core }) core
  match l.drop (dequeRoom core), partOfCore s core with
  | top :: _, some p => handOver s1 p top
  | _, _ => s1

/-- A check of R326 refused the launch, whether or not its colophon is written: byte 18 of it names the check (R329). -/
def isRefused (l : Launch) : Bool := l.status == 4 || (l.status == 1 && l.reason != 0 && l.reason != 7)

/-- The launch that a record or a slot names, when it is one of the partition of the core. -/
def launchAt (s : State) (core id : Nat) : Option Launch := (launchOf s id).filter fun l => partOfCore s core == some l.part

/-! ### Counters -/

def nameCluster (n : Nat) : Nat := bits n 30 24
def nameGen (n : Nat) : Nat := bits n 23 12
def nameIx (n : Nat) : Nat := bits n 11 0
/-- The name of an index (R211). -/
def counterName (cl gen ix : Nat) : Nat := cl * 2 ^ 24 + gen * 2 ^ 12 + ix

/-- The generation of an index: 1 before its first counter. -/
def counterGen (c : ClusterSt) (ix : Nat) : Nat := match lookup c.counters ix with | some x => x.gen | none => 1

/-- The live counter of a name, in a partition (R211). -/
def counterAt (s : State) (p name : Nat) : Option Counter :=
  let cl := nameCluster name
  if partOfCluster s cl ≠ some p ∨ name / 2 ^ 31 ≠ 0 then none else
  match lookup (clusterAt s cl).counters (nameIx name) with
  | some c => if c.live && c.gen == nameGen name then some c else none
  | none => none

/-- Free the counter of an index: its generation advances, from 4,095 to 1 (R211, R284). -/
def freeCounter (s : State) (cl ix : Nat) : State :=
  modCluster s cl fun c => match lookup c.counters ix with
    | some x => { c with counters := insert c.counters ix { x with live := false, gen := if x.gen = 4095 then 1 else x.gen + 1 } }
    | none => c

/-- Free the counters of a partition that meet a condition. -/
def freeCounters (s : State) (p : Nat) (f : Counter → Bool) : State :=
  (s.clusters.flatMap fun e => (e.2.counters.filter fun c => c.2.live && c.2.part == p && f c.2).map fun c => (e.1, c.1)).foldl
    (fun t q => freeCounter t q.1 q.2) s

/-- The lowest index of a counter table that is free. -/
def freeCounterFrom (i : Nat) : Assoc Counter → Nat
  | [] => i
  | (j, c) :: rest => if j = i ∧ c.live then freeCounterFrom (i + 1) rest else if j < i then freeCounterFrom i rest else i
def freeCounterIx (c : ClusterSt) : Nat := freeCounterFrom 0 c.counters

/-! ### Messages -/

/-- The reply of a message reaches a slot that waits for it (R214). -/
def replyAck (s : State) (m : Msg) (v : Nat) : State :=
  match m.ack with
  | none => s
  | some k => match (slotAt s k).park with
    | some { cont := .ack a i, .. } => if i = m.id then completeOf (setRegOf s (.slot k) a (w64 v)) (.slot k) else s
    | _ => s

/-- A message is dropped, and counted (R214, source 12 of R397). -/
def dropMessage (s : State) (m : Msg) : State := countCluster (replyAck s m 1) (nameCluster m.name) 12 1

/-- Hardware entries of the inbox queue in use, and FIFO entries in use of a bank of the cluster (R239). -/
def hardUsed (c : CoreSt) : Nat := (c.delivered.filter fun d => d.recordOf.isNone && !d.posted && d.fifo.isNone).length
def fifoUsed (s : State) (cl b : Nat) : Nat :=
  (s.cores.map fun e => if clusterOfCore e.1 = cl then (e.2.delivered.filter fun d => d.fifo == some b).length else 0).sum
/-- The FIFO bank of lowest number with a free entry. -/
def fifoFree (s : State) (cl : Nat) : Option Nat :=
  (List.range 16).find? fun b => (clusterAt s cl).modes.toList.getD b 0 == 2 && decide (fifoUsed s cl b < 1024)
/-- The inbox of a core is full (R239). -/
def inboxFull (s : State) (core : Nat) : Bool :=
  decide (32 ≤ hardUsed (coreAt s core)) && (fifoFree s (clusterOfCore core)).isNone

/-- Whether the network still carries the message's write to its home (R253). -/
def inTransit (s : State) (m : Msg) : Bool := !m.remote && (s.iq.any (·.id == m.id) || s.transit.any (·.id == m.id))

/-- The port that a partition's route table gives for a peer, when it is up and wholly within its lanes (R367). -/
def routeOf (s : State) (p node : Nat) : Option Nat :=
  match partAt s p with
  | none => none
  | some x =>
    let port := (x.routes.toList.getD node 0xFF).toNat
    if port = 0xFF ∨ x.lanes.getD port 0 = 0 then none
    else if (lookupD s.mod.ports port Port.reset).up then some port else none

/-- A message to a counter of a peer leaves on its port; with no port in service it is lost (R368, R369). -/
def sendPeer (s : State) (m : Msg) : State :=
  let node := bits m.name 37 32
  match routeOf s m.part node with
  | some _ => modMod s fun x => { x with sentMessages := x.sentMessages ++ [(node, m)] }
  | none => countCluster (replyAck s m 1) m.cluster 12 1

/-- A message of the network that its sender core sent earlier, with the same stamp, to the same inbox. -/
def sentBefore (s : State) (m x : Msg) : Bool :=
  let owner := fun (y : Msg) => (counterAt s y.part y.name).map (·.ownerCore)
  decide (x.id < m.id) && x.cluster == m.cluster && x.core == m.core && x.remote == m.remote && x.part == m.part && x.stamp == m.stamp &&
  (owner m).isSome && owner x == owner m

/-- A message at the home of its counter goes into the owner core's inbox; one whose counter is gone is dropped, and a full
inbox holds it back in the network (R214, R284). Messages of one core with equal stamps reach an inbox in the order sent (R285). -/
def arriveOne (s : State) (m : Msg) : State :=
  if inTransit s m || s.network.any (sentBefore s m) then s else
  let gone := { s with network := s.network.filter fun x => !(x.id == m.id) }
  if m.name / 2 ^ 63 = 1 then sendPeer gone m else
  match counterAt s m.part m.name with
  | none => dropMessage gone m
  | some c =>
    if inboxFull s c.ownerCore then s
    else modCore gone c.ownerCore fun x => { x with inbox := x.inbox ++ [{ m with since := s.cycle }] }
def arrive (s : State) : State := s.network.foldl arriveOne s

/-- Send a message of a slot (R214, R215): a relaxed write of partition scope to the counter, and the message itself. -/
def sendMessage (s : State) (k name : Nat) (payload : List Word) (ack : Bool) : State :=
  let core := coreOfSlot k
  let p := partOfSlot s k
  let stamp := max (coreAt s core).vtime.toNat (floorOf s p)
  let m : Msg := { id := s.nextId, name := name, stamp := stamp, cluster := clusterOfCore core, core := core % 16,
                   part := p.getD 64, world := (slotAt s k).world,
                   launch := (slotAt s k).task.launch, payload := payload, since := 0,
                   ack := if ack then some k else none, remote := false }
  let e : MemEv := { id := 0, thread := k, kind := .write, addrs := [], data := [], order := .relaxed, scope := .partition,
                     space := .dm, dom := none, path := pathOf s k .dm 0, footprint := none, copyOffset := none,
                     poisoned := false, launch := none }
  pushEv { s with network := s.network ++ [m] } e

/-- The order of delivery (R214, R285): stamp, sender cluster, sender core, order of sending. -/
def before (m n : Msg) : Bool :=
  decide (m.stamp < n.stamp) || (m.stamp == n.stamp && (decide (m.cluster < n.cluster) || (m.cluster == n.cluster &&
    (decide (m.core < n.core) || (m.core == n.core && decide (m.id < n.id))))))
def firstMsg : List Msg → Option Msg
  | [] => none
  | m :: rest => match firstMsg rest with
    | some n => if before n m then some n else some m
    | none => some m

/-- LATE: the stamp lies below that of a message delivered before, and not below the gvt in force then (R214, R285). -/
def isLate (c : CoreSt) (stamp : Nat) : Bool := c.marks.any fun q => decide (stamp < q.1) && decide (q.2 ≤ stamp)
/-- Note a delivery; a stamp no greater than one noted adds nothing, since gvt never decreases. -/
def noteMark (c : CoreSt) (stamp gvt : Nat) : CoreSt :=
  if c.marks.any fun q => decide (stamp ≤ q.1) then c else { c with marks := c.marks ++ [(stamp, gvt)] }

/-- The message-arrival event becomes pending in every slot of a core that runs a world (R214, R225). -/
def messageEvent (s : State) (core world : Nat) : State :=
  let runs := fun (e : Nat × SlotSt) => coreOfSlot e.1 == core &&
    (if slotNo e.1 = 15 then false else e.2.state != .empty && e.2.world == world)
  let s1 := (s.slots.filter runs).foldl (fun t e => setPend t e.1 1) s
  if world = worldId ((partOfCore s core).getD 64) 0 then wakeSupervisor s1 core else s1

/-- The header of a delivered message (R214). -/
def headerOf (m : Msg) (late : Bool) : Word :=
  w64 (m.core % 16 * 2 ^ 24 + m.cluster % 128 * 2 ^ 17 + flag late * 2 ^ 16 + m.payload.length * 2 ^ 12 + nameIx m.name)

/-- The queue entry of a message, in the hardware inbox or in a FIFO bank (R239). -/
def queueMessage (s : State) (core : Nat) (world : Nat) (m : Msg) (late : Bool) : State :=
  if m.payload.isEmpty then s else
  let fifo := if hardUsed (coreAt s core) < 32 then none else fifoFree s (clusterOfCore core)
  modCore s core fun c => { c with delivered := c.delivered ++
    [{ world := world, header := headerOf m late, payload := m.payload, recordOf := none, posted := false, fifo := fifo }] }

/-- The state of a counter after a delivery; the record is pushed when the count reaches 0 (R214, R286). -/
def countDown (s : State) (core : Nat) (m : Msg) (c : Counter) : State :=
  let cl := nameCluster m.name
  let g := max c.greatest m.stamp
  let s1 := modCluster s cl fun x =>
    { x with counters := insert x.counters (nameIx m.name) { c with count := c.count - 1, greatest := g } }
  if c.count ≤ 1 then
    let r := { c.record with stamp := max g (floorOf s (some c.part)) }
    pushRecord (freeCounter s1 cl (nameIx m.name)) core r
  else s1

/-- Deliver a held message of a core, in one step (R214). A delivery that has no room, in the inbox or for the record, stays
held. -/
def deliver (s : State) (core : Nat) (m : Msg) : State :=
  let took := modCore s core fun c => { c with inbox := c.inbox.filter fun x => !(x.id == m.id), inboxClock := some s.cycle }
  match counterAt s m.part m.name with
  | none => dropMessage took m
  | some c =>
    if c.world ≠ m.world ∧ !m.remote then dropMessage took m
    else if (!m.payload.isEmpty && inboxFull s core) || (c.count ≤ 1 && !pushRoom s core) then s
    else
      let late := isLate (coreAt s core) m.stamp
      let s1 := modCore took core fun x => noteMark x m.stamp (gvtOf s (some m.part))
      let s2 := messageEvent (queueMessage s1 core c.world m late) core c.world
      let s3 := if late then countCore s2 core 9 none 1 else s2
      replyAck (countDown s3 core m c) m 0

/-- The message that the inbox of a core delivers next, with whether its hold has ended (R285). -/
def nextMessage (s : State) (core : Nat) : Option (Msg × Bool) :=
  let c := coreAt s core
  if c.inboxClock = some s.cycle then none
  else (firstMsg c.inbox).map fun m => (m, decide (m.since + 64 ≤ s.cycle))

end Sys2Proof.Machine
end

