-- ==== Sys2Proof/Machine/Scalar.lean ====
section
/-! DEFINITION. The scalar register instructions: arithmetic, immediates, multiply and divide, bit manipulation (R117 to
R123). -/

namespace Sys2Proof.Machine

/-- Write a register and retire (R116). -/
def writeRetire (s : State) (d : BitVec 5) (v : Word) : State := retire (wr s d v)
/-- The outcome of an instruction whose whole effect is one register. -/
def setReg (s : State) (d : BitVec 5) (v : Word) : Out := .next (writeRetire s d v)

/-- Bits 5:0 of a shift amount (R117). -/
def shiftAmount (b : Word) : Nat := b.toNat % 64
def boolWord (b : Bool) : Word := if b then 1 else 0
/-- SX of bits 31:0. -/
def sextW (x : Word) : Word := (x.setWidth 32).signExtend 64
/-- SX and ZX of an immediate (R96). -/
def immS (i : BitVec 16) : Word := i.signExtend 64
def immZ (i : BitVec 16) : Word := i.setWidth 64

/-! ### ALU (R117) -/

def aluAdd (a b : Word) : Word := a + b
def execAdd (d a b : BitVec 5) (s : State) : Out := setReg s d (aluAdd (rd s a) (rd s b))

def aluSub (a b : Word) : Word := a - b
def execSub (d a b : BitVec 5) (s : State) : Out := setReg s d (aluSub (rd s a) (rd s b))

def aluAnd (a b : Word) : Word := a &&& b
def execAnd (d a b : BitVec 5) (s : State) : Out := setReg s d (aluAnd (rd s a) (rd s b))

def aluOr (a b : Word) : Word := a ||| b
def execOr (d a b : BitVec 5) (s : State) : Out := setReg s d (aluOr (rd s a) (rd s b))

def aluXor (a b : Word) : Word := a ^^^ b
def execXor (d a b : BitVec 5) (s : State) : Out := setReg s d (aluXor (rd s a) (rd s b))

def aluAndn (a b : Word) : Word := a &&& ~~~b
def execAndn (d a b : BitVec 5) (s : State) : Out := setReg s d (aluAndn (rd s a) (rd s b))

def aluShl (a b : Word) : Word := a <<< shiftAmount b
def execShl (d a b : BitVec 5) (s : State) : Out := setReg s d (aluShl (rd s a) (rd s b))

def aluShr (a b : Word) : Word := a >>> shiftAmount b
def execShr (d a b : BitVec 5) (s : State) : Out := setReg s d (aluShr (rd s a) (rd s b))

def aluSar (a b : Word) : Word := a.sshiftRight (shiftAmount b)
def execSar (d a b : BitVec 5) (s : State) : Out := setReg s d (aluSar (rd s a) (rd s b))

def aluRol (a b : Word) : Word := a.rotateLeft (shiftAmount b)
def execRol (d a b : BitVec 5) (s : State) : Out := setReg s d (aluRol (rd s a) (rd s b))

def aluMin (a b : Word) : Word := if a.slt b then a else b
def execMin (d a b : BitVec 5) (s : State) : Out := setReg s d (aluMin (rd s a) (rd s b))

def aluMax (a b : Word) : Word := if a.slt b then b else a
def execMax (d a b : BitVec 5) (s : State) : Out := setReg s d (aluMax (rd s a) (rd s b))

def aluMinn (a b : Word) : Word := if a < b then a else b
def execMinn (d a b : BitVec 5) (s : State) : Out := setReg s d (aluMinn (rd s a) (rd s b))

def aluMaxn (a b : Word) : Word := if a < b then b else a
def execMaxn (d a b : BitVec 5) (s : State) : Out := setReg s d (aluMaxn (rd s a) (rd s b))

def aluSlt (a b : Word) : Word := boolWord (a.slt b)
def execSlt (d a b : BitVec 5) (s : State) : Out := setReg s d (aluSlt (rd s a) (rd s b))

def aluSltn (a b : Word) : Word := boolWord (a.ult b)
def execSltn (d a b : BitVec 5) (s : State) : Out := setReg s d (aluSltn (rd s a) (rd s b))

def aluSeq (a b : Word) : Word := boolWord (a == b)
def execSeq (d a b : BitVec 5) (s : State) : Out := setReg s d (aluSeq (rd s a) (rd s b))

def aluSne (a b : Word) : Word := boolWord (a != b)
def execSne (d a b : BitVec 5) (s : State) : Out := setReg s d (aluSne (rd s a) (rd s b))

def aluAddw (a b : Word) : Word := sextW (a + b)
def execAddw (d a b : BitVec 5) (s : State) : Out := setReg s d (aluAddw (rd s a) (rd s b))

def aluSubw (a b : Word) : Word := sextW (a - b)
def execSubw (d a b : BitVec 5) (s : State) : Out := setReg s d (aluSubw (rd s a) (rd s b))

/-! ### Immediates (R118, R119) -/

def execAddi (d a : BitVec 5) (i : BitVec 16) (s : State) : Out := setReg s d (rd s a + immS i)
def execAndi (d a : BitVec 5) (i : BitVec 16) (s : State) : Out := setReg s d (rd s a &&& immS i)
def execOri (d a : BitVec 5) (i : BitVec 16) (s : State) : Out := setReg s d (rd s a ||| immZ i)
def execXori (d a : BitVec 5) (i : BitVec 16) (s : State) : Out := setReg s d (rd s a ^^^ immZ i)
def execSlti (d a : BitVec 5) (i : BitVec 16) (s : State) : Out := setReg s d (boolWord ((rd s a).slt (immS i)))
def execSltni (d a : BitVec 5) (i : BitVec 16) (s : State) : Out := setReg s d (boolWord ((rd s a).ult (immZ i)))
def execShli (d a : BitVec 5) (n : BitVec 6) (s : State) : Out := setReg s d (rd s a <<< n.toNat)
def execShri (d a : BitVec 5) (n : BitVec 6) (s : State) : Out := setReg s d (rd s a >>> n.toNat)
def execSari (d a : BitVec 5) (n : BitVec 6) (s : State) : Out := setReg s d ((rd s a).sshiftRight n.toNat)
def execRoli (d a : BitVec 5) (n : BitVec 6) (s : State) : Out := setReg s d ((rd s a).rotateLeft n.toNat)
def execMovi (d : BitVec 5) (i : BitVec 16) (s : State) : Out := setReg s d (immS i)

/-- The 16 bits at group k, sign-extended upward, over the groups below (R119). -/
def litValue (x : Word) (k : BitVec 2) (i : BitVec 16) : Word :=
  let n := 16 * k.toNat
  (immS i <<< n) ||| (x &&& (w64 (2 ^ n - 1)))
def execLit (d : BitVec 5) (k : BitVec 2) (i : BitVec 16) (s : State) : Out := setReg s d (litValue (rd s d) k i)

/-! ### Multiply and divide (R120, R121) -/

def execMul (d a b : BitVec 5) (s : State) : Out := setReg s d (rd s a * rd s b)
def execMulh (d a b : BitVec 5) (s : State) : Out := setReg s d (ofInt ((rd s a).toInt * (rd s b).toInt / 2 ^ 64))
def execMulhn (d a b : BitVec 5) (s : State) : Out := setReg s d (w64 ((rd s a).toNat * (rd s b).toNat / 2 ^ 64))
def execMulw (d a b : BitVec 5) (s : State) : Out := setReg s d (sextW (rd s a * rd s b))

/-- The integer divide-by-zero trap enable, `fpmode` bit 8 (R57, R121). -/
def idz (s : State) : Bool := (scOf s s.cur).fpmode.getLsbD 8

/-- The result of each divide; zero divisors give the results of R121. -/
def quotS (a b : Word) : Word := if b = 0 then BitVec.allOnes 64 else a.sdiv b
def quotU (a b : Word) : Word := if b = 0 then BitVec.allOnes 64 else a / b
def remS (a b : Word) : Word := if b = 0 then a else a.srem b
def remU (a b : Word) : Word := if b = 0 then a else a % b
def quotW (a b : Word) : Word :=
  let x : BitVec 32 := a.setWidth 32
  let y : BitVec 32 := b.setWidth 32
  if y = 0 then BitVec.allOnes 64 else (x.sdiv y).signExtend 64
def remW (a b : Word) : Word :=
  let x : BitVec 32 := a.setWidth 32
  let y : BitVec 32 := b.setWidth 32
  if y = 0 then sextW a else (x.srem y).signExtend 64

/-- A divide: its checks at issue, then a park of the given length, after which its result is written (R120, R121). An
application core does not park (R116). -/
def divide (s : State) (d : BitVec 5) (dividend divisor result : Word) (clocks : Nat) : Run State :=
  if divisor = 0 && idz s then trap s 0x07 dividend
  else match s.cur with
    | .app _ => .ok (writeRetire s d result)
    | .slot _ => park s .divide false (.divide d result (s.cycle + clocks))

def execDiv (d a b : BitVec 5) (s : State) : Out := (divide s d (rd s a) (rd s b) (quotS (rd s a) (rd s b)) 34).out
def execDivn (d a b : BitVec 5) (s : State) : Out := (divide s d (rd s a) (rd s b) (quotU (rd s a) (rd s b)) 34).out
def execRem (d a b : BitVec 5) (s : State) : Out := (divide s d (rd s a) (rd s b) (remS (rd s a) (rd s b)) 34).out
def execRemn (d a b : BitVec 5) (s : State) : Out := (divide s d (rd s a) (rd s b) (remU (rd s a) (rd s b)) 34).out
/-- The divisor that the width of DIVW and REMW takes. -/
def divisorW (b : Word) : Word := b &&& 0xFFFFFFFF
def execDivw (d a b : BitVec 5) (s : State) : Out :=
  (divide s d (rd s a) (divisorW (rd s b)) (quotW (rd s a) (rd s b)) 18).out
def execRemw (d a b : BitVec 5) (s : State) : Out :=
  (divide s d (rd s a) (divisorW (rd s b)) (remW (rd s a) (rd s b)) 18).out

/-- DIVIDE_DONE: at its clock the result is written and the slot becomes Ready at the next instruction (R120). -/
def execDivideDone (slot : Nat) (s : State) : Out :=
  match (slotAt s slot).park with
  | some { cont := .divide d v due, .. } =>
    if due ≤ s.cycle then .next (completeOf (setRegOf s (.slot slot) d v) (.slot slot)) else .next s
  | _ => .next s

/-! ### Bit manipulation (R122, R123) -/

/-- The number of zero bits above the highest set bit of the n low bits. -/
def clzNat (x : Word) : Nat → Nat
  | 0 => 0
  | n + 1 => if x.getLsbD n then 0 else 1 + clzNat x n
/-- The number of zero bits below the lowest set bit, counted from bit i over n bits. -/
def ctzNat (x : Word) (i : Nat) : Nat → Nat
  | 0 => 0
  | n + 1 => if x.getLsbD i then 0 else 1 + ctzNat x (i + 1) n
def popNat (x : Word) : Nat → Nat
  | 0 => 0
  | n + 1 => (if x.getLsbD n then 1 else 0) + popNat x n

def execClz (d a : BitVec 5) (s : State) : Out := setReg s d (w64 (clzNat (rd s a) 64))
def execCtz (d a : BitVec 5) (s : State) : Out := setReg s d (w64 (ctzNat (rd s a) 0 64))
def execPopc (d a : BitVec 5) (s : State) : Out := setReg s d (w64 (popNat (rd s a) 64))
def execBrev (d a : BitVec 5) (s : State) : Out := setReg s d (rd s a).reverse
def execSextb (d a : BitVec 5) (s : State) : Out := setReg s d (((rd s a).setWidth 8).signExtend 64)
def execSexth (d a : BitVec 5) (s : State) : Out := setReg s d (((rd s a).setWidth 16).signExtend 64)
def execSextw (d a : BitVec 5) (s : State) : Out := setReg s d (sextW (rd s a))
def execZextb (d a : BitVec 5) (s : State) : Out := setReg s d (((rd s a).setWidth 8).setWidth 64)
def execZexth (d a : BitVec 5) (s : State) : Out := setReg s d (((rd s a).setWidth 16).setWidth 64)
def execZextw (d a : BitVec 5) (s : State) : Out := setReg s d (((rd s a).setWidth 32).setWidth 64)

/-- The position and the width of a field specification (R123). -/
def fieldPos (b : Word) : Nat := b.toNat % 64
def fieldWidth (b : Word) : Nat := min (b.toNat / 64 % 128) (64 - fieldPos b)
/-- The w low bits set. -/
def lowMask (w : Nat) : Word := w64 (2 ^ w - 1)
def bfxValue (a b : Word) : Word := (a >>> fieldPos b) &&& lowMask (fieldWidth b)
def bfiValue (x a b : Word) : Word :=
  let m := lowMask (fieldWidth b) <<< fieldPos b
  (x &&& ~~~m) ||| ((a <<< fieldPos b) &&& m)
def execBfx (d a b : BitVec 5) (s : State) : Out := setReg s d (bfxValue (rd s a) (rd s b))
def execBfi (d a b : BitVec 5) (s : State) : Out := setReg s d (bfiValue (rd s d) (rd s a) (rd s b))

end Sys2Proof.Machine
end

