-- ==== Sys2Proof/Machine/LoadStore.lean ====
section
/-! DEFINITION. Scalar loads and stores, ordered accesses, atomics and fences (R132 to R138), and the events that end
their parks. -/

namespace Sys2Proof.Machine

/-- Orders and scopes of format Q (R98). A scope above 4 is no instruction's. -/
def orderOf (p : BitVec 2) : Order :=
  if p = 0 then .relaxed else if p = 1 then .acquire else if p = 2 then .release else .acqRel
def scopeOf (c : BitVec 3) : Scope :=
  if c = 0 then .thread else if c = 1 then .core else if c = 2 then .cluster else if c = 3 then .partition else .system

/-- The hint of an L-format access (R115): 0b01 caps the ceiling at C2. -/
def hinted (pl : Place) (h : BitVec 2) : Place := { pl with ceil := if h = 1 then min pl.ceil 2 else pl.ceil, hint := h.toNat }

/-- A load that may allocate in the L1D leaves its line there (R240). -/
def noteLine (s : State) (pl : Place) : State :=
  match s.cur with
  | .slot k => if pl.ty == .dm && pl.ceil == 3 then fillL1d s (coreOfSlot k) (pl.addrs.getD 0 0) pl.hint else s
  | .app _ => s

/-- An L-format load (R132). -/
def load (s : State) (d a : BitVec 5) (g : BitVec 3) (h : BitVec 2) (o : BitVec 11) (size : Nat) (signed : Bool) : Run State := do
  let (s1, pl0) ← onePlace (access s g (rd s a) (o.toInt * size) size size rR 0)
  let pl := hinted pl0 h
  holdForVector s1 pl.addrs
  let t := loadAt s1 d size signed pl .relaxed .thread
  return noteLine t pl

/-- An L-format store (R132). -/
def store (s : State) (d a : BitVec 5) (g : BitVec 3) (h : BitVec 2) (o : BitVec 11) (size : Nat) : Run State := do
  let (s1, pl0) ← onePlace (access s g (rd s a) (o.toInt * size) size size rW 0)
  let pl := hinted pl0 h
  holdForVector s1 pl.addrs
  return storeAt s1 size (rd s d) pl .relaxed .thread

def execLdb (d a : BitVec 5) (g : BitVec 3) (h : BitVec 2) (o : BitVec 11) (s : State) : Out :=
  (load s d a g h o 1 true).out
def execLdbn (d a : BitVec 5) (g : BitVec 3) (h : BitVec 2) (o : BitVec 11) (s : State) : Out :=
  (load s d a g h o 1 false).out
def execLdh (d a : BitVec 5) (g : BitVec 3) (h : BitVec 2) (o : BitVec 11) (s : State) : Out :=
  (load s d a g h o 2 true).out
def execLdhn (d a : BitVec 5) (g : BitVec 3) (h : BitVec 2) (o : BitVec 11) (s : State) : Out :=
  (load s d a g h o 2 false).out
def execLdw (d a : BitVec 5) (g : BitVec 3) (h : BitVec 2) (o : BitVec 11) (s : State) : Out :=
  (load s d a g h o 4 true).out
def execLdwn (d a : BitVec 5) (g : BitVec 3) (h : BitVec 2) (o : BitVec 11) (s : State) : Out :=
  (load s d a g h o 4 false).out
def execLdd (d a : BitVec 5) (g : BitVec 3) (h : BitVec 2) (o : BitVec 11) (s : State) : Out :=
  (load s d a g h o 8 false).out
def execStb (d a : BitVec 5) (g : BitVec 3) (h : BitVec 2) (o : BitVec 11) (s : State) : Out :=
  (store s d a g h o 1).out
def execSth (d a : BitVec 5) (g : BitVec 3) (h : BitVec 2) (o : BitVec 11) (s : State) : Out :=
  (store s d a g h o 2).out
def execStw (d a : BitVec 5) (g : BitVec 3) (h : BitVec 2) (o : BitVec 11) (s : State) : Out :=
  (store s d a g h o 4).out
def execStd (d a : BitVec 5) (g : BitVec 3) (h : BitVec 2) (o : BitVec 11) (s : State) : Out :=
  (store s d a g h o 8).out

/-- An order other than relaxed waits for every earlier vector access; a relaxed one for those it touches (R162). -/
def holdOrdered (s : State) (p : BitVec 2) (addrs : List Nat) : Run Unit :=
  if p = 0 then holdForVector s addrs else holdForAllVector s

/-- LDO (R134): w gives the size. -/
def execLdo (d a : BitVec 5) (g : BitVec 3) (p : BitVec 2) (c : BitVec 3) (w : BitVec 2) (s : State) : Out :=
  Run.out do
    let n := 2 ^ w.toNat
    let (s1, pl) ← onePlace (access s g (rd s a) 0 n n rR 0)
    holdOrdered s1 p pl.addrs
    return loadAt s1 d n false pl (orderOf p) (scopeOf c)

/-- STO (R134). -/
def execSto (d a : BitVec 5) (g : BitVec 3) (p : BitVec 2) (c : BitVec 3) (w : BitVec 2) (s : State) : Out :=
  Run.out do
    let n := 2 ^ w.toNat
    let (s1, pl) ← onePlace (access s g (rd s a) 0 n n rW 0)
    holdOrdered s1 p pl.addrs
    return storeAt s1 n (rd s d) pl (orderOf p) (scopeOf c)

/-- AMO and AMOW (R135): the operand and the compare value are read before the access. -/
def amo (s : State) (d a b : BitVec 5) (g : BitVec 3) (p : BitVec 2) (c : BitVec 3) (wide : Bool) (op : AmoOp) : Run State := do
  let n := if wide then 8 else 4
  let (s1, pl) ← onePlace (access s g (rd s a) 0 n n (rR + rW + rA) 0)
  holdOrdered s1 p pl.addrs
  return atomicAt s1 d wide op ((rd s b).toNat % 2 ^ (8 * n)) ((rd s d).toNat % 2 ^ (8 * n)) pl (orderOf p) (scopeOf c)

def execAmoadd (d a b : BitVec 5) (g : BitVec 3) (p : BitVec 2) (c : BitVec 3) (s : State) : Out :=
  (amo s d a b g p c true .add).out
def execAmoand (d a b : BitVec 5) (g : BitVec 3) (p : BitVec 2) (c : BitVec 3) (s : State) : Out :=
  (amo s d a b g p c true .and).out
def execAmoor (d a b : BitVec 5) (g : BitVec 3) (p : BitVec 2) (c : BitVec 3) (s : State) : Out :=
  (amo s d a b g p c true .or).out
def execAmoxor (d a b : BitVec 5) (g : BitVec 3) (p : BitVec 2) (c : BitVec 3) (s : State) : Out :=
  (amo s d a b g p c true .xor).out
def execAmomin (d a b : BitVec 5) (g : BitVec 3) (p : BitVec 2) (c : BitVec 3) (s : State) : Out :=
  (amo s d a b g p c true .min).out
def execAmomax (d a b : BitVec 5) (g : BitVec 3) (p : BitVec 2) (c : BitVec 3) (s : State) : Out :=
  (amo s d a b g p c true .max).out
def execAmoswp (d a b : BitVec 5) (g : BitVec 3) (p : BitVec 2) (c : BitVec 3) (s : State) : Out :=
  (amo s d a b g p c true .swp).out
def execAmocas (d a b : BitVec 5) (g : BitVec 3) (p : BitVec 2) (c : BitVec 3) (s : State) : Out :=
  (amo s d a b g p c true .cas).out
def execAmowadd (d a b : BitVec 5) (g : BitVec 3) (p : BitVec 2) (c : BitVec 3) (s : State) : Out :=
  (amo s d a b g p c false .add).out
def execAmowand (d a b : BitVec 5) (g : BitVec 3) (p : BitVec 2) (c : BitVec 3) (s : State) : Out :=
  (amo s d a b g p c false .and).out
def execAmowor (d a b : BitVec 5) (g : BitVec 3) (p : BitVec 2) (c : BitVec 3) (s : State) : Out :=
  (amo s d a b g p c false .or).out
def execAmowxor (d a b : BitVec 5) (g : BitVec 3) (p : BitVec 2) (c : BitVec 3) (s : State) : Out :=
  (amo s d a b g p c false .xor).out
def execAmowmin (d a b : BitVec 5) (g : BitVec 3) (p : BitVec 2) (c : BitVec 3) (s : State) : Out :=
  (amo s d a b g p c false .min).out
def execAmowmax (d a b : BitVec 5) (g : BitVec 3) (p : BitVec 2) (c : BitVec 3) (s : State) : Out :=
  (amo s d a b g p c false .max).out
def execAmowswp (d a b : BitVec 5) (g : BitVec 3) (p : BitVec 2) (c : BitVec 3) (s : State) : Out :=
  (amo s d a b g p c false .swp).out
def execAmowcas (d a b : BitVec 5) (g : BitVec 3) (p : BitVec 2) (c : BitVec 3) (s : State) : Out :=
  (amo s d a b g p c false .cas).out

/-- The event of a fence. -/
def fenceEv (s : State) (p : BitVec 2) (c : BitVec 3) : MemEv :=
  { id := s.nextId, thread := threadOf s.cur, kind := .fence, addrs := [], data := [], order := orderOf p, scope := scopeOf c,
    space := .dm, dom := none, path := [], footprint := none, copyOffset := none, poisoned := false,
    launch := none }

/-- FENCE (R137, R251): it parks with reason 0 until its ordering holds. -/
def execFence (p : BitVec 2) (c : BitVec 3) (s : State) : Out :=
  Run.out do
    holdForAllVector s
    let e := fenceEv s p c
    if fenceOk s e then return retire (bumpId s)
    else return parkOf (pushEv s e) s.cur .memory false (.fence s.nextId)

/-- The reply to a parked access arrives (R133); a load of poisoned data traps precisely (R138). -/
def replyAccess (slot : Nat) (s : State) : Out :=
  let ag := agentOfThread slot
  let poisonTrap := fun (t : State) => .next (takeTrapOf (bumpFree (readyOf t ag)) ag 0x16 (Config.freeWord t.free) (pcOf t ag))
  match parkOfAg s ag with
  | some { cont := .load d size signed id, .. } =>
    (match evIn s.bound id with
    | some e =>
      if e.poisoned then poisonTrap (takeBound s id)
      else .next (completeOf (setRegOf (takeBound s id) ag d (extendLoad size signed (leNat e.data))) ag)
    | none => .next s)
  | some { cont := .atomic d wide id, .. } =>
    (match evIn s.bound id with
    | some e =>
      if e.poisoned then poisonTrap (takeBound s id)
      else
        let old := leNat e.data
        .next (completeOf (setRegOf (takeBound s id) ag d (if wide then w64 old else ofInt (sx old 32))) ag)
    | none => .next s)
  | some { cont := .store id, .. } => if (evIn s.iq id).isNone then .next (completeOf s ag) else .next s
  | some { cont := .launch a id, .. } =>
    if (evIn s.iq id).isNone then .next (completeOf (startTransfer s (keyOf ag) a) ag) else .next s
  -- The reply of a peer to a message: delivered or dropped there (R369).
  | some { cont := .ack a id, .. } =>
    if s.mod.sentMessages.any fun m => m.2.id == id then
      let (s1, i) := choose s 2
      .next (completeOf (setRegOf s1 ag a (w64 i)) ag)
    else .next s
  | some { cont := .reply d v, .. } => .next (completeOf (setRegOf s ag d v) ag)
  | some { cont := .table k image, .. } =>
    .next (completeOf (modCore s (coreOfSlot (keyOf ag)) fun c =>
      { c with tables := insert c.tables k { world := (slotAt s (keyOf ag)).world, image := image } }) ag)
  | some { cont := .fence id, .. } => if (evIn s.iq id).isNone then .next (completeOf s ag) else .next s
  | _ => .next s

/-- A slot held behind vector accesses goes on once they are performed (R142). -/
def wakeHeld (s : State) (th : Nat) : State :=
  match (slotAt s th).park with
  | some { cont := .retryEvents ids, .. } => if ids.all fun i => (evIn s.iq i).isNone then resumeOf s th else s
  | _ => s

/-- What follows the performance of an event of a thread: held accesses and barriers go on, messages arrive. -/
def afterEvent (s : State) (th : Nat) : State := barrierOfThread (wakeHeld (arrive s) th) th

/-- The same, for an event whose bytes were read or written at their homes. -/
def afterHome (s : State) (e : MemEv) : State :=
  afterEvent (noteFills (if e.kind.reads then noteElided s e.addrs else s) e.ceil e.hint e.addrs) e.thread

/-- The earliest write of a thread's issue queue. -/
def nextWrite (s : State) (th : Nat) : Option MemEv := s.iq.find? fun e => e.thread == th && e.kind == .write

/-- A thread that runs: not a saved context, whose events wait until it is restored (R231, R319). -/
def runs (th : Nat) : Bool := decide (th < 2 ^ 80)

/-- ACCEPT: the next write of a thread's issue queue moves into its core buffer (R247). -/
def execAccept (thread : Nat) (s : State) : Out :=
  match nextWrite s thread with
  | some w => if runs thread && acceptOk s w then .next (afterEvent (acceptEv s w) thread) else .next s
  | none => .next s

/-- ADVANCE: a write in transit moves to the next point of its path or reaches its home (R248). -/
def execAdvance (ev : Nat) (s : State) : Out :=
  match evIn s.transit ev with
  | some w => if !advanceOk s w || (w.path.length ≤ 2 && linkDown s w) then .next s
    else if w.path.length ≤ 1 then .next (afterHome (advanceEv s w) w)
    else .next (afterEvent (advanceEv s w) w.thread)
  | none => .next s

/-- A read of a footprint takes the addresses that the publish point maps now (R256). -/
def resolveFoot (s : State) (e : MemEv) : MemEv :=
  match e.footprint with
  | some (p, pvas) => { e with addrs := (e.addrs.zip pvas).map fun x => (footprintFlat s e.thread p x.2).getD x.1 }
  | none => e

/-- The events that bind with a read: those of its access to the same tile, so that the access observes one version (R210). -/
def siblings (s : State) (r : MemEv) : List MemEv :=
  if r.footprint.isNone || r.group == 0 then [r]
  else s.iq.filter fun x => x.thread == r.thread && x.group == r.group && sameTile s x r

/-- One read takes its value. -/
def bindOne (s : State) (r : MemEv) : State := afterHome (bindEv s (resolveFoot s r)) (resolveFoot s r)

/-- BIND: a read event takes its value from the nearest holding point (R249). -/
def execBind (ev : Nat) (s : State) : Out :=
  match evIn s.iq ev with
  | some r =>
    let l := siblings s r
    let rest : State := { s with iq := s.iq.filter fun x => !(l.any fun y => y.id == x.id) }
    if runs r.thread && l.all fun x => x.kind == .read && bindOk rest x && !linkDown s x then .next (l.foldl bindOne s) else .next s
  | none => .next s

/-- ATOMIC_STEP: an atomic reads, computes and writes its location at the home (R250). -/
def execAtomicStep (ev : Nat) (s : State) : Out :=
  match evIn s.iq ev with
  | some a =>
    (match a.kind with
    | .atomic _ _ _ => if runs a.thread && atomicOk s a && !linkDown s a then .next (afterHome (atomicEv s a) a) else .next s
    | _ => .next s)
  | none => .next s

/-- FENCE_STEP: the earliest fence of a thread is performed once its condition holds (R251). -/
def execFenceStep (thread : Nat) (s : State) : Out :=
  match s.iq.find? fun e => e.thread == thread && e.kind.isFence with
  | some f => if runs thread && fenceOk s f then .next (afterEvent { s with iq := removeEv s.iq f.id } thread) else .next s
  | none => .next s

end Sys2Proof.Machine
end

