-- ==== Sys2Proof/Machine/SpecialRegs.lean ====
section
/-! DEFINITION. The special registers (R126, R228, R229) as MFSR, MTSR, SLOTRD and SLOTWR see them. -/

namespace Sys2Proof.Machine

/-- Access codes (R8). -/
inductive SrAccess where
  | ro | rw | sup
  deriving DecidableEq, Repr

/-- The Access column of R228. -/
def srAccess (n : Nat) : SrAccess :=
  if n ≤ 6 then .ro else if n ≤ 9 then .rw else if n ≤ 0xC then .sup else if n ≤ 0x10 then .rw
  else if n ≤ 0x13 then .ro else if n ≤ 0x1C then .rw else if n ≤ 0x25 then .ro else if n ≤ 0x28 then .rw
  else if n = 0x29 then .ro else if n = 0x2A then .rw else if n ≤ 0x32 then .ro else if n ≤ 0x3A then .rw
  else if n ≤ 0x3C then .sup else if n = 0x3D then .ro else if n ≤ 0x41 then .sup else .rw

/-- The OR of the current flags of the slots of a cluster (R61). -/
def liveFlags (s : State) (cl : Nat) : Nat :=
  s.slots.foldl (fun f e => if clusterOfSlot e.1 = cl then f ||| (e.2.sc.fpflags.toNat % 32) else f) 0

/-- Whether the bank is hidden from the executing callee (R302): its gate has no VEC. -/
def vecHidden (x : SlotSt) : Bool := match x.frames with | f :: _ => !f.vec | [] => false

/-- Clocks left of a deadline (R305). -/
def leftOf (deadline : Option Nat) (cycle : Nat) : Word :=
  match deadline with | none => w64 (2 ^ 63) | some d => w64 ((d - cycle) % 2 ^ 48)

def counterValue (t : Assoc EvCounter) (i : Nat) : Word := match lookup t i with | some c => w64 c.value.toNat | none => 0

/-- The value of a special register of a slot. DESIGN CHOICE (log entry 34): partid of a core that belongs to no partition, before R3 has
assigned it one, reads all ones. -/
def srReadSlot (s : State) (k n : Nat) : Word :=
  let x := slotAt s k
  let core := coreOfSlot k
  let part := partOfSlot s k
  match n with
  | 0x00 => w64 (slotNo k)
  | 0x01 => w64 (if isGateway core then core - 2048 else core % 16)
  | 0x02 => w64 (if isGateway core then 0 else clusterOfCore core)
  | 0x03 => w64 (if isGateway core then 4 else dieOfCluster (clusterOfCore core))
  | 0x04 => match part with | some p => w64 p | none => BitVec.allOnes 64
  | 0x05 => w64 (x.world % 4096)
  | 0x06 => w64 x.tr.tl
  | 0x07 => x.tr.tcause1
  | 0x08 => x.tr.tepc1
  | 0x09 => x.tr.tval1
  | 0x0A => x.tr.tcause2
  | 0x0B => x.tr.tepc2
  | 0x0C => x.tr.tval2
  | 0x0D => x.tr.thandler
  | 0x0E => x.sc.fpmode
  | 0x0F => x.sc.fpflags
  | 0x10 => w64 (bits x.sc.fpmode.toNat 8 8)
  | 0x11 => w64 x.vec.vtype
  | 0x12 => if vecHidden x then 4 else match x.vec.bank with | some b => if b < 4 then w64 b else 4 | none => 4
  | 0x13 => w64 (flag x.ganged)
  | 0x1C => (coreAt s core).vtime
  | 0x1D => match part.bind (partAt s) with | some p => w64 p.gvt | none => 0
  | 0x26 => x.sc.lc0.count
  | 0x27 => x.sc.lc1.count
  | 0x28 => x.sc.uepc
  | 0x29 => x.sc.xferid
  | 0x2A => w64 (flag x.sc.uienAct * 2 + flag x.sc.uienEn)
  | 0x2B => w64 (hdepth x)
  | 0x2C => leftOf x.deadline s.cycle
  | 0x2D => x.task.taskid
  | 0x2E => (x.task.tile[0]).setWidth 64
  | 0x2F => (x.task.tile[1]).setWidth 64
  | 0x30 => (x.task.tile[2]).setWidth 64
  | 0x31 => w64 (x.task.launch % 2 ^ 32)
  | 0x32 => w64 s.cycle
  | 0x3B => x.lmbase
  | 0x3C => x.lmbound
  | 0x3D => w64 (flag x.quoin)
  | 0x3E => x.hspill
  | 0x3F => x.sgbase
  | 0x40 => w64 ((clusterAt s (clusterOfCore core)).sticky.toNat * 256 + liveFlags s (clusterOfCore core))
  | 0x41 => match part.bind (partAt s) with | some p => w64 (p.pend % 2 ^ 32) | none => 0
  | _ =>
    if 0x14 ≤ n ∧ n ≤ 0x1B then (x.vec.seeds.toList.getD (n - 0x14) 0).setWidth 64
    else if 0x1E ≤ n ∧ n ≤ 0x25 then x.task.mbx.toList.getD (n - 0x1E) 0
    else if 0x33 ≤ n ∧ n ≤ 0x3A then counterValue (coreAt s core).evcnt (n - 0x33)
    else if 0x100 ≤ n ∧ n ≤ 0x107 then (x.sc.g.toList.getD (n - 0x100) Seg.void).tidy.w0
    else if 0x108 ≤ n ∧ n ≤ 0x10F then (x.sc.g.toList.getD (n - 0x108) Seg.void).tidy.w1
    else 0

/-- The value of a special register of an application core (R106). -/
def srReadApp (s : State) (a n : Nat) : Word :=
  let x := appAt s a
  match n with
  | 0x01 => w64 (16 + a % 8)
  | 0x03 => w64 (a / 8)
  | 0x00 | 0x02 | 0x04 | 0x05 => BitVec.allOnes 64
  | 0x06 => w64 x.tr.tl
  | 0x07 => x.tr.tcause1
  | 0x08 => x.tr.tepc1
  | 0x09 => x.tr.tval1
  | 0x0D => x.tr.thandler
  | 0x0E => x.sc.fpmode
  | 0x0F => x.sc.fpflags
  | 0x10 => w64 (bits x.sc.fpmode.toNat 8 8)
  | 0x26 => x.sc.lc0.count
  | 0x27 => x.sc.lc1.count
  | 0x2A => w64 (flag x.sc.uienAct * 2 + flag x.sc.uienEn)
  | 0x32 => w64 s.cycle
  | _ =>
    if 0x100 ≤ n ∧ n ≤ 0x107 then (x.sc.g.toList.getD (n - 0x100) Seg.void).tidy.w0
    else if 0x108 ≤ n ∧ n ≤ 0x10F then (x.sc.g.toList.getD (n - 0x108) Seg.void).tidy.w1
    else 0

def srRead (s : State) (n : Nat) : Word :=
  match s.cur with | .slot k => srReadSlot s k n | .app a => srReadApp s a n

/-- The writable bits of `fpmode` and of the cause registers (R57, R229). -/
def fpmodeMask : Word := 0x17F
def causeMask : Word := 0x3FFF

/-- Writes of the scalar and trap state that slots and application cores share. -/
def srWriteShared (s : State) (ag : Agent) (n : Nat) (v : Word) : State :=
  match n with
  | 0x07 => modTrOf s ag fun t => { t with tcause1 := v &&& causeMask }
  | 0x08 => modTrOf s ag fun t => { t with tepc1 := v }
  | 0x09 => modTrOf s ag fun t => { t with tval1 := v }
  | 0x0D => modTrOf s ag fun t => { t with thandler := v }
  | 0x0E => modScOf s ag fun x => { x with fpmode := v &&& fpmodeMask }
  | 0x0F => modScOf s ag fun x => { x with fpflags := v &&& 0x1F }
  | 0x10 => modScOf s ag fun x =>
      { x with fpmode := (x.fpmode &&& ~~~(0x100 : Word)) ||| (if v.getLsbD 0 then (0x100 : Word) else 0) }
  | 0x26 => modScOf s ag fun x => { x with lc0 := { x.lc0 with count := v } }
  | 0x27 => modScOf s ag fun x => { x with lc1 := { x.lc1 with count := v } }
  | 0x2A => modScOf s ag fun x => { x with uienEn := v.getLsbD 0 }
  | _ => s

/-- The mailbox of a raised floor or time: the core's `vtime` only rises (R287). -/
def raiseVtime (s : State) (core : Nat) (v : Word) : State :=
  modCore s core fun c => if c.vtime.toNat ≤ v.toNat then { c with vtime := v } else c

/-- Remove records from the head of the fault ring (R229, R315). -/
def retireFaults (s : State) (p n : Nat) : State := modPart s p fun x => { x with pend := x.pend - n }

/-- A write of a special register of a slot that the register's access permits; a write of an RO register does
nothing (R8). -/
def srWriteSlot (s : State) (k n : Nat) (v : Word) : State :=
  let core := coreOfSlot k
  match n with
  | 0x0A => modTrOf s (.slot k) fun t => { t with tcause2 := v &&& causeMask }
  | 0x0B => modTrOf s (.slot k) fun t => { t with tepc2 := v }
  | 0x0C => modTrOf s (.slot k) fun t => { t with tval2 := v }
  | 0x1C => raiseVtime s core v
  | 0x28 => modScOf s (.slot k) fun x => { x with uepc := v }
  | 0x3B => modSlot s k fun x => if x.quoin then x else { x with lmbase := v &&& 0xFF00 }
  | 0x3C => modSlot s k fun x => if x.quoin then x else { x with lmbound := v &&& 0xFF00 }
  | 0x3E => modSlot s k fun x => { x with hspill := v &&& w64 (2 ^ 57 - 1) }
  | 0x3F => modSlot s k fun x => { x with sgbase := v &&& 0xFFFF }
  | 0x40 => modCluster s (clusterOfCore core) fun c =>
    { c with sticky := (c.sticky &&& ~~~((v >>> 8).setWidth 5)) ||| (if c.raisedAt = s.cycle then c.raised &&& c.sticky else 0) }
  | 0x41 => match partOfSlot s k with | some p => retireFaults s p (v.toNat % 2 ^ 32) | none => s
  | _ =>
    if h : 0x14 ≤ n ∧ n ≤ 0x1B then
      modSlot s k fun x => { x with vec := { x.vec with seeds := x.vec.seeds.set (n - 0x14) (v.setWidth 32) (by omega) } }
    else if 0x33 ≤ n ∧ n ≤ 0x3A then
      modCore s core fun c =>
        let e := lookupD c.evcnt (n - 0x33) EvCounter.reset
        { c with evcnt := insert c.evcnt (n - 0x33) { e with value := v.setWidth 48 } }
    else srWriteShared s (.slot k) n v

/-- A write to segment register k of an agent: word 0 goes to the staging word, word 1 takes both (R126); reserved bits are not written
(R9). -/
def segStage (s : State) (ag : Agent) (v : Word) : State := modScOf s ag fun x => { x with staging := v }
def segLoad (s : State) (ag : Agent) (k : Nat) (v : Word) : State :=
  setSegOf s ag (BitVec.ofNat 3 k) (Seg.tidy { w0 := (scOf s ag).staging, w1 := v })

/-- Whether the executor's segment writes are free of R111. -/
def freeSegWrites (s : State) : Bool := privileged s

/-- The registers whose access waits for the sequencer to drain (R59). -/
def drainsSequencer (n : Nat) : Bool := n == 0x0E || n == 0x0F || n == 0x10

/-- Park with reason 4 until the sequencer is empty (R142). -/
def drain (s : State) : Run Unit :=
  match s.cur with
  | .app _ => .ok ()
  | .slot k => if (slotAt s k).vec.seq.isEmpty then .ok () else park s .sequencer false (.retryAfter 0)

/-- The same for an access to `fpmode` or `fpflags` (R59). Entries that stay frozen for a trap which has been taken are not waited
for: its handler changes fpmode (R40, log entry 31). -/
def drainUnfrozen (s : State) : Run Unit :=
  match s.cur with
  | .app _ => .ok ()
  | .slot k => if (slotAt s k).vec.frozen && (slotAt s k).vec.deferred.isNone then .ok () else drain s

/-- The privilege that a register's Access column asks for (R8). -/
def srAllowed (s : State) (n : Nat) : Run Unit :=
  if srAccess n = .sup ∧ !privileged s then privTrap s else .ok ()

/-- MFSR (R96, R228). -/
def execMfsr (d : BitVec 5) (n : BitVec 16) (s : State) : Out :=
  Run.out do
    srAllowed s n.toNat
    if drainsSequencer n.toNat then drainUnfrozen s
    return writeRetire s d (srRead s n.toNat)

/-- MTSR (R96, R126, R228). -/
def execMtsr (a : BitVec 5) (n : BitVec 16) (s : State) : Out :=
  Run.out do
    srAllowed s n.toNat
    if drainsSequencer n.toNat then drainUnfrozen s
    let v := rd s a
    if 0x100 ≤ n.toNat ∧ n.toNat ≤ 0x107 then return retire (segStage s s.cur v)
    else if 0x108 ≤ n.toNat ∧ n.toNat ≤ 0x10F then
      let k := n.toNat - 0x108
      let new := Seg.tidy { w0 := (scOf s s.cur).staging, w1 := v }
      if freeSegWrites s || (segOf s s.cur (BitVec.ofNat 3 k)).narrows new then return retire (segLoad s s.cur k v)
      else trap s 0x04 (w64 k)
    else match s.cur with
      | .app _ => return retire (srWriteShared s s.cur n.toNat v)
      | .slot j => return retire (srWriteSlot s j n.toNat v)

end Sys2Proof.Machine
end

