-- ==== Sys2Proof/Machine/Approx.lean ====
section
/-! DEFINITION. The approximate instructions (R70, R71): sine, cosine and 2^x to 704 fraction bits, and the choice among the
results that R70 admits (log entry 5). -/

namespace Sys2Proof.Machine

/-- The fraction bits of the fixed-point values. -/
def fixP : Nat := 704
def fixOne : Nat := 2 ^ fixP
/-- π and ln 2 in fixed point, rounded down. -/
def fixPi : Nat := 0x3243f6a8885a308d313198a2e03707344a4093822299f31d0082efa98ec4e6c89452821e638d01377be5466cf34e90c6cc0ac29b7c97c50dd3f84d5b5b54709179216d5d98979fb1bd1310ba698dfb5ac2ffd72dbd01adfb7
def fixLn2 : Nat := 0xb17217f7d1cf79abc9e3b39803f2f6af40f343267298b62d8a0d175b8baafa2be7b876206debac98559552fb4afa1b10ed2eae35c138214427573b291169b8253e96ca16224ae8c51acbda11317c387eb9ea9bc3b136603b

/-- Alternating Taylor sum: term t at index j, each next term being t * r2 / ((j + 1)(j + 2)). -/
def fixTaylor (r2 : Nat) : Nat → Nat → Nat → Int
  | 0, _, _ => 0
  | n + 1, t, j => (t : Int) - fixTaylor r2 n (t * r2 / fixOne / ((j + 1) * (j + 2))) (j + 2)

/-- Sine and cosine of a fixed-point angle below π/2. -/
def fixSin (r : Nat) : Int := fixTaylor (r * r / fixOne) 96 r 1
def fixCos (r : Nat) : Int := fixTaylor (r * r / fixOne) 96 fixOne 0

/-- e^r for a fixed-point r below 1, by its Taylor sum. -/
def fixExp (r : Nat) : Nat → Nat → Nat → Nat
  | 0, _, _ => 0
  | n + 1, t, j => t + fixExp r n (t * r / fixOne / (j + 1)) (j + 1)

/-- A magnitude m * 2^e in fixed point. -/
def fixOf (m : Nat) (e : Int) : Nat :=
  let sh := e + fixP
  if 0 ≤ sh then m * 2 ^ sh.toNat else m / 2 ^ (-sh).toNat

/-- Sine or cosine of a finite value: quadrant by quadrant (R71). -/
def fixTrig (cosine neg : Bool) (x : Nat) : Int :=
  let h := fixPi / 2
  let k := x / h
  let r := x % h
  let q := if cosine then (k + 1) % 4 else k % 4
  let v := if q % 2 = 0 then fixSin r else fixCos r
  let v1 := if 2 ≤ q then -v else v
  if neg && !cosine then -v1 else v1

/-- The exact value of a code of a format that has infinities, the infinity standing for the next power of two. -/
def codeDy (f : FFmt) (c : Nat) : Nat × Int :=
  let ex := c / 2 ^ f.fb
  if ex = 0 then (c, f.emin - f.fb) else (2 ^ f.fb + c % 2 ^ f.fb, (ex : Int) - f.bias - f.fb)

/-- The codes near c that lie within ulps units 2^q of m * 2^e; with ulps 0, the two neighbours (faithful). -/
def nearCodes (f : FFmt) (ulps c m : Nat) (e q : Int) : List Nat :=
  if ulps = 0 then [c, c + 1]
  else ((List.range 9).map fun i => c + i - 4).filter fun x =>
    decide (x ≤ f.infBits false) &&
    (let d := codeDy f x
     let s := addDy ((d.1 : Int), d.2) (-(m : Int), e)
     let t := addDy ((s.1.natAbs : Int), s.2) (-(ulps : Int), q)
     decide (t.1 ≤ 0))

/-- A result of an approximate instruction for the inexact magnitude m * 2^e: any code within the bound of R70, picked by
a free number. A magnitude below the smallest subnormal gives 0. DESIGN CHOICE (log entry 76): whether the result is tiny (UF) is judged
as RNE would round it, whichever code is picked. -/
def approxPick (f : FFmt) (ulps : Nat) (neg : Bool) (m : Nat) (e : Int) (pick : Nat) : Nat × FFlags :=
  let lead := leadExp m e
  if lead < f.emin - f.fb then (f.signBit neg, fUF ||| fNX)
  else
    let r := roundMag f .rtz false m e true
    if r.tooLarge ∨ f.maxExp + f.fb < lead then (f.infBits neg, fOF ||| fNX)
    else
      let c := f.encodeAt false r.m r.q
      let cands := nearCodes f ulps c m e r.q
      let x := cands.getD (pick % max 1 cands.length) c
      let tiny := (roundMag f .rne false m e true).tiny
      (f.signBit neg + x, fNX ||| fIf tiny fUF ||| fIf (x == f.infBits false) fOF)

/-- The bound of R70: ulps for FP32, faithful for the others. -/
def approxUlps (f : FFmt) (n : Nat) : Nat := if f.fb = 23 then n else 0

/-- VSIN and VCOS of one lane (R70, R71). -/
def trigLane (f : FFmt) (cosine : Bool) (v : FVal) (pick : Nat) : Nat × FFlags :=
  match v with
  | .nan => (f.nanBits, 0)
  | .inf _ => (f.nanBits, fNV)
  | .fin neg m e =>
    if m = 0 then (if cosine then (f.bias * 2 ^ f.fb, 0) else (f.signBit neg, 0))
    else if ltF (.fin false 1 20) (.fin false m e) then (f.nanBits, fNV)
    else
      let y := fixTrig cosine neg (fixOf m e)
      approxPick f (approxUlps f 2) (decide (y < 0)) y.natAbs (-(fixP : Int)) pick

/-- 2^a for a finite a that is not an integer: the fraction part in fixed point with the power of two beside it. -/
def exp2Fix (neg : Bool) (m : Nat) (e : Int) : Nat × Int :=
  let x := fixOf m e
  let n := x / fixOne
  let fr := x % fixOne
  -- for a negative argument, 2^(-x) = 2^(-n - 1) * 2^(1 - fr)
  let g := if neg then fixOne - fr else fr
  let k : Int := if neg then -(n : Int) - 1 else n
  (fixExp (g * fixLn2 / fixOne) 180 fixOne 0, k - fixP)

/-- VEXP2 of one lane (R70). -/
def exp2Lane (f : FFmt) (v : FVal) (pick : Nat) : Nat × FFlags :=
  match v with
  | .nan => (f.nanBits, 0)
  | .inf n => (if n then (0, 0) else (f.infBits false, 0))
  | .fin neg m e =>
    let i : Int := if 0 ≤ e then m * 2 ^ (min e 200).toNat else (m / 2 ^ (-e).toNat : Nat)
    let whole := decide (0 ≤ e) || m % 2 ^ (-e).toNat == 0
    let k : Int := if neg then -i else i
    if m = 0 then (f.bias * 2 ^ f.fb, 0)
    else if f.maxExp + f.fb < k then (f.infBits false, fOF ||| fNX)
    else if k < f.emin - f.fb - 1 then (0, fUF ||| fNX)
    else if whole then
      (if k < f.emin - f.fb then (0, fUF ||| fNX)
       else (f.encodeAt false (2 ^ (min (f.fb : Int) (k - (f.emin - f.fb))).toNat) (k - min (f.fb : Int) (k - (f.emin - f.fb))), 0))
    else
      let y := exp2Fix neg m e
      approxPick f (approxUlps f 1) false y.1 y.2 pick

end Sys2Proof.Machine
end

