-- ==== Sys2Proof/Machine/Vector.lean ====
section
/-! DEFINITION. What a vector entry computes when the sequencer performs it (R139 to R157, R164): lanes in, lanes and masks
and flags out. A ganged pair has two halves; a lane list runs over the even slot's half first (R42). -/

namespace Sys2Proof.Machine

/-- What an entry sees when it is performed: the banks of its halves, the values fixed at the hand-off (R140), the
rounding mode and the core's table slots. pick is the counter of free values. -/
structure VIn where
  banks : List Bank
  cls : Nat
  sa : Word
  sb : Word
  seed : BitVec 32
  rm : RMode
  tables : Assoc TableSlot
  world : Nat
  pick : Nat

/-- What an entry writes: whole registers and masks, one value per half, the flags, and the free values it drew. -/
structure VOut where
  regs : List (Nat × List VWord)
  masks : List (BitVec 3 × List MWord)
  flags : FFlags
  drawn : Nat
  deriving DecidableEq, Repr

def VOut.empty : VOut := { regs := [], masks := [], flags := 0, drawn := 0 }

/-- Lane width of a class (R35). -/
def classWidth (cls : Nat) : Nat := if cls = 0 then 32 else if cls = 1 then 16 else 8
def VIn.w (x : VIn) : Nat := classWidth x.cls
/-- Lanes of one half and of the thread at a width. -/
def halfLanes (w : Nat) : Nat := 1024 / w
def VIn.n (x : VIn) : Nat := x.banks.length * halfLanes x.w

/-- The lanes of a register, and a register from lanes, lane 0 lowest (R139). -/
def laneList (w : Nat) (v : VWord) : List Nat := (List.range (halfLanes w)).map fun i => v.toNat / 2 ^ (w * i) % 2 ^ w
def packNat (w : Nat) : List Nat → Nat
  | [] => 0
  | l :: rest => l % 2 ^ w + 2 ^ w * packNat w rest
def packLanes (w : Nat) (l : List Nat) : VWord := BitVec.ofNat 1024 (packNat w l)

def bankReg (b : Bank) (r : Nat) : VWord := b.v.toList.getD r 0
def bankMask (b : Bank) (k : BitVec 3) : MWord := if k = 0 then BitVec.allOnes 128 else b.m.toList.getD k.toNat 0

/-- Lanes of a register of the thread. -/
def VIn.reg (x : VIn) (w r : Nat) : List Nat := x.banks.flatMap fun b => laneList w (bankReg b r)
/-- Bits of a mask of the thread, for lanes below N of the class (R34). -/
def VIn.mask (x : VIn) (k : BitVec 3) : List Bool :=
  x.banks.flatMap fun b => (List.range (halfLanes x.w)).map (bankMask b k).getLsbD

/-- A register write from the lanes of the thread. -/
def splitReg (x : VIn) (w : Nat) (l : List Nat) : List VWord :=
  (chunksOf (halfLanes w) x.banks.length l).map (packLanes w)
def outReg (x : VIn) (w r : Nat) (l : List Nat) (f : FFlags) : VOut :=
  { regs := [(r, splitReg x w l)], masks := [], flags := f, drawn := 0 }
/-- A mask write: bits above the lane count are 0 (R34). -/
def outMask (x : VIn) (k : BitVec 3) (l : List Bool) : VOut :=
  { regs := [], masks := [(k, (chunksOf (halfLanes x.w) x.banks.length l).map fun bs =>
      BitVec.ofNat 128 (packNat 1 (bs.map fun b => if b then 1 else 0)))], flags := 0, drawn := 0 }

/-- Active lanes take the new value and raise its flags; inactive lanes keep the old one (R139, R141). -/
def pickLanes : List Bool → List Nat → List (Nat × FFlags) → List Nat × FFlags
  | m :: ms, o :: os, r :: rs =>
    let t := pickLanes ms os rs
    if m then (r.1 :: t.1, r.2 ||| t.2) else (o :: t.1, t.2)
  | _, _, _ => ([], 0)

def zip3 {α β γ δ : Type} (f : α → β → γ → δ) : List α → List β → List γ → List δ
  | a :: as, b :: bs, c :: cs => f a b c :: zip3 f as bs cs
  | _, _, _ => []

/-- A lane-wise instruction: a, b and the destination's old lane (R139). -/
def lanes3 (x : VIn) (w : Nat) (d a b : BitVec 6) (m : BitVec 3) (op : Nat → Nat → Nat → Nat × FFlags) : VOut :=
  let old := x.reg w d.toNat
  let r := pickLanes (x.mask m) old (zip3 op (x.reg w a.toNat) (x.reg w b.toNat) old)
  outReg x w d.toNat r.1 r.2

def lanes1 (x : VIn) (w : Nat) (d a : BitVec 6) (m : BitVec 3) (op : Nat → Nat × FFlags) : VOut :=
  let r := pickLanes (x.mask m) (x.reg w d.toNat) ((x.reg w a.toNat).map op)
  outReg x w d.toNat r.1 r.2

/-- A comparison: bits of inactive lanes are 0 (R139). -/
def lanesCmp (x : VIn) (w : Nat) (d : BitVec 3) (a b : BitVec 6) (m : BitVec 3) (op : Nat → Nat → Bool) : VOut :=
  outMask x d (zip3 (fun k p q => k && op p q) (x.mask m) (x.reg w a.toNat) (x.reg w b.toNat))

/-- VSEL: the mask selects (R144). -/
def lanesSel (x : VIn) (w : Nat) (d a b : BitVec 6) (m : BitVec 3) : VOut :=
  outReg x w d.toNat (zip3 (fun k p q => if k then p else q) (x.mask m) (x.reg w a.toNat) (x.reg w b.toNat)) 0

/-! ### Floating lanes (R144 to R146) -/

/-- A rounded result with the NV of R55. -/
def finish (f : FFmt) (rm : RMode) (inputs : List FVal) (r : FVal) : Nat × FFlags :=
  let y := roundWide f rm r
  (y.1, y.2 ||| nvIf inputs r)

def fAdd (f : FFmt) (rm : RMode) (a b _d : Nat) : Nat × FFlags :=
  let p := decodeF f a; let q := decodeF f b
  finish f rm [p, q] (addF rm p q)
def fSub (f : FFmt) (rm : RMode) (a b _d : Nat) : Nat × FFlags :=
  let p := decodeF f a; let q := decodeF f b
  finish f rm [p, q] (addF rm p q.negate)
def fMul (f : FFmt) (rm : RMode) (a b _d : Nat) : Nat × FFlags :=
  let p := decodeF f a; let q := decodeF f b
  finish f rm [p, q] (mulF p q)
def fMadd (f : FFmt) (rm : RMode) (a b d : Nat) : Nat × FFlags :=
  let p := decodeF f a; let q := decodeF f b; let r := decodeF f d
  finish f rm [p, q, r] (addF rm (mulF p q) r)
def fMsub (f : FFmt) (rm : RMode) (a b d : Nat) : Nat × FFlags :=
  let p := decodeF f a; let q := decodeF f b; let r := decodeF f d
  finish f rm [p, q, r] (addF rm r (mulF p q).negate)

/-- The order of VMIN and VMAX: -0 lies below +0 (R145). -/
def ltOrd (a b : FVal) : Bool := ltF a b || (a.isZero && b.isZero && a.neg? && !b.neg?)
def fMin (f : FFmt) (a b _d : Nat) : Nat × FFlags :=
  let p := decodeF f a; let q := decodeF f b
  (if p.isNan then (if q.isNan then f.nanBits else b) else if q.isNan then a else if ltOrd q p then b else a, 0)
def fMax (f : FFmt) (a b _d : Nat) : Nat × FFlags :=
  let p := decodeF f a; let q := decodeF f b
  (if p.isNan then (if q.isNan then f.nanBits else b) else if q.isNan then a else if ltOrd p q then b else a, 0)

def fAbs (f : FFmt) (a : Nat) : Nat × FFlags := (a % 2 ^ (f.width - 1), 0)
def fNeg (f : FFmt) (a : Nat) : Nat × FFlags := (a ^^^ 2 ^ (f.width - 1), 0)

/-- VDIV (R146). -/
def fDiv (f : FFmt) (rm : RMode) (a b _d : Nat) : Nat × FFlags :=
  match decodeF f a, decodeF f b with
  | .nan, _ | _, .nan => (f.nanBits, 0)
  | .inf _, .inf _ => (f.nanBits, fNV)
  | .inf n, q => (f.infBits (n != q.neg?), 0)
  | .fin n _ _, .inf n' => (f.signBit (n != n'), 0)
  | .fin n m e, .fin n' m' e' =>
    if m' = 0 then (if m = 0 then (f.nanBits, fNV) else (f.infBits (n != n'), fDZ))
    else if m = 0 then (f.signBit (n != n'), 0) else divMag f rm (n != n') m e m' e'

/-- VSQRT (R144). -/
def fSqrt (f : FFmt) (rm : RMode) (a : Nat) : Nat × FFlags :=
  match decodeF f a with
  | .nan => (f.nanBits, 0)
  | .inf n => if n then (f.nanBits, fNV) else (f.infBits false, 0)
  | .fin n m e => if m = 0 then (f.signBit n, 0) else if n then (f.nanBits, fNV) else sqrtMag f rm m e

def fEq (f : FFmt) (a b : Nat) : Bool := eqF (decodeF f a) (decodeF f b)
def fLt (f : FFmt) (a b : Nat) : Bool :=
  let p := decodeF f a; let q := decodeF f b
  !p.isNan && !q.isNan && ltF p q
def fLe (f : FFmt) (a b : Nat) : Bool := fLt f a b || fEq f a b
def fUn (f : FFmt) (a b : Nat) : Bool := (decodeF f a).isNan || (decodeF f b).isNan

/-- The approximate minors: each active lane draws one free value (R70). -/
def lanesApprox (x : VIn) (f : FFmt) (d a : BitVec 6) (m : BitVec 3) (op : FVal → Nat → Nat × FFlags) : VOut :=
  let rs := (x.reg f.width a.toNat).mapIdx fun i v => op (decodeF f v) (Config.freeApprox (x.pick + i))
  let r := pickLanes (x.mask m) (x.reg f.width d.toNat) rs
  { outReg x f.width d.toNat r.1 r.2 with drawn := rs.length }

/-! ### Integer lanes (R147) -/

def iBin (w : Nat) (op : Int → Int → Int) (a b _d : Nat) : Nat × FFlags := (intBits w (op a b), 0)
def iMulh (w : Nat) (a b _d : Nat) : Nat × FFlags := (intBits w (sx a w * sx b w / 2 ^ w), 0)
def iPick (w : Nat) (signed least : Bool) (a b _d : Nat) : Nat × FFlags :=
  let lt := if signed then decide (sx a w < sx b w) else decide (a < b)
  (if lt == least then a else b, 0)
def iLogic (op : Nat → Nat → Nat) (a b _d : Nat) : Nat × FFlags := (op a b, 0)
/-- The shifts take bits 5:0 of the lane of vb. -/
def iShl (w : Nat) (a b _d : Nat) : Nat × FFlags := (a * 2 ^ (b % 64) % 2 ^ w, 0)
def iShr (a b _d : Nat) : Nat × FFlags := (a / 2 ^ (b % 64), 0)
def iSar (w : Nat) (a b _d : Nat) : Nat × FFlags := (intBits w (sx a w / 2 ^ (min (b % 64) (w - 1))), 0)
/-- VADDS and VSUBS: clamped, OF when the clamp acts. -/
def iSat (w : Nat) (op : Int → Int → Int) (a b _d : Nat) : Nat × FFlags :=
  let v := op (sx a w) (sx b w)
  let r := clampInt (-(2 ^ (w - 1))) (2 ^ (w - 1) - 1) v
  (intBits w r, fIf (decide (r ≠ v)) fOF)
def iEq (a b : Nat) : Bool := a == b
def iLt (w : Nat) (a b : Nat) : Bool := decide (sx a w < sx b w)
def iLtn (a b : Nat) : Bool := decide (a < b)

/-! ### Cross-lane (R148 to R153) -/

/-- The element type of a type code in a class (R148). -/
inductive XTy where
  | flt (f : FFmt)
  | int (signed : Bool)
  deriving DecidableEq, Repr

def xty (cls ty : Nat) : Option XTy :=
  match cls, ty with
  | 0, 0 => some (.flt fp32) | 0, 1 => some (.int true) | 0, 2 => some (.int false)
  | 1, 0 => some (.flt bf16) | 1, 1 => some (.int true) | 1, 3 => some (.flt fp16)
  | 2, 1 => some (.int true) | 2, 2 => some (.int false)
  | _, _ => none
def XTy.isFlt : XTy → Bool | .flt _ => true | .int _ => false

/-- A moving minor: every active lane takes a lane value (R149). -/
def lanesMove (x : VIn) (d : BitVec 6) (m : BitVec 3) (new : List Nat) : VOut :=
  let r := pickLanes (x.mask m) (x.reg x.w d.toNat) (new.map fun v => (v, 0))
  outReg x x.w d.toNat r.1 0

def effPerm (x : VIn) (d a b : BitVec 6) (m : BitVec 3) : VOut :=
  let va := x.reg x.w a.toNat
  lanesMove x d m ((x.reg x.w b.toNat).map fun i => va.getD i 0)
def effSlideUp (x : VIn) (d a : BitVec 6) (m : BitVec 3) : VOut :=
  let va := x.reg x.w a.toNat
  lanesMove x d m ((List.range x.n).map fun i => if i < x.sb.toNat then 0 else va.getD (i - x.sb.toNat) 0)
def effSlideDown (x : VIn) (d a : BitVec 6) (m : BitVec 3) : VOut :=
  let va := x.reg x.w a.toNat
  lanesMove x d m ((List.range x.n).map fun i => va.getD (i + x.sb.toNat) 0)
def effBcast (x : VIn) (d : BitVec 6) (m : BitVec 3) : VOut :=
  lanesMove x d m ((List.range x.n).map fun _ => x.sa.toNat % 2 ^ x.w)
def effInterl (x : VIn) (d a b : BitVec 6) (m : BitVec 3) : VOut :=
  let va := x.reg x.w a.toNat; let vb := x.reg x.w b.toNat
  lanesMove x d m ((List.range x.n).map fun i => (if i % 2 = 0 then va else vb).getD (i / 2) 0)
def effDeint (x : VIn) (d a : BitVec 6) (m : BitVec 3) : VOut :=
  let va := x.reg x.w a.toNat
  lanesMove x d m ((List.range x.n).map fun i => va.getD (if i < x.n / 2 then 2 * i else 2 * (i - x.n / 2) + 1) 0)

/-- The active lanes of a register. -/
def activeLanes (x : VIn) (a : BitVec 6) (m : BitVec 3) : List Nat :=
  ((x.reg x.w a.toNat).zip (x.mask m)).filterMap fun p => if p.2 then some p.1 else none

/-- The exact sum of values, rounded once (R150). -/
def sumLanes (f : FFmt) (rm : RMode) (l : List FVal) : Nat × FFlags :=
  if l.isEmpty then (0, 0)
  else if l.any FVal.isNan then (f.nanBits, 0)
  else
    let infs := l.filter fun v => !v.isFin
    match infs with
    | v :: _ => if infs.all (· == v) then (f.infBits v.neg?, 0) else (f.nanBits, fNV)
    | [] =>
      let s := l.foldl (fun (acc : Int × Int) v => addDy acc v.dy) (0, 0)
      roundWide f rm (ofDyadic s.1 s.2 (zeroSumNeg rm (l.all negZero)))

/-- The greatest or least of a list by an order, with what an empty list gives. -/
def extreme (lt : Nat → Nat → Bool) (empty : Nat) (l : List Nat) : Nat :=
  match l with
  | [] => empty
  | v :: rest => rest.foldl (fun acc y => if lt acc y then y else acc) v

def redBest (greatest : Bool) (w : Nat) (ty : XTy) (l : List Nat) : Nat × FFlags :=
  match ty with
  | .flt f =>
    let ok := l.filter fun v => !(decodeF f v).isNan
    if ok.isEmpty && !l.isEmpty then (f.nanBits, 0)
    else (extreme (fun p q => if greatest then ltOrd (decodeF f p) (decodeF f q) else ltOrd (decodeF f q) (decodeF f p))
            (f.infBits greatest) ok, 0)
  | .int true =>
    (extreme (fun p q => if greatest then decide (sx p w < sx q w) else decide (sx q w < sx p w))
      (if greatest then 2 ^ (w - 1) else 2 ^ (w - 1) - 1) l, 0)
  | .int false =>
    (extreme (fun p q => if greatest then decide (p < q) else decide (q < p)) (if greatest then 0 else 2 ^ w - 1) l, 0)

/-- VREDIADD: the exact sum, clamped to the type (R150). -/
def redIntSum (w : Nat) (signed : Bool) (l : List Nat) : Nat × FFlags :=
  let s : Int := l.foldl (fun (acc : Int) v => acc + (if signed then sx v w else (v : Int))) 0
  let r := if signed then clampInt (-(2 ^ (w - 1))) (2 ^ (w - 1) - 1) s else clampInt 0 (2 ^ w - 1) s
  (intBits w r, fIf (decide (r ≠ s)) fOF)

/-- A reduction writes its value to every lane. -/
def outAll (x : VIn) (d : BitVec 6) (r : Nat × FFlags) : VOut :=
  outReg x x.w d.toNat ((List.range x.n).map fun _ => r.1) r.2

def effRedSum (x : VIn) (d a : BitVec 6) (t : BitVec 2) (m : BitVec 3) : VOut :=
  match xty x.cls t.toNat with
  | some (.flt f) => outAll x d (sumLanes f x.rm ((activeLanes x a m).map (decodeF f)))
  | _ => VOut.empty
def effRedBest (greatest : Bool) (x : VIn) (d a : BitVec 6) (t : BitVec 2) (m : BitVec 3) : VOut :=
  match xty x.cls t.toNat with
  | some ty => outAll x d (redBest greatest x.w ty (activeLanes x a m))
  | none => VOut.empty
def effRedIntSum (x : VIn) (d a : BitVec 6) (t : BitVec 2) (m : BitVec 3) : VOut :=
  match xty x.cls t.toNat with
  | some (.int sg) => outAll x d (redIntSum x.w sg (activeLanes x a m))
  | _ => VOut.empty

/-- VMASKOP (R151). -/
def effMask2 (op : Bool → Bool → Bool) (x : VIn) (d a b : BitVec 3) : VOut :=
  outMask x d (((x.mask a).zip (x.mask b)).map fun p => op p.1 p.2)
def effMaskNot (x : VIn) (d a : BitVec 3) : VOut := outMask x d ((x.mask a).map (!·))
/-- The index of the lowest set bit. -/
def lowestSet (l : List Bool) : Nat := l.takeWhile (!·) |>.length
def effMaskLow (x : VIn) (d a : BitVec 3) : VOut :=
  let l := x.mask a
  outMask x d ((List.range x.n).map fun i => i == lowestSet l)
def effMaskBelow (x : VIn) (d a : BitVec 3) : VOut :=
  let l := x.mask a
  outMask x d ((List.range x.n).map fun i => decide (i < lowestSet l))

/-- A word of a table image (R197). -/
def imgWord (img : List Byte) (o : Nat) : Nat := leNat ((img.drop o).take 4)

/-- A quotient of integers times 2^e, rounded once; the sign of an exact zero is given. -/
def roundRatio (f : FFmt) (rm : RMode) (num : Int) (den : Nat) (e : Int) (zeroNeg : Bool) : Nat × FFlags :=
  if num = 0 then (f.signBit zeroNeg, 0)
  else
    let sh := 80 + Nat.log2 den
    let n := num.natAbs * 2 ^ sh
    roundWideMag f rm (decide (num < 0)) (n / den) (e - sh) (n % den != 0)

/-- The segment polynomial of VTBL at a finite x between lo and hi (R152). -/
def tblPoly (f : FFmt) (rm : RMode) (img : List Byte) (x lo hi : FVal) : Nat × FFlags :=
  let a := addDy x.dy lo.negate.dy
  let h := addDy hi.dy lo.negate.dy
  let e := min a.2 h.2
  let an : Nat := (a.1 * 2 ^ (a.2 - e).toNat).toNat
  let dn : Nat := (h.1 * 2 ^ (h.2 - e).toNat).toNat
  let j := min (an * 256 / dn) 255
  let tn : Nat := an * 256 - j * dn
  let c := fun (i : Nat) => decodeF fp32 (imgWord img (32 + 12 * j + 4 * i))
  let ec := min (c 0).exp (min (c 1).exp (c 2).exp)
  let ci := fun (i : Nat) => (c i).int * 2 ^ ((c i).exp - ec).toNat
  let inner : Int := ci 1 * dn + tn * ci 2
  let prod : Int := tn * inner
  let innerNeg := if inner ≠ 0 then decide (inner < 0) else rm == .rdn || (negZero (c 1) && (c 2).neg?)
  let zn := rm == .rdn || (negZero (c 0) && prod == 0 && innerNeg)
  roundRatio f rm (ci 0 * dn * dn + prod) (dn * dn) ec zn

/-- VTBL of one lane (R152). -/
def tblLane (f : FFmt) (rm : RMode) (img : Option (List Byte)) (v : Nat) : Nat × FFlags :=
  let x := decodeF f v
  match img with
  | none => (f.nanBits, fIf (!x.isNan) fNV)
  | some img =>
    if x.isNan then (f.nanBits, 0)
    else
      let lo := decodeF fp32 (imgWord img 0)
      let hi := decodeF fp32 (imgWord img 4)
      let mode := fun (i : Nat) => (img.getD i 0).toNat
      let const := fun (mode : Nat) (o : Nat) =>
        let y := if mode = 0 then decodeF fp32 (imgWord img o) else x
        let r := roundWide f rm y
        (r.1, r.2 ||| fIf (!y.isNan) fNX)
      if ltF x lo then const (mode 8) 16
      else if ltF hi x then const (mode 9) 20
      else let r := tblPoly f rm img x lo hi; (r.1, r.2 ||| fNX)

def effTbl (x : VIn) (d a : BitVec 6) (t k : BitVec 2) (m : BitVec 3) : VOut :=
  match xty x.cls t.toNat with
  | some (.flt f) =>
    let img := match lookup x.tables k.toNat with
      | some sl => if sl.world = x.world then some sl.image else none
      | none => none
    lanes1 x x.w d a m (tblLane f x.rm img)
  | _ => VOut.empty

/-! ### Conversions (R154 to R157) -/

/-- The format of a small code, and the block length of its MX or scaled-TERN data in registers (R100). -/
def smallFmt (c : Nat) : Nat :=
  match c with
  | 0 => 10 | 1 => 11 | 2 => 12 | 3 => 13 | 4 => 14 | 5 => 1 | 6 => 2 | 7 => 3 | 8 => 4 | 9 => 15 | 10 => 16 | 11 => 17
  | 12 => 18 | 13 => 19 | 14 => 20 | _ => 21
def regBlock (code : Nat) : Nat := if code = 21 then 32 else 16
/-- The wide side of R100. -/
def wideOf (cls : Nat) : FFmt := if cls = 0 then fp32 else bf16
/-- The span of a group (R88). -/
def spanOf (n lanes : Nat) : Nat := max 1 (n / lanes)

/-- The registers of a group, as one lane list. -/
def groupLanes (x : VIn) (w r span : Nat) : List Nat := (List.range span).flatMap fun q => x.reg w (r + q)

/-- Lay narrow codes and scale bytes out in a register (R89). -/
def layNarrow (w : Nat) (codes scales : List Nat) : VWord :=
  BitVec.ofNat 1024 (packNat w codes + 2 ^ 896 * packNat 8 scales)
/-- Read n narrow codes and the scale bytes of a register (R89). -/
def readNarrow (w n : Nat) (v : VWord) : List Nat × List Nat :=
  ((List.range n).map fun i => v.toNat / 2 ^ (w * i) % 2 ^ w, (List.range 16).map fun i => v.toNat / 2 ^ (896 + 8 * i) % 256)

/-- Registers of a group written from per-half values, register by register. -/
def groupRegs (x : VIn) (r : Nat) (halves : List VWord) : List (Nat × List VWord) :=
  (chunksOf x.banks.length halves.length halves).mapIdx fun q l => (r + q, l)

/-- VNAR and VNARS (R154). -/
def effNarrow (sat : Bool) (x : VIn) (d a : BitVec 6) (blk : BitVec 2) (c : BitVec 4) : VOut :=
  let code := smallFmt c.toNat
  let n := rotLen blk.toNat
  let wide := wideOf x.cls
  let l := (groupLanes x x.w a.toNat (spanOf n x.n)).map (decodeF wide)
  let r := rotateRun x.seed n l
  let parts := (chunksOf (halfLanes x.w) r.1.length r.1).map fun part =>
    if isMx code then finalScaled code (regBlock code) part else finalUnscaled code sat part
  { regs := groupRegs x d.toNat (parts.map fun p => layNarrow (elemWidth code) p.codes p.scales), masks := [],
    flags := parts.foldl (fun f p => f ||| p.flags) r.2, drawn := 0 }

/-- The decoded elements of a group of narrow registers. -/
def narrowValues (x : VIn) (code r span : Nat) : List (FVal × FFlags) :=
  (List.range span).flatMap fun q => x.banks.flatMap fun b =>
    let y := readNarrow (elemWidth code) (halfLanes x.w) (bankReg b (r + q))
    decodeRun code (regBlock code) y.1 y.2

/-- VWID, and VWIDR with block code 0 (R155). -/
def effWiden (x : VIn) (d a : BitVec 6) (blk : BitVec 2) (c : BitVec 4) : VOut :=
  let code := smallFmt c.toNat
  let n := rotLen blk.toNat
  let wide := wideOf x.cls
  let vs := narrowValues x code a.toNat (spanOf n x.n)
  let r : List Nat × FFlags :=
    if n = 0 then
      let ys := widenRun wide x.rm vs
      (ys.map (·.1), ys.foldl (fun f y => f ||| y.2) 0)
    else
      let u := unrotateRun wide x.rm x.seed n (vs.map (·.1))
      (u.1, vs.foldl (fun f y => f ||| y.2) u.2)
  { regs := groupRegs x d.toNat ((chunksOf (halfLanes x.w) r.1.length r.1).map (packLanes x.w)), masks := [],
    flags := r.2, drawn := 0 }

/-- VHAD and VHADI (R156). -/
def effHad (inverse : Bool) (x : VIn) (d a : BitVec 6) (blk : BitVec 2) : VOut :=
  let n := rotLen blk.toNat
  let wide := wideOf x.cls
  let l := (groupLanes x x.w a.toNat (spanOf n x.n)).map (decodeF wide)
  let rs := (chunksOf n l.length l).map fun b =>
    if inverse then unrotateBlock wide x.rm x.seed n b else rotateWide wide x.rm x.seed n b
  let ys := rs.flatMap (·.1)
  { regs := groupRegs x d.toNat ((chunksOf (halfLanes x.w) ys.length ys).map (packLanes x.w)), masks := [],
    flags := rs.foldl (fun f r => f ||| r.2) 0, drawn := 0 }

/-- Convert the lanes of one half of the pair's register: source lanes of width ws from lane s0, to destination lanes of
width wd from lane d0; the rest of the destination stays (R157). -/
def cvtHalf (ws s0 wd d0 n : Nat) (op : Nat → Nat × FFlags) (src old : VWord) : VWord × FFlags :=
  let rs := (((laneList ws src).drop s0).take n).map op
  let o := laneList wd old
  (packLanes wd (o.take d0 ++ rs.map (·.1) ++ o.drop (d0 + n)), rs.foldl (fun f r => f ||| r.2) 0)

def effCvt (ws s0 wd d0 n : Nat) (op : Nat → Nat × FFlags) (x : VIn) (d a : BitVec 6) : VOut :=
  let rs := x.banks.map fun b => cvtHalf ws s0 wd d0 n op (bankReg b a.toNat) (bankReg b d.toNat)
  { regs := [(d.toNat, rs.map (·.1))], masks := [], flags := rs.foldl (fun f r => f ||| r.2) 0, drawn := 0 }

/-- Floating to floating (R62), floating to integer (R64), integer to floating (R62). -/
def cvtFF (f g : FFmt) (rm : RMode) (v : Nat) : Nat × FFlags := roundWide g rm (decodeF f v)
def cvtFI (f : FFmt) (w : Nat) (rm : RMode) (v : Nat) : Nat × FFlags :=
  floatToInt rm (-(2 ^ (w - 1))) (2 ^ (w - 1) - 1) w (decodeF f v)
def cvtIF (w : Nat) (g : FFmt) (rm : RMode) (v : Nat) : Nat × FFlags := roundWide g rm (ofDyadic (sx v w) 0 false)
/-- Extend an integer lane. -/
def cvtExt (w wd : Nat) (signed : Bool) (v : Nat) : Nat × FFlags := (if signed then intBits wd (sx v w) else v, 0)

/-- VCVTF (R157). -/
def effCvtF (x : VIn) (d a : BitVec 6) (c : BitVec 4) : VOut :=
  match c.toNat with
  | 0 => effCvt 32 0 16 0 32 (cvtFF fp32 bf16 x.rm) x d a
  | 1 => effCvt 32 0 16 32 32 (cvtFF fp32 bf16 x.rm) x d a
  | 2 => effCvt 32 0 16 0 32 (cvtFF fp32 fp16 x.rm) x d a
  | 3 => effCvt 32 0 16 32 32 (cvtFF fp32 fp16 x.rm) x d a
  | 4 => effCvt 16 0 32 0 32 (cvtFF bf16 fp32 x.rm) x d a
  | 5 => effCvt 16 32 32 0 32 (cvtFF bf16 fp32 x.rm) x d a
  | 6 => effCvt 16 0 32 0 32 (cvtFF fp16 fp32 x.rm) x d a
  | 7 => effCvt 16 32 32 0 32 (cvtFF fp16 fp32 x.rm) x d a
  | 8 => effCvt 16 0 16 0 64 (cvtFF bf16 fp16 x.rm) x d a
  | 9 => effCvt 16 0 16 0 64 (cvtFF fp16 bf16 x.rm) x d a
  | _ => VOut.empty

/-- VCVTI (R157). -/
def effCvtI (x : VIn) (d a : BitVec 6) (c : BitVec 4) : VOut :=
  match c.toNat with
  | 0 => effCvt 32 0 32 0 32 (cvtFI fp32 32 x.rm) x d a
  | 1 => effCvt 32 0 32 0 32 (cvtIF 32 fp32 x.rm) x d a
  | 2 => effCvt 16 0 16 0 64 (cvtFI bf16 16 x.rm) x d a
  | 3 => effCvt 16 0 16 0 64 (cvtIF 16 bf16 x.rm) x d a
  | 4 => effCvt 16 0 16 0 64 (cvtFI fp16 16 x.rm) x d a
  | 5 => effCvt 16 0 16 0 64 (cvtIF 16 fp16 x.rm) x d a
  | 6 => effCvt 32 0 16 0 32 (fun v => satInt 5 (sx v 32)) x d a
  | 7 => effCvt 32 0 16 32 32 (fun v => satInt 5 (sx v 32)) x d a
  | 8 => effCvt 16 0 32 0 32 (cvtExt 16 32 true) x d a
  | 9 => effCvt 16 32 32 0 32 (cvtExt 16 32 true) x d a
  | 10 => effCvt 16 0 8 0 64 (fun v => satInt 1 (sx v 16)) x d a
  | 11 => effCvt 16 0 8 64 64 (fun v => satInt 1 (sx v 16)) x d a
  | 12 => effCvt 8 0 16 0 64 (cvtExt 8 16 true) x d a
  | 13 => effCvt 8 64 16 0 64 (cvtExt 8 16 true) x d a
  | 14 => effCvt 8 0 16 0 64 (cvtExt 8 16 false) x d a
  | _ => effCvt 8 64 16 0 64 (cvtExt 8 16 false) x d a

/-! ### Bank and mask instructions that are handed (R164) -/

def effMovv (x : VIn) (d : BitVec 6) : VOut :=
  if x.n ≤ x.sb.toNat then VOut.empty
  else outReg x x.w d.toNat ((x.reg x.w d.toNat).set x.sb.toNat (x.sa.toNat % 2 ^ x.w)) 0
def effSetl (x : VIn) (d : BitVec 3) : VOut := outMask x d ((List.range x.n).map fun i => decide (i < x.sa.toNat))
def effZero (x : VIn) (d : BitVec 6) (m : BitVec 3) : VOut := lanesMove x d m ((List.range x.n).map fun _ => 0)
/-- VSMOVM: bits 64h + 63 : 64h of the mask take s[a]. -/
def effSmovm (x : VIn) (d : BitVec 3) (h : BitVec 1) : VOut :=
  outMask x d ((x.mask d).mapIdx fun i o => if i / 64 = h.toNat then x.sa.getLsbD (i % 64) else o)
/-- MZERO: the 32 rows of a tile (R181, R36). -/
def effMzero (x : VIn) (t : BitVec 1) : VOut :=
  { regs := (List.range 32).map fun i => (32 * t.toNat + i, x.banks.map fun _ => 0), masks := [], flags := 0, drawn := 0 }

end Sys2Proof.Machine
end

