-- ==== Sys2Proof/Machine/VectorMem.lean ====
section
/-! DEFINITION. Vector memory accesses (R158 to R163): the checks of every active lane at the hand-off, the pages, and the
memory events (R245). -/

namespace Sys2Proof.Machine

/-- The first element of a list that meets a condition traps; else the check passes. -/
def trapFirst {α : Type} (s : State) (l : List α) (bad : α → Bool) (cause : Nat) (val : α → Word) : Run Unit :=
  match l.find? bad with
  | some x => trap s cause (val x)
  | none => .ok ()

/-- What a vector operand accesses: the elements, each an offset and a number of bytes, the lowest lane first; the offset of its base;
what a base must meet in a segment's CVA space, given the segment's BASE and the offset in it; and the alignment of each element. -/
structure VecOperand where
  elems : List (Int × Nat)
  base : Int
  baseOk : Nat → Int → Bool
  align : Nat

/-- The checks of R114 of one segment over all elements: each condition in the order of R163, at the lowest lane that fails. add is what
lies between the operand's offsets and those of this segment; ok says that its kind and rights are right. -/
def elemChecks (s : State) (g : Seg) (ok : Bool) (add : Nat) (o : VecOperand) : Run Unit := do
  let at_ := fun (e : Int × Nat) => e.1 + add
  if !ok then trap s 0x04 (ofInt (at_ (o.elems.headD (o.base, 0))))
  trapFirst s o.elems (fun e => decide (at_ e < 0) || decide ((g.limit : Int) < at_ e + e.2 - 1)) 0x03 (fun e => ofInt (at_ e))
  if !o.baseOk g.base (o.base + add) then trap s 0x06 (ofInt (g.base + o.base + add))
  trapFirst s o.elems (fun e => (g.base + (at_ e).toNat) % o.align != 0) 0x06 (fun e => w64 (g.base + (at_ e).toNat))

/-- The checks of the callers' segments that an operand in g7 passes (R304), with the same alignments. -/
def windowElems (s : State) (need : Nat) (o : VecOperand) : List (Seg × Nat) → Run Unit
  | [] => .ok ()
  | (g, add) :: rest => do
    elemChecks s g (!g.isVoid && hasRights g.rights need) add o
    windowElems s need o rest

/-- The storage of each element of an operand in segment register k (R114, R163); form is what else the segment must be. -/
def elemTargets (s : State) (k : BitVec 3) (form : Seg → Bool) (need : Nat) (o : VecOperand) : Run (List Target) := do
  let g := segOf s s.cur k
  elemChecks s g (!g.isVoid && hasRights (effRights s k g) need && form g) 0 o
  if g.kind = 5 then
    let c := windowChain (myFrames s) g.base
    windowElems s need o c.1
    o.elems.mapM fun e => windowTarget s c.2 e.2 e.1.toNat
  else o.elems.mapM fun e => storage s g.kind (g.base + e.1.toNat) e.2 e.1 (domOf s k) false

/-- The targets of the active lanes of a masked access: elements of size bytes at offs, the base at an offset with an alignment of its own
(R158). With no active lane, what is said of the segment and of the base is still checked; DESIGN CHOICE (log entry 66): 0x04 then has the
base's offset as its value. -/
def vecTargets (s : State) (k : BitVec 3) (p : Word) (offs : List Int) (size : Nat) (base : Int × Nat) (align need : Nat) :
    Run (List Target) := do
  if !ptrOk p then trap s 0x05 p
  elemTargets s k (fun _ => true) need
    { elems := offs.map fun x => (x, size), base := base.1, baseOk := fun b x => ((b : Int) + x) % base.2 == 0, align := align }

/-- The page parts of a target. -/
def targetParts (t : Target) (size : Nat) : List (Nat × Nat) :=
  match t with | .paged cva _ => pageParts cva (size + 1) size | _ => []

/-- Translate pages in order at a cluster's port; a page translated already is not asked for again. -/
def pagesXlAt (s : State) (cl p : Nat) (done : List (Nat × Xl)) : List Nat → State × List (Nat × Xl)
  | [] => (s, done)
  | a :: rest =>
    if done.any fun d => d.1 == a / 4096 then pagesXlAt s cl p done rest
    else
      let r := translateAt s cl p a
      pagesXlAt r.1 cl p (done ++ [(a / 4096, r.2)]) rest
def pagesXl (s : State) (p : Nat) (done : List (Nat × Xl)) (l : List Nat) : State × List (Nat × Xl) :=
  pagesXlAt s (myCluster s) p done l

/-- The translation of a page among those made. -/
def xlOf (l : List (Nat × Xl)) (a : Nat) : Xl := ((l.find? fun d => d.1 == a / 4096).map (·.2)).getD .malformed

/-- The place of a part, once its page is translated. -/
def partPlace (s : State) (p : Nat) (l : List (Nat × Xl)) (dom : Option Nat) (a n : Nat) : Option Place :=
  match xlOf l a with
  | .ok t =>
    let fp := footprintFlat s (threadOf s.cur) p a
    let flat := fp.getD (t.flat + a % 4096)
    some { ty := t.space, addrs := seqNat flat n, dom := dom, foot := if fp.isSome then some (p, seqNat a n) else none,
           node := nodeOf flat, ceil := min t.ceil (typeCap t.space) }
  | _ => none

/-- The places of a checked target. -/
def targetPlaces (s : State) (p : Nat) (l : List (Nat × Xl)) (t : Target) (size : Nat) : List Place :=
  match t with
  | .lm c a => [{ ty := .lm, addrs := seqNat (flatLocal c a) size, dom := none, foot := none, node := 0, ceil := 0 }]
  | .sp c a => [{ ty := .sp, addrs := seqNat (flatScratch c a) size, dom := none, foot := none, node := 0, ceil := 0 }]
  | .paged _ dom => (targetParts t size).filterMap fun r => partPlace s p l dom r.1 r.2

/-- The pages of all targets, in the order of R163: footprints for a store, presence, protection, and for a store the key
domain (R380). Targets come with their sizes. -/
def vecPlaces (s : State) (need kind : Nat) (ts : List (Target × Nat)) : Run (State × List Place) := do
  let p := (myPart s).getD 64
  let parts := ts.flatMap fun t => targetParts t.1 t.2
  let write := need &&& 2 != 0
  if write && parts.any fun r => (footprintAt s p r.1).isSome then trapFree s 0x0D
  let (s1, l) := pagesXl s p [] (parts.map (·.1))
  match parts.find? fun r => match xlOf l r.1 with | .notPresent _ _ => true | .moving _ => true | _ => false with
  | some r => match xlOf l r.1 with
    | .notPresent a st => park s1 .notPresent true (.fault a st write kind false)
    | .moving f => park s1 .notPresent true (.moving f)
    | _ => pure ()
  | none => pure ()
  trapFirst s1 parts (fun r => match xlOf l r.1 with | .malformed => true | .ok t => !tlbAllows t need | _ => false) 0x15
    (fun r => w64 r.1)
  if parts.any fun r => xlOf l r.1 == .poisoned then trapFree s1 0x16
  let pls := ts.flatMap fun t => targetPlaces s1 p l t.1 t.2
  if write && pls.any fun pl => !(pl.addrs.all (lineOpens s1 pl.dom)) then trapFree s1 0x16
  return (s1, pls)

/-- The size of the chunks of a memory type (R245). -/
def chunkSize (ty : Space) : Nat := if nearSpace ty then 16 else 8

/-- One byte of a place, as a place. -/
def bytePlace (pl : Place) (i a : Nat) : Place := { pl with addrs := [a], foot := pl.foot.map fun f => (f.1, [f.2.getD i 0]) }

/-- Bytes of one chunk of memory; of a footprint also of one chunk of PVAs. -/
def sameChunk (a b : Place) : Bool :=
  let ch := chunkSize a.ty
  let x := a.addrs.headD 0
  let y := b.addrs.headD 0
  a.ty == b.ty && a.node == b.node && a.dom == b.dom && x / ch == y / ch && decide (x < y) &&
  (match a.foot, b.foot with
   | none, none => true
   | some f, some g => f.1 == g.1 && f.2.headD 0 / ch == g.2.headD 0 / ch
   | _, _ => false)

/-- Join bytes that follow one another into chunks (R245): one event per chunk, holes allowed. -/
def joinChunks : List Place → List Place
  | [] => []
  | a :: rest =>
    match joinChunks rest with
    | [] => [a]
    | b :: bs =>
      if sameChunk a b then
        { a with addrs := a.addrs.headD 0 :: b.addrs, foot := a.foot.map fun f => (f.1, f.2 ++ (b.foot.map (·.2)).getD []) } :: bs
      else a :: b :: bs

/-- The chunks of the places of one access. -/
def chunked (l : List Place) : List Place := joinChunks (l.flatMap fun pl => pl.addrs.mapIdx fun i a => bytePlace pl i a)

/-- Put the relaxed events of an access into the program order of the executing slot; the ids are consecutive, and the first names the
group. A write waits for its bytes until its entry is performed. -/
def pushPlaces (s : State) (l : List Place) (k : EvKind) : State :=
  l.foldl (fun t pl =>
    pushEv t { placeEv (threadOf s.cur) pl k [] .relaxed .thread
      (if k == .read then viewPath s (threadOf s.cur) pl.ty pl.node else pathOf s (threadOf s.cur) pl.ty pl.node) with
      group := s.nextId }) s

/-- The ids given to n events pushed now. -/
def nextIds (s : State) (n : Nat) : List Nat := (List.range n).map (s.nextId + ·)

end Sys2Proof.Machine
end

