-- ==== Sys2Proof/Machine/VectorTable.lean ====
section
/-! DEFINITION. Tables over the vector instructions: what each computes (R144 to R157, R164), its vector register fields and
their advance in a VLOOP (R165), the mask it writes, and the group span of a conversion (R88). -/

namespace Sys2Proof.Machine

/-- What an entry computes when it is performed. Memory and matrix entries are performed elsewhere. -/
def vecEffect (i : Instr) (x : VIn) : VOut :=
  match i with
  | .vaddF32 d a b m => lanes3 x 32 d a b m (fAdd fp32 x.rm)
  | .vsubF32 d a b m => lanes3 x 32 d a b m (fSub fp32 x.rm)
  | .vmulF32 d a b m => lanes3 x 32 d a b m (fMul fp32 x.rm)
  | .vfmaF32 d a b m => lanes3 x 32 d a b m (fMadd fp32 x.rm)
  | .vfmsF32 d a b m => lanes3 x 32 d a b m (fMsub fp32 x.rm)
  | .vminF32 d a b m => lanes3 x 32 d a b m (fMin fp32)
  | .vmaxF32 d a b m => lanes3 x 32 d a b m (fMax fp32)
  | .vdivF32 d a b m => lanes3 x 32 d a b m (fDiv fp32 x.rm)
  | .vabsF32 d a m => lanes1 x 32 d a m (fAbs fp32)
  | .vnegF32 d a m => lanes1 x 32 d a m (fNeg fp32)
  | .vsqrtF32 d a m => lanes1 x 32 d a m (fSqrt fp32 x.rm)
  | .vsinF32 d a m => lanesApprox x fp32 d a m (trigLane fp32 false)
  | .vcosF32 d a m => lanesApprox x fp32 d a m (trigLane fp32 true)
  | .vexp2F32 d a m => lanesApprox x fp32 d a m (exp2Lane fp32)
  | .vcmpeqF32 d a b m => lanesCmp x 32 d a b m (fEq fp32)
  | .vcmpltF32 d a b m => lanesCmp x 32 d a b m (fLt fp32)
  | .vcmpleF32 d a b m => lanesCmp x 32 d a b m (fLe fp32)
  | .vcmpunF32 d a b m => lanesCmp x 32 d a b m (fUn fp32)
  | .vselF32 d a b m => lanesSel x 32 d a b m
  | .vaddBf16 d a b m => lanes3 x 16 d a b m (fAdd bf16 x.rm)
  | .vsubBf16 d a b m => lanes3 x 16 d a b m (fSub bf16 x.rm)
  | .vmulBf16 d a b m => lanes3 x 16 d a b m (fMul bf16 x.rm)
  | .vfmaBf16 d a b m => lanes3 x 16 d a b m (fMadd bf16 x.rm)
  | .vfmsBf16 d a b m => lanes3 x 16 d a b m (fMsub bf16 x.rm)
  | .vminBf16 d a b m => lanes3 x 16 d a b m (fMin bf16)
  | .vmaxBf16 d a b m => lanes3 x 16 d a b m (fMax bf16)
  | .vdivBf16 d a b m => lanes3 x 16 d a b m (fDiv bf16 x.rm)
  | .vabsBf16 d a m => lanes1 x 16 d a m (fAbs bf16)
  | .vnegBf16 d a m => lanes1 x 16 d a m (fNeg bf16)
  | .vsqrtBf16 d a m => lanes1 x 16 d a m (fSqrt bf16 x.rm)
  | .vsinBf16 d a m => lanesApprox x bf16 d a m (trigLane bf16 false)
  | .vcosBf16 d a m => lanesApprox x bf16 d a m (trigLane bf16 true)
  | .vexp2Bf16 d a m => lanesApprox x bf16 d a m (exp2Lane bf16)
  | .vcmpeqBf16 d a b m => lanesCmp x 16 d a b m (fEq bf16)
  | .vcmpltBf16 d a b m => lanesCmp x 16 d a b m (fLt bf16)
  | .vcmpleBf16 d a b m => lanesCmp x 16 d a b m (fLe bf16)
  | .vcmpunBf16 d a b m => lanesCmp x 16 d a b m (fUn bf16)
  | .vselBf16 d a b m => lanesSel x 16 d a b m
  | .vaddF16 d a b m => lanes3 x 16 d a b m (fAdd fp16 x.rm)
  | .vsubF16 d a b m => lanes3 x 16 d a b m (fSub fp16 x.rm)
  | .vmulF16 d a b m => lanes3 x 16 d a b m (fMul fp16 x.rm)
  | .vfmaF16 d a b m => lanes3 x 16 d a b m (fMadd fp16 x.rm)
  | .vfmsF16 d a b m => lanes3 x 16 d a b m (fMsub fp16 x.rm)
  | .vminF16 d a b m => lanes3 x 16 d a b m (fMin fp16)
  | .vmaxF16 d a b m => lanes3 x 16 d a b m (fMax fp16)
  | .vdivF16 d a b m => lanes3 x 16 d a b m (fDiv fp16 x.rm)
  | .vabsF16 d a m => lanes1 x 16 d a m (fAbs fp16)
  | .vnegF16 d a m => lanes1 x 16 d a m (fNeg fp16)
  | .vsqrtF16 d a m => lanes1 x 16 d a m (fSqrt fp16 x.rm)
  | .vsinF16 d a m => lanesApprox x fp16 d a m (trigLane fp16 false)
  | .vcosF16 d a m => lanesApprox x fp16 d a m (trigLane fp16 true)
  | .vexp2F16 d a m => lanesApprox x fp16 d a m (exp2Lane fp16)
  | .vcmpeqF16 d a b m => lanesCmp x 16 d a b m (fEq fp16)
  | .vcmpltF16 d a b m => lanesCmp x 16 d a b m (fLt fp16)
  | .vcmpleF16 d a b m => lanesCmp x 16 d a b m (fLe fp16)
  | .vcmpunF16 d a b m => lanesCmp x 16 d a b m (fUn fp16)
  | .vselF16 d a b m => lanesSel x 16 d a b m
  | .vaddI32 d a b m => lanes3 x 32 d a b m (iBin 32 (· + ·))
  | .vsubI32 d a b m => lanes3 x 32 d a b m (iBin 32 (· - ·))
  | .vmulI32 d a b m => lanes3 x 32 d a b m (iBin 32 (· * ·))
  | .vmulhI32 d a b m => lanes3 x 32 d a b m (iMulh 32)
  | .vminI32 d a b m => lanes3 x 32 d a b m (iPick 32 true true)
  | .vmaxI32 d a b m => lanes3 x 32 d a b m (iPick 32 true false)
  | .vminnI32 d a b m => lanes3 x 32 d a b m (iPick 32 false true)
  | .vmaxnI32 d a b m => lanes3 x 32 d a b m (iPick 32 false false)
  | .vandI32 d a b m => lanes3 x 32 d a b m (iLogic (· &&& ·))
  | .vorI32 d a b m => lanes3 x 32 d a b m (iLogic (· ||| ·))
  | .vxorI32 d a b m => lanes3 x 32 d a b m (iLogic (· ^^^ ·))
  | .vshlI32 d a b m => lanes3 x 32 d a b m (iShl 32)
  | .vshrI32 d a b m => lanes3 x 32 d a b m (iShr)
  | .vsarI32 d a b m => lanes3 x 32 d a b m (iSar 32)
  | .vaddsI32 d a b m => lanes3 x 32 d a b m (iSat 32 (· + ·))
  | .vsubsI32 d a b m => lanes3 x 32 d a b m (iSat 32 (· - ·))
  | .vcmpeqI32 d a b m => lanesCmp x 32 d a b m (iEq)
  | .vcmpltI32 d a b m => lanesCmp x 32 d a b m (iLt 32)
  | .vcmpltnI32 d a b m => lanesCmp x 32 d a b m (iLtn)
  | .vselI32 d a b m => lanesSel x 32 d a b m
  | .vaddI16 d a b m => lanes3 x 16 d a b m (iBin 16 (· + ·))
  | .vsubI16 d a b m => lanes3 x 16 d a b m (iBin 16 (· - ·))
  | .vmulI16 d a b m => lanes3 x 16 d a b m (iBin 16 (· * ·))
  | .vmulhI16 d a b m => lanes3 x 16 d a b m (iMulh 16)
  | .vminI16 d a b m => lanes3 x 16 d a b m (iPick 16 true true)
  | .vmaxI16 d a b m => lanes3 x 16 d a b m (iPick 16 true false)
  | .vminnI16 d a b m => lanes3 x 16 d a b m (iPick 16 false true)
  | .vmaxnI16 d a b m => lanes3 x 16 d a b m (iPick 16 false false)
  | .vandI16 d a b m => lanes3 x 16 d a b m (iLogic (· &&& ·))
  | .vorI16 d a b m => lanes3 x 16 d a b m (iLogic (· ||| ·))
  | .vxorI16 d a b m => lanes3 x 16 d a b m (iLogic (· ^^^ ·))
  | .vshlI16 d a b m => lanes3 x 16 d a b m (iShl 16)
  | .vshrI16 d a b m => lanes3 x 16 d a b m (iShr)
  | .vsarI16 d a b m => lanes3 x 16 d a b m (iSar 16)
  | .vaddsI16 d a b m => lanes3 x 16 d a b m (iSat 16 (· + ·))
  | .vsubsI16 d a b m => lanes3 x 16 d a b m (iSat 16 (· - ·))
  | .vcmpeqI16 d a b m => lanesCmp x 16 d a b m (iEq)
  | .vcmpltI16 d a b m => lanesCmp x 16 d a b m (iLt 16)
  | .vcmpltnI16 d a b m => lanesCmp x 16 d a b m (iLtn)
  | .vselI16 d a b m => lanesSel x 16 d a b m
  | .vaddI8 d a b m => lanes3 x 8 d a b m (iBin 8 (· + ·))
  | .vsubI8 d a b m => lanes3 x 8 d a b m (iBin 8 (· - ·))
  | .vmulI8 d a b m => lanes3 x 8 d a b m (iBin 8 (· * ·))
  | .vmulhI8 d a b m => lanes3 x 8 d a b m (iMulh 8)
  | .vminI8 d a b m => lanes3 x 8 d a b m (iPick 8 true true)
  | .vmaxI8 d a b m => lanes3 x 8 d a b m (iPick 8 true false)
  | .vminnI8 d a b m => lanes3 x 8 d a b m (iPick 8 false true)
  | .vmaxnI8 d a b m => lanes3 x 8 d a b m (iPick 8 false false)
  | .vandI8 d a b m => lanes3 x 8 d a b m (iLogic (· &&& ·))
  | .vorI8 d a b m => lanes3 x 8 d a b m (iLogic (· ||| ·))
  | .vxorI8 d a b m => lanes3 x 8 d a b m (iLogic (· ^^^ ·))
  | .vshlI8 d a b m => lanes3 x 8 d a b m (iShl 8)
  | .vshrI8 d a b m => lanes3 x 8 d a b m (iShr)
  | .vsarI8 d a b m => lanes3 x 8 d a b m (iSar 8)
  | .vaddsI8 d a b m => lanes3 x 8 d a b m (iSat 8 (· + ·))
  | .vsubsI8 d a b m => lanes3 x 8 d a b m (iSat 8 (· - ·))
  | .vcmpeqI8 d a b m => lanesCmp x 8 d a b m (iEq)
  | .vcmpltI8 d a b m => lanesCmp x 8 d a b m (iLt 8)
  | .vcmpltnI8 d a b m => lanesCmp x 8 d a b m (iLtn)
  | .vselI8 d a b m => lanesSel x 8 d a b m
  | .vperm d a b m => effPerm x d a b m
  | .vslideup d a _ m => effSlideUp x d a m
  | .vslidedn d a _ m => effSlideDown x d a m
  | .vbcast d _ m => effBcast x d m
  | .vredsum d a t m => effRedSum x d a t m
  | .vredmax d a t m => effRedBest true x d a t m
  | .vredmin d a t m => effRedBest false x d a t m
  | .vrediadd d a t m => effRedIntSum x d a t m
  | .vinterl d a b m => effInterl x d a b m
  | .vdeint d a m => effDeint x d a m
  | .mand d a b => effMask2 (· && ·) x d a b
  | .mor d a b => effMask2 (· || ·) x d a b
  | .mxor d a b => effMask2 (· != ·) x d a b
  | .mandn d a b => effMask2 (fun p q => p && !q) x d a b
  | .mnot d a => effMaskNot x d a
  | .mlow d a => effMaskLow x d a
  | .mbelow d a => effMaskBelow x d a
  | .vtbl d a t k m => effTbl x d a t k m
  | .vnar d a _ k c => effNarrow false x d a k c
  | .vnars d a _ k c => effNarrow true x d a k c
  | .vwid d a _ k c => effWiden x d a k c
  | .vwidr d a c => effWiden x d a 0 c
  | .vcvtf d a c => effCvtF x d a c
  | .vcvti d a c => effCvtI x d a c
  | .vhad d a _ k => effHad false x d a k
  | .vhadi d a _ k => effHad true x d a k
  | .vmovv v _ _ => effMovv x v
  | .vsetl d _ => effSetl x d
  | .vzero v m => effZero x v m
  | .vsmovm d _ h => effSmovm x d h
  | .mzero t => effMzero x t
  | _ => VOut.empty

/-- A vector register field advanced by k. -/
def fieldUp (r : BitVec 6) (k : Nat) : BitVec 6 := r + BitVec.ofNat 6 k

/-- A replayed instruction with every vector register field advanced by k (R165). -/
noncomputable def vecShift (i : Instr) (up : Nat) : Instr :=
  match i with
  | .vaddF32 d a b m => .vaddF32 (fieldUp d up) (fieldUp a up) (fieldUp b up) m
  | .vsubF32 d a b m => .vsubF32 (fieldUp d up) (fieldUp a up) (fieldUp b up) m
  | .vmulF32 d a b m => .vmulF32 (fieldUp d up) (fieldUp a up) (fieldUp b up) m
  | .vfmaF32 d a b m => .vfmaF32 (fieldUp d up) (fieldUp a up) (fieldUp b up) m
  | .vfmsF32 d a b m => .vfmsF32 (fieldUp d up) (fieldUp a up) (fieldUp b up) m
  | .vminF32 d a b m => .vminF32 (fieldUp d up) (fieldUp a up) (fieldUp b up) m
  | .vmaxF32 d a b m => .vmaxF32 (fieldUp d up) (fieldUp a up) (fieldUp b up) m
  | .vdivF32 d a b m => .vdivF32 (fieldUp d up) (fieldUp a up) (fieldUp b up) m
  | .vabsF32 d a m => .vabsF32 (fieldUp d up) (fieldUp a up) m
  | .vnegF32 d a m => .vnegF32 (fieldUp d up) (fieldUp a up) m
  | .vsqrtF32 d a m => .vsqrtF32 (fieldUp d up) (fieldUp a up) m
  | .vsinF32 d a m => .vsinF32 (fieldUp d up) (fieldUp a up) m
  | .vcosF32 d a m => .vcosF32 (fieldUp d up) (fieldUp a up) m
  | .vexp2F32 d a m => .vexp2F32 (fieldUp d up) (fieldUp a up) m
  | .vcmpeqF32 d a b m => .vcmpeqF32 d (fieldUp a up) (fieldUp b up) m
  | .vcmpltF32 d a b m => .vcmpltF32 d (fieldUp a up) (fieldUp b up) m
  | .vcmpleF32 d a b m => .vcmpleF32 d (fieldUp a up) (fieldUp b up) m
  | .vcmpunF32 d a b m => .vcmpunF32 d (fieldUp a up) (fieldUp b up) m
  | .vselF32 d a b m => .vselF32 (fieldUp d up) (fieldUp a up) (fieldUp b up) m
  | .vaddBf16 d a b m => .vaddBf16 (fieldUp d up) (fieldUp a up) (fieldUp b up) m
  | .vsubBf16 d a b m => .vsubBf16 (fieldUp d up) (fieldUp a up) (fieldUp b up) m
  | .vmulBf16 d a b m => .vmulBf16 (fieldUp d up) (fieldUp a up) (fieldUp b up) m
  | .vfmaBf16 d a b m => .vfmaBf16 (fieldUp d up) (fieldUp a up) (fieldUp b up) m
  | .vfmsBf16 d a b m => .vfmsBf16 (fieldUp d up) (fieldUp a up) (fieldUp b up) m
  | .vminBf16 d a b m => .vminBf16 (fieldUp d up) (fieldUp a up) (fieldUp b up) m
  | .vmaxBf16 d a b m => .vmaxBf16 (fieldUp d up) (fieldUp a up) (fieldUp b up) m
  | .vdivBf16 d a b m => .vdivBf16 (fieldUp d up) (fieldUp a up) (fieldUp b up) m
  | .vabsBf16 d a m => .vabsBf16 (fieldUp d up) (fieldUp a up) m
  | .vnegBf16 d a m => .vnegBf16 (fieldUp d up) (fieldUp a up) m
  | .vsqrtBf16 d a m => .vsqrtBf16 (fieldUp d up) (fieldUp a up) m
  | .vsinBf16 d a m => .vsinBf16 (fieldUp d up) (fieldUp a up) m
  | .vcosBf16 d a m => .vcosBf16 (fieldUp d up) (fieldUp a up) m
  | .vexp2Bf16 d a m => .vexp2Bf16 (fieldUp d up) (fieldUp a up) m
  | .vcmpeqBf16 d a b m => .vcmpeqBf16 d (fieldUp a up) (fieldUp b up) m
  | .vcmpltBf16 d a b m => .vcmpltBf16 d (fieldUp a up) (fieldUp b up) m
  | .vcmpleBf16 d a b m => .vcmpleBf16 d (fieldUp a up) (fieldUp b up) m
  | .vcmpunBf16 d a b m => .vcmpunBf16 d (fieldUp a up) (fieldUp b up) m
  | .vselBf16 d a b m => .vselBf16 (fieldUp d up) (fieldUp a up) (fieldUp b up) m
  | .vaddF16 d a b m => .vaddF16 (fieldUp d up) (fieldUp a up) (fieldUp b up) m
  | .vsubF16 d a b m => .vsubF16 (fieldUp d up) (fieldUp a up) (fieldUp b up) m
  | .vmulF16 d a b m => .vmulF16 (fieldUp d up) (fieldUp a up) (fieldUp b up) m
  | .vfmaF16 d a b m => .vfmaF16 (fieldUp d up) (fieldUp a up) (fieldUp b up) m
  | .vfmsF16 d a b m => .vfmsF16 (fieldUp d up) (fieldUp a up) (fieldUp b up) m
  | .vminF16 d a b m => .vminF16 (fieldUp d up) (fieldUp a up) (fieldUp b up) m
  | .vmaxF16 d a b m => .vmaxF16 (fieldUp d up) (fieldUp a up) (fieldUp b up) m
  | .vdivF16 d a b m => .vdivF16 (fieldUp d up) (fieldUp a up) (fieldUp b up) m
  | .vabsF16 d a m => .vabsF16 (fieldUp d up) (fieldUp a up) m
  | .vnegF16 d a m => .vnegF16 (fieldUp d up) (fieldUp a up) m
  | .vsqrtF16 d a m => .vsqrtF16 (fieldUp d up) (fieldUp a up) m
  | .vsinF16 d a m => .vsinF16 (fieldUp d up) (fieldUp a up) m
  | .vcosF16 d a m => .vcosF16 (fieldUp d up) (fieldUp a up) m
  | .vexp2F16 d a m => .vexp2F16 (fieldUp d up) (fieldUp a up) m
  | .vcmpeqF16 d a b m => .vcmpeqF16 d (fieldUp a up) (fieldUp b up) m
  | .vcmpltF16 d a b m => .vcmpltF16 d (fieldUp a up) (fieldUp b up) m
  | .vcmpleF16 d a b m => .vcmpleF16 d (fieldUp a up) (fieldUp b up) m
  | .vcmpunF16 d a b m => .vcmpunF16 d (fieldUp a up) (fieldUp b up) m
  | .vselF16 d a b m => .vselF16 (fieldUp d up) (fieldUp a up) (fieldUp b up) m
  | .vaddI32 d a b m => .vaddI32 (fieldUp d up) (fieldUp a up) (fieldUp b up) m
  | .vsubI32 d a b m => .vsubI32 (fieldUp d up) (fieldUp a up) (fieldUp b up) m
  | .vmulI32 d a b m => .vmulI32 (fieldUp d up) (fieldUp a up) (fieldUp b up) m
  | .vmulhI32 d a b m => .vmulhI32 (fieldUp d up) (fieldUp a up) (fieldUp b up) m
  | .vminI32 d a b m => .vminI32 (fieldUp d up) (fieldUp a up) (fieldUp b up) m
  | .vmaxI32 d a b m => .vmaxI32 (fieldUp d up) (fieldUp a up) (fieldUp b up) m
  | .vminnI32 d a b m => .vminnI32 (fieldUp d up) (fieldUp a up) (fieldUp b up) m
  | .vmaxnI32 d a b m => .vmaxnI32 (fieldUp d up) (fieldUp a up) (fieldUp b up) m
  | .vandI32 d a b m => .vandI32 (fieldUp d up) (fieldUp a up) (fieldUp b up) m
  | .vorI32 d a b m => .vorI32 (fieldUp d up) (fieldUp a up) (fieldUp b up) m
  | .vxorI32 d a b m => .vxorI32 (fieldUp d up) (fieldUp a up) (fieldUp b up) m
  | .vshlI32 d a b m => .vshlI32 (fieldUp d up) (fieldUp a up) (fieldUp b up) m
  | .vshrI32 d a b m => .vshrI32 (fieldUp d up) (fieldUp a up) (fieldUp b up) m
  | .vsarI32 d a b m => .vsarI32 (fieldUp d up) (fieldUp a up) (fieldUp b up) m
  | .vaddsI32 d a b m => .vaddsI32 (fieldUp d up) (fieldUp a up) (fieldUp b up) m
  | .vsubsI32 d a b m => .vsubsI32 (fieldUp d up) (fieldUp a up) (fieldUp b up) m
  | .vcmpeqI32 d a b m => .vcmpeqI32 d (fieldUp a up) (fieldUp b up) m
  | .vcmpltI32 d a b m => .vcmpltI32 d (fieldUp a up) (fieldUp b up) m
  | .vcmpltnI32 d a b m => .vcmpltnI32 d (fieldUp a up) (fieldUp b up) m
  | .vselI32 d a b m => .vselI32 (fieldUp d up) (fieldUp a up) (fieldUp b up) m
  | .vaddI16 d a b m => .vaddI16 (fieldUp d up) (fieldUp a up) (fieldUp b up) m
  | .vsubI16 d a b m => .vsubI16 (fieldUp d up) (fieldUp a up) (fieldUp b up) m
  | .vmulI16 d a b m => .vmulI16 (fieldUp d up) (fieldUp a up) (fieldUp b up) m
  | .vmulhI16 d a b m => .vmulhI16 (fieldUp d up) (fieldUp a up) (fieldUp b up) m
  | .vminI16 d a b m => .vminI16 (fieldUp d up) (fieldUp a up) (fieldUp b up) m
  | .vmaxI16 d a b m => .vmaxI16 (fieldUp d up) (fieldUp a up) (fieldUp b up) m
  | .vminnI16 d a b m => .vminnI16 (fieldUp d up) (fieldUp a up) (fieldUp b up) m
  | .vmaxnI16 d a b m => .vmaxnI16 (fieldUp d up) (fieldUp a up) (fieldUp b up) m
  | .vandI16 d a b m => .vandI16 (fieldUp d up) (fieldUp a up) (fieldUp b up) m
  | .vorI16 d a b m => .vorI16 (fieldUp d up) (fieldUp a up) (fieldUp b up) m
  | .vxorI16 d a b m => .vxorI16 (fieldUp d up) (fieldUp a up) (fieldUp b up) m
  | .vshlI16 d a b m => .vshlI16 (fieldUp d up) (fieldUp a up) (fieldUp b up) m
  | .vshrI16 d a b m => .vshrI16 (fieldUp d up) (fieldUp a up) (fieldUp b up) m
  | .vsarI16 d a b m => .vsarI16 (fieldUp d up) (fieldUp a up) (fieldUp b up) m
  | .vaddsI16 d a b m => .vaddsI16 (fieldUp d up) (fieldUp a up) (fieldUp b up) m
  | .vsubsI16 d a b m => .vsubsI16 (fieldUp d up) (fieldUp a up) (fieldUp b up) m
  | .vcmpeqI16 d a b m => .vcmpeqI16 d (fieldUp a up) (fieldUp b up) m
  | .vcmpltI16 d a b m => .vcmpltI16 d (fieldUp a up) (fieldUp b up) m
  | .vcmpltnI16 d a b m => .vcmpltnI16 d (fieldUp a up) (fieldUp b up) m
  | .vselI16 d a b m => .vselI16 (fieldUp d up) (fieldUp a up) (fieldUp b up) m
  | .vaddI8 d a b m => .vaddI8 (fieldUp d up) (fieldUp a up) (fieldUp b up) m
  | .vsubI8 d a b m => .vsubI8 (fieldUp d up) (fieldUp a up) (fieldUp b up) m
  | .vmulI8 d a b m => .vmulI8 (fieldUp d up) (fieldUp a up) (fieldUp b up) m
  | .vmulhI8 d a b m => .vmulhI8 (fieldUp d up) (fieldUp a up) (fieldUp b up) m
  | .vminI8 d a b m => .vminI8 (fieldUp d up) (fieldUp a up) (fieldUp b up) m
  | .vmaxI8 d a b m => .vmaxI8 (fieldUp d up) (fieldUp a up) (fieldUp b up) m
  | .vminnI8 d a b m => .vminnI8 (fieldUp d up) (fieldUp a up) (fieldUp b up) m
  | .vmaxnI8 d a b m => .vmaxnI8 (fieldUp d up) (fieldUp a up) (fieldUp b up) m
  | .vandI8 d a b m => .vandI8 (fieldUp d up) (fieldUp a up) (fieldUp b up) m
  | .vorI8 d a b m => .vorI8 (fieldUp d up) (fieldUp a up) (fieldUp b up) m
  | .vxorI8 d a b m => .vxorI8 (fieldUp d up) (fieldUp a up) (fieldUp b up) m
  | .vshlI8 d a b m => .vshlI8 (fieldUp d up) (fieldUp a up) (fieldUp b up) m
  | .vshrI8 d a b m => .vshrI8 (fieldUp d up) (fieldUp a up) (fieldUp b up) m
  | .vsarI8 d a b m => .vsarI8 (fieldUp d up) (fieldUp a up) (fieldUp b up) m
  | .vaddsI8 d a b m => .vaddsI8 (fieldUp d up) (fieldUp a up) (fieldUp b up) m
  | .vsubsI8 d a b m => .vsubsI8 (fieldUp d up) (fieldUp a up) (fieldUp b up) m
  | .vcmpeqI8 d a b m => .vcmpeqI8 d (fieldUp a up) (fieldUp b up) m
  | .vcmpltI8 d a b m => .vcmpltI8 d (fieldUp a up) (fieldUp b up) m
  | .vcmpltnI8 d a b m => .vcmpltnI8 d (fieldUp a up) (fieldUp b up) m
  | .vselI8 d a b m => .vselI8 (fieldUp d up) (fieldUp a up) (fieldUp b up) m
  | .vperm d a b m => .vperm (fieldUp d up) (fieldUp a up) (fieldUp b up) m
  | .vslideup d a b m => .vslideup (fieldUp d up) (fieldUp a up) b m
  | .vslidedn d a b m => .vslidedn (fieldUp d up) (fieldUp a up) b m
  | .vbcast d a m => .vbcast (fieldUp d up) a m
  | .vredsum d a t m => .vredsum (fieldUp d up) (fieldUp a up) t m
  | .vredmax d a t m => .vredmax (fieldUp d up) (fieldUp a up) t m
  | .vredmin d a t m => .vredmin (fieldUp d up) (fieldUp a up) t m
  | .vrediadd d a t m => .vrediadd (fieldUp d up) (fieldUp a up) t m
  | .vinterl d a b m => .vinterl (fieldUp d up) (fieldUp a up) (fieldUp b up) m
  | .vdeint d a m => .vdeint (fieldUp d up) (fieldUp a up) m
  | .vtbl d a t k m => .vtbl (fieldUp d up) (fieldUp a up) t k m
  | .vnar d a s k c => .vnar (fieldUp d up) (fieldUp a up) s k c
  | .vnars d a s k c => .vnars (fieldUp d up) (fieldUp a up) s k c
  | .vwid d a s k c => .vwid (fieldUp d up) (fieldUp a up) s k c
  | .vwidr d a c => .vwidr (fieldUp d up) (fieldUp a up) c
  | .vcvtf d a c => .vcvtf (fieldUp d up) (fieldUp a up) c
  | .vcvti d a c => .vcvti (fieldUp d up) (fieldUp a up) c
  | .vhad d a s k => .vhad (fieldUp d up) (fieldUp a up) s k
  | .vhadi d a s k => .vhadi (fieldUp d up) (fieldUp a up) s k
  | i => i

/-- The vector registers that an instruction of majors 0x30 to 0x37 names; none for any other instruction. -/
def vecFields (i : Instr) : Option (List (BitVec 6)) :=
  match i with
  | .vaddF32 d a b _ => some [d, a, b]
  | .vsubF32 d a b _ => some [d, a, b]
  | .vmulF32 d a b _ => some [d, a, b]
  | .vfmaF32 d a b _ => some [d, a, b]
  | .vfmsF32 d a b _ => some [d, a, b]
  | .vminF32 d a b _ => some [d, a, b]
  | .vmaxF32 d a b _ => some [d, a, b]
  | .vdivF32 d a b _ => some [d, a, b]
  | .vabsF32 d a _ => some [d, a]
  | .vnegF32 d a _ => some [d, a]
  | .vsqrtF32 d a _ => some [d, a]
  | .vsinF32 d a _ => some [d, a]
  | .vcosF32 d a _ => some [d, a]
  | .vexp2F32 d a _ => some [d, a]
  | .vcmpeqF32 _ a b _ => some [a, b]
  | .vcmpltF32 _ a b _ => some [a, b]
  | .vcmpleF32 _ a b _ => some [a, b]
  | .vcmpunF32 _ a b _ => some [a, b]
  | .vselF32 d a b _ => some [d, a, b]
  | .vaddBf16 d a b _ => some [d, a, b]
  | .vsubBf16 d a b _ => some [d, a, b]
  | .vmulBf16 d a b _ => some [d, a, b]
  | .vfmaBf16 d a b _ => some [d, a, b]
  | .vfmsBf16 d a b _ => some [d, a, b]
  | .vminBf16 d a b _ => some [d, a, b]
  | .vmaxBf16 d a b _ => some [d, a, b]
  | .vdivBf16 d a b _ => some [d, a, b]
  | .vabsBf16 d a _ => some [d, a]
  | .vnegBf16 d a _ => some [d, a]
  | .vsqrtBf16 d a _ => some [d, a]
  | .vsinBf16 d a _ => some [d, a]
  | .vcosBf16 d a _ => some [d, a]
  | .vexp2Bf16 d a _ => some [d, a]
  | .vcmpeqBf16 _ a b _ => some [a, b]
  | .vcmpltBf16 _ a b _ => some [a, b]
  | .vcmpleBf16 _ a b _ => some [a, b]
  | .vcmpunBf16 _ a b _ => some [a, b]
  | .vselBf16 d a b _ => some [d, a, b]
  | .vaddF16 d a b _ => some [d, a, b]
  | .vsubF16 d a b _ => some [d, a, b]
  | .vmulF16 d a b _ => some [d, a, b]
  | .vfmaF16 d a b _ => some [d, a, b]
  | .vfmsF16 d a b _ => some [d, a, b]
  | .vminF16 d a b _ => some [d, a, b]
  | .vmaxF16 d a b _ => some [d, a, b]
  | .vdivF16 d a b _ => some [d, a, b]
  | .vabsF16 d a _ => some [d, a]
  | .vnegF16 d a _ => some [d, a]
  | .vsqrtF16 d a _ => some [d, a]
  | .vsinF16 d a _ => some [d, a]
  | .vcosF16 d a _ => some [d, a]
  | .vexp2F16 d a _ => some [d, a]
  | .vcmpeqF16 _ a b _ => some [a, b]
  | .vcmpltF16 _ a b _ => some [a, b]
  | .vcmpleF16 _ a b _ => some [a, b]
  | .vcmpunF16 _ a b _ => some [a, b]
  | .vselF16 d a b _ => some [d, a, b]
  | .vaddI32 d a b _ => some [d, a, b]
  | .vsubI32 d a b _ => some [d, a, b]
  | .vmulI32 d a b _ => some [d, a, b]
  | .vmulhI32 d a b _ => some [d, a, b]
  | .vminI32 d a b _ => some [d, a, b]
  | .vmaxI32 d a b _ => some [d, a, b]
  | .vminnI32 d a b _ => some [d, a, b]
  | .vmaxnI32 d a b _ => some [d, a, b]
  | .vandI32 d a b _ => some [d, a, b]
  | .vorI32 d a b _ => some [d, a, b]
  | .vxorI32 d a b _ => some [d, a, b]
  | .vshlI32 d a b _ => some [d, a, b]
  | .vshrI32 d a b _ => some [d, a, b]
  | .vsarI32 d a b _ => some [d, a, b]
  | .vaddsI32 d a b _ => some [d, a, b]
  | .vsubsI32 d a b _ => some [d, a, b]
  | .vcmpeqI32 _ a b _ => some [a, b]
  | .vcmpltI32 _ a b _ => some [a, b]
  | .vcmpltnI32 _ a b _ => some [a, b]
  | .vselI32 d a b _ => some [d, a, b]
  | .vaddI16 d a b _ => some [d, a, b]
  | .vsubI16 d a b _ => some [d, a, b]
  | .vmulI16 d a b _ => some [d, a, b]
  | .vmulhI16 d a b _ => some [d, a, b]
  | .vminI16 d a b _ => some [d, a, b]
  | .vmaxI16 d a b _ => some [d, a, b]
  | .vminnI16 d a b _ => some [d, a, b]
  | .vmaxnI16 d a b _ => some [d, a, b]
  | .vandI16 d a b _ => some [d, a, b]
  | .vorI16 d a b _ => some [d, a, b]
  | .vxorI16 d a b _ => some [d, a, b]
  | .vshlI16 d a b _ => some [d, a, b]
  | .vshrI16 d a b _ => some [d, a, b]
  | .vsarI16 d a b _ => some [d, a, b]
  | .vaddsI16 d a b _ => some [d, a, b]
  | .vsubsI16 d a b _ => some [d, a, b]
  | .vcmpeqI16 _ a b _ => some [a, b]
  | .vcmpltI16 _ a b _ => some [a, b]
  | .vcmpltnI16 _ a b _ => some [a, b]
  | .vselI16 d a b _ => some [d, a, b]
  | .vaddI8 d a b _ => some [d, a, b]
  | .vsubI8 d a b _ => some [d, a, b]
  | .vmulI8 d a b _ => some [d, a, b]
  | .vmulhI8 d a b _ => some [d, a, b]
  | .vminI8 d a b _ => some [d, a, b]
  | .vmaxI8 d a b _ => some [d, a, b]
  | .vminnI8 d a b _ => some [d, a, b]
  | .vmaxnI8 d a b _ => some [d, a, b]
  | .vandI8 d a b _ => some [d, a, b]
  | .vorI8 d a b _ => some [d, a, b]
  | .vxorI8 d a b _ => some [d, a, b]
  | .vshlI8 d a b _ => some [d, a, b]
  | .vshrI8 d a b _ => some [d, a, b]
  | .vsarI8 d a b _ => some [d, a, b]
  | .vaddsI8 d a b _ => some [d, a, b]
  | .vsubsI8 d a b _ => some [d, a, b]
  | .vcmpeqI8 _ a b _ => some [a, b]
  | .vcmpltI8 _ a b _ => some [a, b]
  | .vcmpltnI8 _ a b _ => some [a, b]
  | .vselI8 d a b _ => some [d, a, b]
  | .vperm d a b _ => some [d, a, b]
  | .vslideup d a _ _ => some [d, a]
  | .vslidedn d a _ _ => some [d, a]
  | .vbcast d _ _ => some [d]
  | .vredsum d a _ _ => some [d, a]
  | .vredmax d a _ _ => some [d, a]
  | .vredmin d a _ _ => some [d, a]
  | .vrediadd d a _ _ => some [d, a]
  | .vinterl d a b _ => some [d, a, b]
  | .vdeint d a _ => some [d, a]
  | .mand _ _ _ => some []
  | .mor _ _ _ => some []
  | .mxor _ _ _ => some []
  | .mandn _ _ _ => some []
  | .mnot _ _ => some []
  | .mlow _ _ => some []
  | .mbelow _ _ => some []
  | .vtbl d a _ _ _ => some [d, a]
  | .vnar d a _ _ _ => some [d, a]
  | .vnars d a _ _ _ => some [d, a]
  | .vwid d a _ _ _ => some [d, a]
  | .vwidr d a _ => some [d, a]
  | .vcvtf d a _ => some [d, a]
  | .vcvti d a _ => some [d, a]
  | .vhad d a _ _ => some [d, a]
  | .vhadi d a _ _ => some [d, a]
  | _ => none

/-- The mask that an entry writes. -/
def maskWritten (i : Instr) : Option (BitVec 3) :=
  match i with
  | .vcmpeqF32 d _ _ _ => some d
  | .vcmpltF32 d _ _ _ => some d
  | .vcmpleF32 d _ _ _ => some d
  | .vcmpunF32 d _ _ _ => some d
  | .vcmpeqBf16 d _ _ _ => some d
  | .vcmpltBf16 d _ _ _ => some d
  | .vcmpleBf16 d _ _ _ => some d
  | .vcmpunBf16 d _ _ _ => some d
  | .vcmpeqF16 d _ _ _ => some d
  | .vcmpltF16 d _ _ _ => some d
  | .vcmpleF16 d _ _ _ => some d
  | .vcmpunF16 d _ _ _ => some d
  | .vcmpeqI32 d _ _ _ => some d
  | .vcmpltI32 d _ _ _ => some d
  | .vcmpltnI32 d _ _ _ => some d
  | .vcmpeqI16 d _ _ _ => some d
  | .vcmpltI16 d _ _ _ => some d
  | .vcmpltnI16 d _ _ _ => some d
  | .vcmpeqI8 d _ _ _ => some d
  | .vcmpltI8 d _ _ _ => some d
  | .vcmpltnI8 d _ _ _ => some d
  | .mand d _ _ => some d
  | .mor d _ _ => some d
  | .mxor d _ _ => some d
  | .mandn d _ _ => some d
  | .mnot d _ => some d
  | .mlow d _ => some d
  | .mbelow d _ => some d
  | .vsetl d _ => some d
  | .vsmovm d _ _ => some d
  | .vldm v _ _ _ => some v
  | _ => none

/-- The rotation length of a conversion of a register group (R88); 0 for any other instruction. -/
def groupLen (i : Instr) : Nat :=
  match i with
  | .vnar _ _ _ k _ => rotLen k.toNat
  | .vnars _ _ _ k _ => rotLen k.toNat
  | .vwid _ _ _ k _ => rotLen k.toNat
  | .vhad _ _ _ k => rotLen k.toNat
  | .vhadi _ _ _ k => rotLen k.toNat
  | _ => 0

end Sys2Proof.Machine
end

