-- ==== Sys2Proof/Machine/Sequencer.lean ====
section
/-! DEFINITION. The sequencer (R37 to R40, R140 to R143, R165): handing an instruction over, performing an entry, the
deferred exceptions, and the bank, pair and loop instructions (R32, R41, R44, R164). -/

namespace Sys2Proof.Machine

/-! ### Handing over -/

/-- Step 5 of R107: a bank is bound and not hidden. Application cores have no vector instruction (R106). -/
def needBank (s : State) : Run Unit :=
  if isApp s.cur then illegal s
  else if vecHidden (me s) || (me s).vec.bank.isNone then trap s 0x10 0
  else .ok ()

def myClass (s : State) : Nat := (me s).vec.vtype
def myN (s : State) : Nat := (if (me s).ganged then 2 else 1) * halfLanes (classWidth (myClass s))

/-- An instruction with the values fixed at its hand-off. -/
def handedOf (s : State) (i : Instr) (sa sb : Word) (seed : BitVec 32) : Handed :=
  { instr := i, pc := pc s, sa := sa, sb := sb, seed := seed, cls := myClass s, mask := 0, maskOdd := 0, lanes := [],
    extra := [] }

/-- Append an entry to the sequencer and retire; a full sequencer parks with reason 4 (R142). -/
def enqueue (s : State) (h : Handed) (e : SeqEntry) : Run State :=
  if 16 ≤ (me s).vec.seq.length then park s .sequencer false (.retryAfter 15)
  else
    let put := fun (v : VecSt) => { v with seq := v.seq ++ [e], recent := (h :: v.recent).take 16 }
    .ok (retire (modMe s fun x => { x with vec := put x.vec }))

/-- The entry of one instruction. -/
def entryOf (s : State) (h : Handed) : SeqEntry :=
  { body := [h], step := 0, next := 0, last := 0, at_ := 0, pc := h.pc, ganged := (me s).ganged }

/-- Hand an instruction that computes in the bank, once its class is one it accepts (R107 step 6). -/
def handLanes (s : State) (i : Instr) (ok : Nat → Bool) (sa sb : Word) : Run State := do
  needBank s
  if !ok (myClass s) then illegal s
  let h := handedOf s i sa sb 0
  enqueue s h (entryOf s h)

/-- A type code names a type of the class that the minor accepts (R148). -/
def typeIs (t : BitVec 2) (ok : XTy → Bool) (cls : Nat) : Bool :=
  match xty cls t.toNat with | some y => ok y | none => false

def mySeed (s : State) (k : BitVec 3) : BitVec 32 := (me s).vec.seeds[k.toNat]'(k.isLt)

/-- Hand a conversion (R154 to R156): class w8 is illegal; the rotation spec and the group are checked (R78). -/
def handConv (s : State) (i : Instr) (d a : BitVec 6) (k : BitVec 3) (blk : BitVec 2) (rotates : Bool) : Run State := do
  needBank s
  if myClass s = 2 then illegal s
  let seed := mySeed s k
  let tag := w64 (tagOf blk.toNat 0 seed.toNat)
  if rotates && blk == 0 then trap s 0x0A tag
  let span := spanOf (rotLen blk.toNat) (myN s)
  if d.toNat % span != 0 || a.toNat % span != 0 then trap s 0x0A tag
  let h := handedOf s i 0 0 seed
  enqueue s h (entryOf s h)

/-- The last unperformed entry that writes a mask, from the end: how many entries follow it. -/
def maskPending (seq : List SeqEntry) (m : BitVec 3) : Option Nat :=
  if m = 0 then none
  else
    let i := (seq.reverse.takeWhile fun e => !(e.body.any fun h => maskWritten h.instr == some m)).length
    if i < seq.length then some i else none

/-- A memory instruction waits for an earlier entry that writes its mask (R140). -/
def maskHold (s : State) (m : BitVec 3) : Run Unit :=
  match maskPending (me s).vec.seq m with
  | some n => park s .sequencer false (.retryAfter n)
  | none => .ok ()

/-- The banks of the halves of a slot's thread. -/
def halvesOf (k : Nat) (ganged : Bool) : List Nat := if ganged then [k, k + 1] else [k]
def bankOfSlot (s : State) (k : Nat) : Bank :=
  match (slotAt s k).vec.bank with | some b => getBank (coreAt s (coreOfSlot k)) b | none => Bank.zero

/-- The mask of an executing thread as lanes below N, and its halves' words. -/
def maskNow (s : State) (m : BitVec 3) : List Bool × MWord × MWord :=
  let k := myKey s
  let even := bankMask (bankOfSlot s k) m
  let odd := if (me s).ganged then bankMask (bankOfSlot s (k + 1)) m else 0
  let n := halfLanes (classWidth (myClass s))
  ((List.range n).map even.getLsbD ++ (if (me s).ganged then (List.range n).map odd.getLsbD else []), even, odd)

/-- The active lanes of a handed mask. -/
def handedMask (h : Handed) (ganged : Bool) : List Bool :=
  let n := halfLanes (classWidth h.cls)
  (List.range n).map h.mask.getLsbD ++ (if ganged then (List.range n).map h.maskOdd.getLsbD else [])

/-- Hand a memory instruction: its events take their place in program order (R162). -/
def handMem (s : State) (h : Handed) (k : EvKind) (evs : List Place) : Run State :=
  if 16 ≤ (me s).vec.seq.length then park s .sequencer false (.retryAfter 15)
  else
    let h1 := { h with lanes := [(0, nextIds s evs.length)] }
    let s1 := pushPlaces s evs k
    enqueue s1 h1 (entryOf s1 h1)

/-! ### Vector loads and stores: the hand-off (R158 to R161) -/

/-- The active lanes with the offsets of their elements. -/
def activeAt (l : List Bool) (off : Nat → Int) : List Int :=
  (l.mapIdx fun i b => (i, b)).filterMap fun p => if p.2 then some (off p.1) else none

/-- A masked access of one element per lane: checks, pages, events. merge joins the bytes into chunks (R245). DEDUCED (log entry 87): R245 has
the events of an instruction in ascending address order, R162 the lanes of VLDS, VSTS, VLDX and VSTX in ascending lane order; their events
stand in lane order. -/
def vecAccess (s : State) (i : Instr) (a : BitVec 5) (g : BitVec 3) (m : BitVec 3) (size : Nat) (base : Int × Nat)
    (align need : Nat) (off : Nat → Int) (one merge : Bool) : Run State := do
  needBank s
  maskHold s m
  let mk := maskNow s m
  let act := activeAt mk.1 off
  let accs := if one then act.take 1 else act
  let ts ← vecTargets s g (rd s a) accs size base align need
  let (s1, pls) ← vecPlaces s need 0 (ts.map fun t => (t, size))
  let h := { handedOf s i (rd s a) 0 0 with mask := mk.2.1, maskOdd := mk.2.2 }
  handMem s1 h (if need &&& 2 == 0 then .read else .write) (if merge then chunked pls else pls)

def laneBytes (s : State) : Nat := classWidth (myClass s) / 8
/-- The displacement of R101. -/
def vmDisp (b : BitVec 5) : Int := b.toInt * 128

noncomputable def execVld (v : BitVec 6) (a b : BitVec 5) (g m : BitVec 3) (s : State) : Out :=
  (vecAccess s (.vld v a b g m) a g m (laneBytes s) (ptrOff (rd s a) + vmDisp b, 64) 1 rR
    (fun i => ptrOff (rd s a) + vmDisp b + i * laneBytes s) false true).out
noncomputable def execVst (v : BitVec 6) (a b : BitVec 5) (g m : BitVec 3) (s : State) : Out :=
  (vecAccess s (.vst v a b g m) a g m (laneBytes s) (ptrOff (rd s a) + vmDisp b, 64) 1 rW
    (fun i => ptrOff (rd s a) + vmDisp b + i * laneBytes s) false true).out
noncomputable def execVlds (v : BitVec 6) (a b : BitVec 5) (g m : BitVec 3) (s : State) : Out :=
  (vecAccess s (.vlds v a b g m) a g m (laneBytes s) (ptrOff (rd s a), laneBytes s) (laneBytes s) rR
    (fun i => ptrOff (rd s a) + i * (rd s b).toInt) false false).out
noncomputable def execVsts (v : BitVec 6) (a b : BitVec 5) (g m : BitVec 3) (s : State) : Out :=
  (vecAccess s (.vsts v a b g m) a g m (laneBytes s) (ptrOff (rd s a), laneBytes s) (laneBytes s) rW
    (fun i => ptrOff (rd s a) + i * (rd s b).toInt) false false).out
noncomputable def execVldb (v : BitVec 6) (a b : BitVec 5) (g m : BitVec 3) (s : State) : Out :=
  (vecAccess s (.vldb v a b g m) a g m (laneBytes s) (0, 1) (laneBytes s) rR
    (fun _ => ptrOff (rd s a) + vmDisp b) true true).out

/-- What an entry sees. DESIGN CHOICE (log entry 89): the world that a table slot of VTBL is compared with is the slot's when the entry is
performed, world 0 at TL2; R152 does not say which world counts when it changes after the hand-off. -/
def viewOfEntry (s : State) (k : Nat) (e : SeqEntry) (h : Handed) : VIn :=
  { banks := (halvesOf k e.ganged).map (bankOfSlot s), cls := h.cls, sa := h.sa, sb := h.sb, seed := h.seed,
    rm := rmOf ((slotAt s k).sc.fpmode.toNat), tables := (coreAt s (coreOfSlot k)).tables, world := (slotAt s k).world,
    pick := s.free }

/-- The register that a vector load writes, and the accumulator tile that a matrix instruction writes. -/
def loadedReg : Instr → Option (BitVec 6)
  | .vld v _ _ _ _ | .vlds v _ _ _ _ | .vldb v _ _ _ _ | .vldx v _ _ _ _ | .vldf v _ _ _ => some v
  | .tldv v _ _ _ => some (v.setWidth 6)
  | _ => none
def accTile : Instr → Option Nat
  | .mma _ _ t | .mmas _ _ t | .mmr _ _ t => some t.toNat
  | _ => none

/-- The index of a lane of VLDX, VSTX and VSTXA (R161). -/
def laneIndex (s : State) (iv : BitVec 6) (i : Nat) : Int :=
  let k := myKey s
  let per := if (me s).ganged then 64 else 32
  let r := iv.toNat + i / per
  let j := i % per
  let half := if j < 32 then bankOfSlot s k else bankOfSlot s (k + 1)
  sx ((bankReg half r).toNat / 2 ^ (32 * (j % 32))) 32

/-- The vector registers that an instance of an entry writes: replay j of an instruction. -/
noncomputable def instanceWrites (s : State) (k : Nat) (e : SeqEntry) (h : Handed) (j : Nat) : List Nat :=
  match loadedReg h.instr, accTile h.instr with
  | some v, _ => [v.toNat]
  | none, some t => (List.range 32).map (32 * t + ·)
  | none, none => (vecEffect (vecShift h.instr (j * e.step)) (viewOfEntry s k e h)).regs.map (·.1)

/-- The vector registers that what remains of an entry writes. -/
noncomputable def entryWrites (s : State) (k : Nat) (e : SeqEntry) : List Nat :=
  (List.range (e.last + 1 - e.next)).flatMap fun i =>
    (if i = 0 then e.body.drop e.at_ else e.body).flatMap fun h => instanceWrites s k e h (e.next + i)

/-- The checks that come before the lanes of a gather or scatter. An index register that an earlier entry writes is read in sequencer
order: the hand-off waits until the last such entry is performed (log entry 8). -/
noncomputable def indexHold (s : State) (iv : BitVec 6) : Run Unit := do
  needBank s
  let per := if (me s).ganged then 64 else 32
  let group := myN s / per
  if iv.toNat % group ≠ 0 then illegal s
  let writes := fun (e : SeqEntry) =>
    (entryWrites s (myKey s) e).any fun r => decide (iv.toNat ≤ r) && decide (r < iv.toNat + group)
  let after := ((me s).vec.seq.reverse.takeWhile fun e => !writes e).length
  if after < (me s).vec.seq.length then park s .sequencer false (.retryAfter after)

noncomputable def execVldx (v : BitVec 6) (a : BitVec 5) (i : BitVec 6) (g m : BitVec 3) (s : State) : Out :=
  Run.out do
    indexHold s i
    vecAccess s (.vldx v a i g m) a g m (laneBytes s) (0, 1) (laneBytes s) rR
      (fun j => ptrOff (rd s a) + laneIndex s i j) false false
noncomputable def execVstx (v : BitVec 6) (a : BitVec 5) (i : BitVec 6) (g m : BitVec 3) (s : State) : Out :=
  Run.out do
    indexHold s i
    vecAccess s (.vstx v a i g m) a g m (laneBytes s) (0, 1) (laneBytes s) rW
      (fun j => ptrOff (rd s a) + laneIndex s i j) false false
noncomputable def execVstxa (v : BitVec 6) (a : BitVec 5) (i : BitVec 6) (g m : BitVec 3) (s : State) : Out :=
  Run.out do
    indexHold s i
    vecAccess s (.vstxa v a i g m) a g m (laneBytes s) (0, 1) (laneBytes s) (rR + rW + rA)
      (fun j => ptrOff (rd s a) + laneIndex s i j) false false

/-- VLDM and VSTM: 16 bytes for each half (R158). -/
def maskAccess (s : State) (i : Instr) (a b : BitVec 5) (g : BitVec 3) (need : Nat) : Run State := do
  needBank s
  let size := if (me s).ganged then 32 else 16
  let ts ← vecTargets s g (rd s a) [ptrOff (rd s a) + vmDisp b] size (0, 1) 16 need
  let (s1, pls) ← vecPlaces s need 0 (ts.map fun t => (t, size))
  handMem s1 (handedOf s i (rd s a) 0 0) (if need &&& 2 == 0 then .read else .write) (chunked pls)
noncomputable def execVldm (v : BitVec 3) (a b : BitVec 5) (g : BitVec 3) (s : State) : Out :=
  (maskAccess s (.vldm v a b g) a b g rR).out
noncomputable def execVstm (v : BitVec 3) (a b : BitVec 5) (g : BitVec 3) (s : State) : Out :=
  (maskAccess s (.vstm v a b g) a b g rW).out

/-- The scale area of a segment (R113): its first CVA. -/
def scaleBase (g : Seg) : Nat := g.base + (g.limit + 1 + 63) / 64 * 64

/-- The offsets and bytes of n elements of w bits that lie one after the other. -/
def packedElems (off : Int) (w n : Nat) : List (Int × Nat) :=
  (List.range n).map fun i => (off + (w * i / 8 : Nat), (w * i + w - 1) / 8 - w * i / 8 + 1)

/-- The targets of n elements and their scale bytes of a format from an offset on, with their numbers of bytes (R159, R160, R113); elems
are the parts that the checks of R114 are made for. The class and block checks stand where R163 puts them. -/
def fmtTargets (s : State) (k : BitVec 3) (p : Word) (off : Int) (code blen n need : Nat) (elems : List (Int × Nat)) (spec : Run Unit) :
    Run (List (Target × Nat)) := do
  let w := elemWidth code
  let bl := if isMx code then blockLen blen else 1
  if !ptrOk p || !fmtOk code blen then trap s 0x05 p
  let ts ← elemTargets s k (fun g => !isMx code || g.kind == 4) need
    { elems := elems, base := off, align := 1,
      baseOk := fun b x => if code = 0 then ((b : Int) + x) % 64 == 0 else x * 8 % (w * bl) == 0 }
  spec
  let size := if code = 0 then 128 * (if (me s).ganged then 2 else 1) else n * w / 8
  let all := (ts.take 1).map fun t => (t, size)
  if isMx code then
    return all ++ [(.paged (scaleBase (segOf s s.cur k) + off.toNat * 8 / w / bl) (domOf s k), n / bl)]
  else return all

/-- The lanes of a format access: raw elements are as wide as the lanes (R159). -/
def fmtElems (s : State) (off : Int) (code : Nat) : List (Int × Nat) :=
  packedElems off (if code = 0 then 8 * laneBytes s else elemWidth code) (myN s)

/-- VLDF (R159). -/
noncomputable def execVldf (v : BitVec 6) (a b : BitVec 5) (g : BitVec 3) (s : State) : Out :=
  Run.out do
    needBank s
    let p := rd s a
    let code := bits p.toNat 63 59
    let blen := bits p.toNat 58 56
    let off := (ptrOff p : Int) + vmDisp b
    let ts ← fmtTargets s g p off code blen (myN s) rR (fmtElems s off code) (if myClass s = 2 then illegal s else .ok ())
    let (s1, pls) ← vecPlaces s rR 0 ts
    handMem s1 { handedOf s (.vldf v a b g) p 0 0 with extra := [code, blen] } .read (chunked pls)

/-- VSTF (R160): the block code and the seed register stand in the b field (R101). -/
noncomputable def execVstf (v : BitVec 6) (a : BitVec 5) (k : BitVec 2) (sd g : BitVec 3) (s : State) : Out :=
  Run.out do
    needBank s
    let p := rd s a
    let code := bits p.toNat 63 59
    let blen := bits p.toNat 58 56
    let n := rotLen k.toNat
    let seed := mySeed s sd
    let spec : Run Unit :=
      if isNarrow code && (n == 0 || decide (myN s < n)) then trap s 0x0A (w64 (tagOf k.toNat 0 seed.toNat))
      else if myClass s = 2 then illegal s else .ok ()
    let ts ← fmtTargets s g p (ptrOff p) code blen (myN s) rW (fmtElems s (ptrOff p) code) spec
    let (s1, pls) ← vecPlaces s rW 0 ts
    handMem s1 { handedOf s (.vstf v a k sd g) p 0 seed with extra := [code, blen, n] } .write (chunked pls)

/-! ### Performing an entry -/

def setBankReg (b : Bank) (r : Nat) (v : VWord) : Bank := if h : r < 64 then { b with v := b.v.set r v } else b
/-- A write of m0 is discarded (R34). -/
def setBankMask (b : Bank) (k : BitVec 3) (v : MWord) : Bank :=
  if k = 0 then b else { b with m := b.m.set k.toNat v k.isLt }

/-- Change the bank of a slot. -/
def modBankOf (s : State) (k : Nat) (f : Bank → Bank) : State :=
  match (slotAt s k).vec.bank with
  | some b => modCore s (coreOfSlot k) fun c => setBank c b (f (getBank c b))
  | none => s

/-- Write the registers and masks of a result to the halves of a thread. -/
def writeHalves (s : State) (ks : List Nat) (o : VOut) : State :=
  (ks.mapIdx fun i k => (i, k)).foldl (fun t p => modBankOf t p.2 fun b =>
    o.masks.foldl (fun b m => setBankMask b m.1 (m.2.getD p.1 0))
      (o.regs.foldl (fun b r => setBankReg b r.1 (r.2.getD p.1 0)) b)) s

/-- Raise flags: in the slot, and in the cluster's sticky bits (R58, R61). -/
def raiseFlags (s : State) (k : Nat) (f : FFlags) : State :=
  if f = 0 then s else
  modCluster (modSlot s k fun x => { x with sc := { x.sc with fpflags := x.sc.fpflags ||| f.setWidth 64 } })
    (clusterOfSlot k) fun c => { c with sticky := c.sticky ||| f, raisedAt := s.cycle,
                                        raised := if c.raisedAt = s.cycle then c.raised ||| f else f }

/-- The trap enables of a slot, in the order of the flags (R57). -/
def enabledFlags (s : State) (k : Nat) : FFlags := BitVec.ofNat 5 (bits (slotAt s k).sc.fpmode.toNat 6 2)

/-- A slot held by its sequencer goes on when the sequencer has become short enough (R29, R142). -/
def wakeSequencer (s : State) (k : Nat) : State :=
  match (slotAt s k).park with
  | some { cont := .retryAfter n, .. } => if (slotAt s k).vec.seq.length ≤ n then resumeOf s k else s
  | _ => s

/-- Freeze the sequencer at its head with a deferred cause (R40, R403). DESIGN CHOICE (log entry 86): R403 names parks with reason 4 only; a
slot parked on a matrix instruction that waits behind the entry and holds nothing leaves its park in the same way, unretired, and takes the
trap at that instruction. -/
def freeze (s : State) (k cause : Nat) (p : Word) : State :=
  let s1 := modSlot s k fun x => { x with vec := { x.vec with frozen := true, deferred := some (cause + 0x100, p) } }
  match (slotAt s1 k).park with
  | some { reason := .sequencer, .. } => readyOf s1 (.slot k)
  | some { cont := .matrix, .. } => if matrixHeld s1 k then s1 else abandonPark s1 k
  | _ => s1

/-- The instance after the one performed; the entry leaves when the last is done (R165). -/
def advanceEntry (s : State) (k : Nat) (e : SeqEntry) (rest : List SeqEntry) : State :=
  let e1 : Option SeqEntry :=
    if e.at_ + 1 < e.body.length then some { e with at_ := e.at_ + 1 }
    else if e.next < e.last then some { e with at_ := 0, next := e.next + 1 } else none
  releaseMatrix (wakeSequencer (modSlot s k fun x => { x with vec := { x.vec with seq := e1.toList ++ rest } }) k) k

/-- Commit a result: an enabled flag freezes the entry and nothing is written (R60, R141). -/
def commitEntry (s : State) (k : Nat) (e : SeqEntry) (rest : List SeqEntry) (o : VOut) (after : State → State) : State :=
  let t := o.flags &&& enabledFlags s k
  if t ≠ 0 then freeze { s with free := s.free + o.drawn } k (0x08 + o.flags.toNat * 512) e.pc
  else
    let s1 := after { s with free := s.free + o.drawn }
    advanceEntry (raiseFlags (writeHalves s1 (halvesOf k e.ganged) o) k o.flags) k e rest

/-- The bytes of the bound events, in order; none while one is not bound. -/
def boundBytes (s : State) : List Nat → Option (List Byte)
  | [] => some []
  | i :: rest => match evIn s.bound i with
    | some e => (boundBytes s rest).map (e.data ++ ·)
    | none => none

/-- An event that found poison is read again when its entry is performed again (R40). -/
def readAgain (s : State) (ids : List Nat) : State :=
  { s with bound := s.bound.map fun e =>
      if ids.contains e.id && e.poisoned && e.kind == .read then
        { e with data := readNow s e, poisoned := !(e.addrs.all (lineOpens s e.dom)) } else e }

/-- Give bytes to the waiting writes of an entry, in order. -/
def fillWrites (l : List MemEv) (ids : List Nat) (data : List Byte) : List MemEv :=
  match ids with
  | [] => l
  | i :: rest =>
    let n := match evIn l i with | some e => e.addrs.length | none => 0
    fillWrites (l.map fun e => if e.id = i then { e with data := data.take n } else e) rest (data.drop n)

/-- Give the operands to the waiting atomics of VSTXA, and make them atomics (R161). -/
def fillAtomics (l : List MemEv) (ids : List Nat) (data : List Byte) : List MemEv :=
  match ids with
  | [] => l
  | i :: rest =>
    let n := match evIn l i with | some e => e.addrs.length | none => 0
    fillAtomics (l.map fun e => if e.id = i then
        { e with kind := .atomic .add (leNat (data.take n)) 0, scope := if nearSpace e.space then .cluster else .partition }
      else e) rest (data.drop n)

/-- The lanes of a list of bytes. -/
def bytesLanes (n : Nat) (bs : List Byte) : List Nat := (chunksOf n bs.length bs).map leNat
/-- The bytes of lanes of w bits. -/
def lanesBytes (w : Nat) (l : List Nat) : List Byte := leBytes ((l.length * w + 7) / 8) (packNat w l)

/-- Put values into the active lanes, in order. -/
def fillLanes : List Bool → List Nat → List Nat → List Nat
  | true :: ms, _ :: os, v :: vs => v :: fillLanes ms os vs
  | _ :: ms, o :: os, vs => o :: fillLanes ms os vs
  | _, _, _ => []

/-- Elements in a memory format, widened into the lanes without the inverse rotation (R159). -/
def fmtLoad (x : VIn) (h : Handed) (v : Nat) (bs : List Byte) : VOut :=
  let code := h.extra.getD 0 0
  let blen := h.extra.getD 1 0
  if code = 0 then outReg x x.w v (bytesLanes (x.w / 8) bs) 0
  else
    let w := elemWidth code
    let nb := x.n * w / 8
    let codes := (List.range x.n).map fun i => leNat (bs.take nb) / 2 ^ (w * i) % 2 ^ w
    let ys := widenRun (wideOf x.cls) x.rm (decodeRun code (blockLen blen) codes ((bs.drop nb).map (·.toNat)))
    outReg x x.w v (ys.map (·.1)) (ys.foldl (fun f y => f ||| y.2) 0)

/-- The lanes of a register in a memory format: element bytes, scale bytes and flags (R160). -/
def fmtStore (x : VIn) (h : Handed) (v : Nat) : List Byte × FFlags :=
  let code := h.extra.getD 0 0
  let blen := h.extra.getD 1 0
  let vals := (x.reg x.w v).map (decodeF (wideOf x.cls))
  if code = 0 then (lanesBytes x.w (x.reg x.w v), 0)
  else if isNarrow code then
    let r := narrowRun code (blockLen blen) false x.seed (h.extra.getD 2 0) vals
    (lanesBytes (elemWidth code) r.codes ++ r.scales.map (BitVec.ofNat 8), r.flags)
  else
    let rs := vals.map fun y => match floatFmt code with
      | some f => roundWide f x.rm y
      | none => floatToInt x.rm (-(2 ^ (elemWidth code - 1))) (2 ^ (elemWidth code - 1) - 1) (elemWidth code) y
    (lanesBytes (elemWidth code) (rs.map (·.1)), rs.foldl (fun f y => f ||| y.2) 0)

/-- The result of a vector load from its bytes (R158, R159). -/
def loadResult (x : VIn) (h : Handed) (ganged : Bool) (bs : List Byte) : VOut :=
  let act := handedMask h ganged
  let masked := fun (v : BitVec 6) =>
    outReg x x.w v.toNat (fillLanes act (x.reg x.w v.toNat) (bytesLanes (x.w / 8) bs)) 0
  match h.instr with
  | .vld v _ _ _ _ => masked v
  | .vlds v _ _ _ _ => masked v
  | .vldx v _ _ _ _ => masked v
  | .vldb v _ _ _ _ =>
    let e := leNat bs
    outReg x x.w v.toNat ((act.zip (x.reg x.w v.toNat)).map fun p => if p.1 then e else p.2) 0
  | .vldm v _ _ _ =>
    outMask x v ((bytesLanes 16 bs).flatMap fun b => (List.range (halfLanes x.w)).map fun i => b / 2 ^ i % 2 == 1)
  | .vldf v _ _ _ => fmtLoad x h (v.toNat) bs
  | .tldv v _ _ _ => fmtLoad x h (v.toNat) bs
  | _ => VOut.empty

/-- The bytes and flags of a vector store (R158, R160). -/
def storeResult (x : VIn) (h : Handed) (ganged : Bool) : List Byte × FFlags :=
  let act := handedMask h ganged
  let masked := fun (v : BitVec 6) =>
    (lanesBytes x.w (((act.zip (x.reg x.w v.toNat)).filter (·.1)).map (·.2)), (0 : FFlags))
  match h.instr with
  | .vst v _ _ _ _ => masked v
  | .vsts v _ _ _ _ => masked v
  | .vstx v _ _ _ _ => masked v
  | .vstxa v _ _ _ _ => masked v
  | .vstm v _ _ _ =>
    ((chunksOf (halfLanes x.w) x.banks.length (x.mask v)).flatMap fun bs =>
      leBytes 16 (packNat 1 (bs.map fun b => if b then 1 else 0)), 0)
  | .vstf v _ _ _ _ => fmtStore x h v.toNat
  | .tstv v _ _ _ => fmtStore x h v.toNat
  | _ => ([], 0)

def isVecLoad : Instr → Bool
  | .vld _ _ _ _ _ | .vlds _ _ _ _ _ | .vldb _ _ _ _ _ | .vldx _ _ _ _ _ | .vldm _ _ _ _ | .vldf _ _ _ _ | .tldv _ _ _ _ => true
  | _ => false
def isVecStore : Instr → Bool
  | .vst _ _ _ _ _ | .vsts _ _ _ _ _ | .vstx _ _ _ _ _ | .vstm _ _ _ _ | .vstf _ _ _ _ _ | .tstv _ _ _ _ => true
  | _ => false
def isVecAtomic : Instr → Bool
  | .vstxa _ _ _ _ _ => true
  | _ => false
/-- The events of an entry that found poison, once it is frozen: their bytes are gone until they are performed again (R40). -/
def forgetPoison (s : State) (ids : List Nat) : State :=
  { s with bound := s.bound.map fun b => if ids.contains b.id && b.poisoned then { b with data := [] } else b }

/-- Perform a vector load whose bytes have arrived. -/
def performLoad (s0 : State) (k : Nat) (e : SeqEntry) (rest : List SeqEntry) (h : Handed) : State :=
  match boundBytes s0 (entryIds h) with
  | none => s0
  | some _ =>
    let ids := entryIds h
    let again := (slotAt s0 k).vec.deferred.isNone && s0.bound.any fun b => ids.contains b.id && b.data.isEmpty
    let s := if again then readAgain s0 ids else s0
    if s.bound.any fun b => ids.contains b.id && b.poisoned then
      -- The entry is performed again after TRET, and its poisoned reads with it.
      freeze (forgetPoison s ids) k 0x16 e.pc
    else
      let bs := (boundBytes s ids).getD []
      commitEntry s k e rest (loadResult (viewOfEntry s k e h) h e.ganged bs)
        fun t => { t with bound := t.bound.filter fun b => !(ids.contains b.id) }

/-- Perform a vector store: its writes get their bytes. -/
def performStore (s : State) (k : Nat) (e : SeqEntry) (rest : List SeqEntry) (h : Handed) : State :=
  let r := storeResult (viewOfEntry s k e h) h e.ganged
  commitEntry s k e rest { VOut.empty with flags := r.2 } fun t => { t with iq := fillWrites t.iq (entryIds h) r.1 }

/-- Perform VSTXA: first its atomics get their operands; when all are performed the entry leaves. A lane that found poison has done
nothing: its atomic is performed again after TRET (R40). -/
def performAtomic (s : State) (k : Nat) (e : SeqEntry) (rest : List SeqEntry) (h : Handed) : State :=
  let ids := entryIds h
  let failed := fun (b : MemEv) => ids.contains b.id && b.poisoned
  if s.iq.any fun v => ids.contains v.id && v.kind == .write then
    { s with iq := fillAtomics s.iq ids (storeResult (viewOfEntry s k e h) h e.ganged).1 }
  else
    match boundBytes s ids with
    | none => s
    | some _ =>
      if s.bound.any fun b => failed b && b.data.isEmpty then
        { s with iq := ((s.bound.filter failed).map fun b => { b with poisoned := false }) ++ s.iq,
                 bound := s.bound.filter fun b => !failed b }
      else if s.bound.any failed then freeze (forgetPoison s ids) k 0x16 e.pc
      else advanceEntry { s with bound := s.bound.filter fun b => !(ids.contains b.id) } k e rest

/-- What performing the head entry of a slot's sequencer does (R38, R140). -/
noncomputable def performHead (s : State) (k : Nat) : State :=
  let x := slotAt s k
  match x.vec.seq with
  | [] => s
  | e :: rest =>
    if x.vec.frozen then s
    else match e.body[e.at_]? with
      | none => advanceEntry s k e rest
      | some h =>
        if isMatrix h.instr then s
        else if isVecLoad h.instr then performLoad s k e rest h
        else if isVecStore h.instr then performStore s k e rest h
        else if isVecAtomic h.instr then performAtomic s k e rest h
        else commitEntry s k e rest (vecEffect (vecShift h.instr (e.next * e.step)) (viewOfEntry s k e h)) id

/-- The sequencer that the vector unit of a core takes its next instruction from: round-robin among those whose head can be performed
(R38). -/
noncomputable def vecNext (s : State) (core : Nat) : Option Nat :=
  ((List.range 16).map fun i => slotKey core (((coreAt s core).vecLast + 1 + i) % 16)).find? fun k => decide (performHead s k ≠ s)

/-- It is a slot's turn at its core's vector unit, which accepts one instruction a clock (R38). -/
noncomputable def vecTurn (s : State) (k : Nat) : Bool :=
  (coreAt s (coreOfSlot k)).vecClock != some s.cycle && vecNext s (coreOfSlot k) == some k

/-- SEQUENCER_ENTRY_PERFORM: the head entry of a slot's sequencer is performed. -/
noncomputable def execSequencerEntryPerform (slot : Nat) (s : State) : Out :=
  if vecTurn s slot then
    .next (modCore (performHead s slot) (coreOfSlot slot) fun c => { c with vecClock := some s.cycle, vecLast := slotNo slot })
  else .next s

/-! ### Instructions that act in the scalar pipeline (R164) -/

/-- Wait for the sequencer, after step 5 (R142). -/
def drained (s : State) : Run Unit := do
  needBank s
  drain s

/-- The lanes of a register as the executing thread sees them now. -/
def myLanes (s : State) (r : BitVec 6) : List Nat :=
  (halvesOf (myKey s) (me s).ganged).flatMap fun k => laneList (classWidth (myClass s)) (bankReg (bankOfSlot s k) r.toNat)

def execVmovs (d : BitVec 5) (a : BitVec 6) (b : BitVec 5) (s : State) : Out :=
  Run.out do
    drained s
    return writeRetire s d (w64 ((myLanes s a).getD (rd s b).toNat 0))

def execVwait (s : State) : Out :=
  Run.out do
    drained s
    return retire s

def execVpopm (d : BitVec 5) (a : BitVec 3) (s : State) : Out :=
  Run.out do
    drained s
    return writeRetire s d (w64 ((maskNow s a).1.filter id).length)

def execVmmovs (d : BitVec 5) (a : BitVec 3) (h : BitVec 1) (s : State) : Out :=
  Run.out do
    drained s
    return writeRetire s d (w64 (packNat 1 (((maskNow s a).1.drop (64 * h.toNat)).take 64 |>.map fun b => if b then 1 else 0)))

/-- VBIND (R32). -/
def execVbind (d : BitVec 5) (s : State) : Out :=
  Run.out do
    if isApp s.cur then illegal s
    if vecHidden (me s) then trap s 0x10 0
    match (me s).vec.bank with
    | some b => return writeRetire s d (w64 b)
    | none =>
      match freeBankOf (coreAt s (myCore s)) with
      | some b => return writeRetire (bindBank s (myKey s) b) d (w64 b)
      | none => park (modCore s (myCore s) fun c => { c with bankQueue := c.bankQueue ++ [myKey s] }) .bank false (.bank d)

/-- VFREE (R33, R40, R164). -/
def execVfree (s : State) : Out :=
  Run.out do
    needBank s
    if (me s).ganged then illegal s
    if tl s != 0 && (me s).vec.frozen then return retire (freeBank s (myKey s))
    drain s
    return retire (freeBank s (myKey s))

/-- VTYPE (R35). -/
def execVtype (c : BitVec 2) (s : State) : Out :=
  Run.out do
    needBank s
    if c = 3 then illegal s
    return retire (modMe s fun x => { x with vec := { x.vec with vtype := c.toNat } })

/-- Form the pair of an even slot and its partner (R41): both go on at the PC after their GANG. -/
def formPair (s : State) (k : Nat) : State :=
  let e := k - k % 2
  modSlot (modSlot s e fun x => { x with ganged := true }) (e + 1) fun x =>
    { x with ganged := true, state := .ready, park := none }

/-- The checks of a second GANG, first row first (R41). -/
def gangChecks (s : State) (j : Nat) : Run Unit :=
  if tl s ≠ 0 then illegal s
  else if (slotAt s j).vec.bank.isNone then trap s 0x10 0
  else if (slotAt s j).world != (me s).world then trapFree s 0x11
  else .ok ()

/-- GANG (R41). Slots 14 and 15 have no partner to join them. -/
def execGang (s : State) : Out :=
  Run.out do
    needBank s
    let k := myKey s
    let j := partnerOf k
    let joining := match (slotAt s j).park with | some { cont := .join, .. } => true | _ => false
    if 14 ≤ slotNo k then park s .join false .join
    if (me s).ganged then
      gangChecks s j
      return retire s
    if joining then
      gangChecks s j
      return formPair (completeOf (retire s) (.slot j)) k
    if k % 2 = 0 ∧ (slotAt s j).state = .splitWait then
      gangChecks s j
      return formPair (retire s) k
    park s .join false .join

/-- UNGANG (R44). -/
def execUngang (s : State) : Out :=
  Run.out do
    needBank s
    let k := myKey s
    let s1 := retire s
    if (me s).ganged then
      return modSlot (modSlot s1 k fun x => { x with ganged := false }) (k + 1) fun x =>
        { x with ganged := false, state := .ready, rdy := s.cycle, sc := { x.sc with pc := (slotAt s1 k).sc.pc } }
    if k % 2 = 0 ∧ (slotAt s (k + 1)).state = .splitWait then return readyOf s1 (.slot (k + 1))
    return s1

/-- The loop's entry. -/
def loopEntry (s : State) (body : List Handed) (step count : Nat) : SeqEntry :=
  { body := body, step := step, next := 1, last := count, at_ := 0, pc := pc s, ganged := (me s).ganged }

/-- VLOOP (R165): the checks in the order of its table. -/
noncomputable def execVloop (n : BitVec 6) (a : BitVec 5) (st : BitVec 6) (s : State) : Out :=
  Run.out do
    needBank s
    let body := ((me s).vec.recent.take n.toNat).reverse
    let count := (rd s a).toNat
    if n.toNat = 0 ∨ 16 < n.toNat ∨ (me s).vec.recent.length < n.toNat then illegal s
    if body.any fun h => (vecFields h.instr).isNone then illegal s
    if 65535 < count then illegal s
    if body.any fun h => ((vecFields h.instr).getD []).any fun r => decide (63 < r.toNat + count * st.toNat) then illegal s
    let lanes := fun (h : Handed) => (if (me s).ganged then 2 else 1) * halfLanes (classWidth h.cls)
    -- The group starts of the first two replays decide for all of them.
    let starts := fun (h : Handed) => ((vecFields h.instr).getD []).flatMap fun r =>
      ((List.range (min count 2)).map fun j => r.toNat + (j + 1) * st.toNat)
    match body.find? fun h => (starts h).any fun r => r % spanOf (groupLen h.instr) (lanes h) != 0 with
    | some h =>
      let blk := (List.range 4).find? fun b => rotLen b == groupLen h.instr
      trap s 0x0A (w64 (tagOf (blk.getD 0) 0 h.seed.toNat))
    | none => pure ()
    if count = 0 then return retire s
    let h := handedOf s (.vloop n a st) (rd s a) 0 0
    enqueue s h (loopEntry s body st.toNat count)

end Sys2Proof.Machine
end

