-- ==== Sys2Proof/Machine/Tile.lean ====
section
/-! DEFINITION. Tiles (R200 to R210, R259 to R274): registering, freeing, tenure, publishing, splitting and reading the
shape record, and the vector accesses to a tile. -/

namespace Sys2Proof.Machine

/-- Tile, task and copy commands run on the slots of a cluster's cores only (R106, R372). -/
def clusterCore (s : State) : Run Unit :=
  if isApp s.cur || isGateway (myCore s) then illegal s else .ok ()

/-- Gate instructions, and the commands of engines 6 and 7, run on the slots of barrel cores only (R106). -/
def needSlot (s : State) : Run Unit := if isApp s.cur then illegal s else .ok ()

/-- The result register of a command that returns, then retire (R99). -/
def returns (s : State) (a : BitVec 5) (v : Nat) : State := writeRetire s a (w64 v)

def handleOf (w : Word) : Nat := w.toNat % 2 ^ 32
def handleIx (h : Nat) : Nat := h % 2 ^ 20

/-- The live tile of a handle in the executor's partition: partition, index, tile (R201, R259). -/
def liveTile (s : State) (h : Nat) : Option (Nat × Nat × Tile) :=
  match myPart s with
  | none => none
  | some p =>
    match partAt s p with
    | none => none
    | some x =>
      if handleIx h < 2 ^ x.tileLog2 then
        match lookup x.tiles (handleIx h) with
        | some ix => if ix.gen = h / 2 ^ 20 then ix.tile.map fun t => (p, handleIx h, t) else none
        | none => none
      else none

/-- A valid handle, or the trap 0x0B (R201). -/
def needTile (s : State) (h : Nat) : Run (Nat × Nat × Tile) :=
  match liveTile s h with
  | some x => .ok x
  | none => trap s 0x0B (w64 h)

/-- A memory operand of an engine command: 64-byte displacement (R99). -/
def engineDisp (b : BitVec 5) : Int := b.toInt * 64

/-- The slot's tenure entry on a tile. -/
def tenureOn (s : State) (h : Nat) : Option Tenure := (me s).eng.tenures.find? fun e => e.handle == h
/-- The tenure that the slot holds at its present depth (R302). -/
def tenureHere (s : State) (h : Nat) : Option Tenure :=
  (me s).eng.tenures.find? fun e => e.handle == h && e.granted && e.depth == hdepth (me s)
def needTenure (s : State) (h : Nat) : Run Tenure :=
  match tenureHere s h with | some e => .ok e | none => trapFree s 0x0E
def needWriteTenure (s : State) (h : Nat) : Run Tenure :=
  match tenureHere s h with | some e => if e.write then .ok e else trapFree s 0x0E | none => trapFree s 0x0E
def dropTenure (s : State) (k h : Nat) : State :=
  modSlot s k fun x => { x with eng := { x.eng with tenures := x.eng.tenures.filter fun e => !(e.handle == h) } }

/-! ### TREG (R203, R261 to R263) -/

/-- A little-endian field of a record. -/
def recField (bs : List Byte) (o n : Nat) : Nat := leNat ((bs.drop o).take n)

/-- The shape of a record or a tile: dimensions, strides, element width, and the lengths of R262. -/
structure Shape where
  dims : List Nat
  strides : List Nat
  rank : Nat
  fmt : Nat
  blen : Nat
  morton : Bool
  deriving DecidableEq, Repr

def Shape.dim (x : Shape) (k : Nat) : Nat := x.dims.getD k 1
/-- The stride of dimension k, k = 1 to 3. -/
def Shape.stride (x : Shape) (k : Nat) : Nat := x.strides.getD (k - 1) 0
def Shape.w (x : Shape) : Nat := elemWidth x.fmt
/-- The element bytes of a footprint: e of R262. -/
def Shape.elemExt (x : Shape) : Nat :=
  let from_ := fun (lo : Nat) => ([1, 2, 3].filter fun k => decide (lo ≤ k) && decide (k < x.rank)).foldl
    (fun acc k => acc + (x.dim k - 1) * x.stride k) 0
  if x.morton then x.dim 0 * x.dim 1 * x.w / 8 + from_ 2 else x.dim 0 * x.w / 8 + from_ 1
def Shape.scaleStart (x : Shape) : Nat := (x.elemExt + 63) / 64 * 64
def Shape.ext (x : Shape) : Nat :=
  if isMx x.fmt then x.scaleStart + x.dim 0 / blockLen x.blen * x.dim 1 * x.dim 2 * x.dim 3 else x.elemExt

def tileShape (t : Tile) : Shape :=
  { dims := t.dims, strides := t.strides, rank := t.rank, fmt := t.fmt, blen := t.blen, morton := t.morton }

/-- A power of two with exponent at most 16 (R188). -/
def pow2Upto16 (n : Nat) : Bool := decide (0 < n) && decide (n ≤ 65536) && 2 ^ Nat.log2 n == n
/-- The Morton conditions of R188 on the plane and the format. -/
def mortonOk (c0 c1 fmt : Nat) : Bool := pow2Upto16 c0 && pow2Upto16 c1 && decide (8 ≤ elemWidth fmt) && !isMx fmt

/-- The dimension and stride rules of R263. -/
def shapeOk (x : Shape) : Bool :=
  let row := x.dim 0 * x.w / 8
  x.dims.all (fun d => decide (1 ≤ d)) &&
  ([1, 2, 3].all fun k => decide (k < x.rank) || (x.dim k == 1 && x.stride k == 0)) &&
  x.dim 0 * x.w % 8 == 0 && (!isMx x.fmt || x.dim 0 % blockLen x.blen == 0) &&
  (if x.morton then
    decide (2 ≤ x.rank) && mortonOk (x.dim 0) (x.dim 1) x.fmt &&
    (decide (x.rank < 3) || decide (x.dim 0 * x.dim 1 * x.w / 8 ≤ x.stride 2)) &&
    (decide (x.rank < 4) || decide (x.stride 2 * x.dim 2 ≤ x.stride 3))
   else
    (decide (x.rank < 2) || decide (row ≤ x.stride 1)) &&
    (decide (x.rank < 3) || decide (x.stride 1 * x.dim 1 ≤ x.stride 2)) &&
    (decide (x.rank < 4) || decide (x.stride 2 * x.dim 2 ≤ x.stride 3)))

def recShape (bs : List Byte) : Shape :=
  { dims := (List.range 4).map fun k => recField bs (8 + 4 * k) 4,
    strides := (List.range 3).map fun k => recField bs (24 + 4 * k) 4,
    rank := recField bs 37 1 % 4 + 1, fmt := recField bs 36 1 % 32, blen := recField bs 36 1 / 32,
    morton := bits (recField bs 37 1) 2 2 == 1 }

/-- The tag rule of R91 for a shape record. -/
def recTagOk (x : Shape) (tag : Nat) : Bool :=
  tagOk tag && (tagBlk tag == 0 || (decide (tagAxis tag < x.rank) && x.dim (tagAxis tag) % rotLen (tagBlk tag) == 0))

/-- Every other rule of a record image (R261, R263): zero fields, shape, base and length. -/
def recOk (bs : List Byte) (x : Shape) : Bool :=
  let base := recField bs 0 8
  base / 2 ^ 57 == 0 && base % 4096 == 0 && recField bs 37 1 / 8 == 0 && recField bs 38 4 == 0 &&
  recField bs 42 5 / 2 ^ 36 == 0 && (bs.drop 47).all (· == 0) && shapeOk x && x.ext % 4096 == 0 &&
  decide (x.ext ≤ 2 ^ 32) && decide (base + x.ext ≤ 2 ^ 57)

/-- Translate every page of a footprint: presence, then device memory with write rights (R263). -/
def footPages (s : State) (p : Nat) : List Nat → Run (State × List Nat)
  | [] => .ok (s, [])
  | a :: rest => do
    let (s1, r) := translateAt s (myCluster s) p a
    match r with
    | .notPresent x st => park s1 .notPresent true (.fault x st true 2 false)
    | .moving f => park s1 .notPresent true (.moving f)
    | .poisoned => trapFree s1 0x16
    | .malformed => trap s1 0x15 (w64 a)
    | .ok t =>
      if t.space ≠ .dm ∨ !t.w then trap s1 0x15 (w64 a)
      let (s2, l) ← footPages s1 p rest
      return (s2, t.flat :: l)

/-- The lowest index that is free and not retired (R259). -/
def freeIndexFrom (x : PartSt) (i : Nat) : Assoc TileIx → Nat
  | [] => i
  | (j, ix) :: rest => if j = i ∧ (ix.retired || ix.tile.isSome) then freeIndexFrom x (i + 1) rest
    else if j < i then freeIndexFrom x i rest else i
def freeIndex (x : PartSt) : Nat := freeIndexFrom x 0 x.tiles
def genOf (x : PartSt) (i : Nat) : Nat := match lookup x.tiles i with | some ix => ix.gen | none => 1

/-- Put a tile at an index that is free. -/
def placeTile (s : State) (p i : Nat) (t : Tile) : State :=
  modPart s p fun x => { x with tiles := insert x.tiles i { gen := genOf x i, retired := false, tile := some t } }

def execTreg (g : BitVec 3) (a b : BitVec 5) (s : State) : Out :=
  Run.out do
    clusterCore s
    let (s1, bs) ← readRange s g (rd s a) (engineDisp b) 64 64 2
    let x := recShape bs
    let tag := recField bs 42 5 % 2 ^ 36
    if !fmtOk x.fmt x.blen then trap s1 0x05 (w64 (recField bs 36 1))
    if !recTagOk x tag then trap s1 0x0A (w64 (tagOf (tagBlk tag) 0 (tagSeed tag)))
    if !recOk bs x then trap s1 0x19 0
    let base := recField bs 0 8
    match myPart s1 with
    | none => trap s1 0x15 (w64 base)
    | some p =>
      let (s2, pages) ← footPages s1 p ((List.range (x.ext / 4096)).map fun i => base + 4096 * i)
      match partAt s2 p with
      | none => trap s2 0x15 (w64 base)
      | some q =>
        match q.tiles.find? fun e => match e.2.tile with
          | some t => decide (t.base < base + x.ext) && decide (base < t.base + t.ext)
          | none => false with
        | some e => trap s2 0x0C (w64 (e.2.gen * 2 ^ 20 + e.1))
        | none => pure ()
        let i := freeIndex q
        if 2 ^ q.tileLog2 ≤ i then return returns s2 a 0
        let cl := myCluster s2
        let fr : TFrame := { slot := 0, version := 0, pages := pages, pooled := pages.map fun _ => false,
                             publishTime := (coreAt s2 (myCore s2)).vtime.toNat, nextTime := none, held := none }
        let t : Tile :=
          { base := base, ext := x.ext, dims := x.dims, strides := x.strides, fmt := x.fmt, blen := x.blen,
            morton := x.morton, rank := x.rank, owner := myWorld s2, kdom := myWorld s2, tag := tag, state := 0,
            version := 0, parent := 0, oldest := 0, basePages := pages, frames := [fr], shadow := none, agent := cl,
            tokens := [(cl, 64)], home := 0, requests := [], pins := [], firstChild := 0, children := 0 }
        return returns (placeTile s2 p i t) a (genOf q i * 2 ^ 20 + i)

/-! ### Freeing -/

/-- Copy one page, with its metadata and its poisoned lines. -/
def copyPage (s : State) (src dst : Nat) : State :=
  let cells := (s.mem.filter fun c => decide (src ≤ c.1) && decide (c.1 < src + 4096))
  let mem := cells.foldl (fun m c => memWrite m (c.1 - src + dst) c.2) (memClear s.mem dst 4096)
  let poison := (s.poison.filter fun l => !(decide (dst ≤ l) && decide (l < dst + 4096))) ++
    ((s.poison.filter fun l => decide (src ≤ l) && decide (l < src + 4096)).map fun l => l - src + dst)
  { s with mem := mem, poison := poison, pages := insert s.pages (dst / 4096) (pageAt s src) }

/-- The frames that the entries of a footprint name now, page by page; where a page does not translate, the frame that it had (R352). -/
def entryPages (s : State) (p : Nat) (t : Tile) : List Nat :=
  t.basePages.mapIdx fun j old => match walk s p (t.base + 4096 * j) with | .ok x => x.flat | _ => old

/-- The pages that the published version leaves for the frames that the entries name: from, to. -/
def pagesToReturn (s : State) (p : Nat) (t : Tile) : List (Nat × Nat) :=
  (((frameOf t t.version).map (·.pages)).getD []).zip (entryPages s p t) |>.filter fun q => q.1 != q.2

/-- Slots that wait on a tile that goes: a TSTV that waits for a frame or for pages issues again and finds the handle stale (R260), and a
restored slot waits for its tokens no more. -/
def wakeFreed (s : State) (p h : Nat) : State :=
  s.slots.foldl (fun t e =>
    if partOfSlot s e.1 != some p then t else
    match e.2.park with
    | some { cont := .frame x, .. } => if x = h then resumeOf t e.1 else t
    | some { cont := .restore b l g, .. } => if l.contains h then restoreWait t e.1 b (l.filter (· != h)) g else t
    | _ => t) s

/-- Raw reads of a tile that is gone, not bound yet, read the frames that the entries name (R256, R271). -/
def retarget (s : State) (p : Nat) (t : Tile) (pages : List Nat) : State :=
  { s with iq := s.iq.map fun e => match e.footprint with
    | some (q, l) =>
      if q = p && l.all (fun a => tileHas t a && (footprintAt s p a).isNone) then
        { e with footprint := none, addrs := l.map fun a => pages.getD ((a - t.base) / 4096) 0 + a % 4096 }
      else e
    | none => e }

/-- Free a tile, whatever tenure is held on it: the published pages go back into the frames that the entries name, pool
pages return, every waiting request is answered with 3, the index is free with its generation raised or is retired
(R204, R259, R271, R352). -/
def freeTile (s : State) (p i : Nat) : State :=
  match tileAt s p i with
  | none => s
  | some t =>
    let h := tileHandle s p i
    let s0 := discardShadow (cancelTileTransfers s p h) p i
    let s1 := (pagesToReturn s0 p t).foldl (fun s q => copyPage s q.1 q.2) s0
    let s2 := setFrames s1 p i []
    let s3 := t.requests.foldl (fun s r => settle s p i r 3 0) s2
    let kept := fun (e : Tenure) => !(e.handle == h)
    let drop := fun (x : EngineSt) => { x with tenures := x.tenures.filter kept }
    let holders := s3.slots.filter fun e => partOfSlot s3 e.1 == some p && e.2.eng.tenures.any fun x => x.handle == h
    let s4 := holders.foldl (fun s e => modSlot s e.1 fun x => { x with eng := drop x.eng }) s3
    let next := fun (ix : TileIx) =>
      if ix.gen = 4095 then { ix with retired := true, tile := none } else { ix with gen := ix.gen + 1, tile := none }
    let s5 := wakeFreed s4 p h
    let s6 := modPart s5 p fun x => match lookup x.tiles i with
      | some ix => { x with tiles := insert x.tiles i (next ix) }
      | none => x
    retarget s6 p t (entryPages s0 p t)

/-- TFREE (R204): it parks with reason 0 when there are pages to copy, and no access binds before they are copied (R352). -/
def execTfree (a : BitVec 5) (s : State) : Out :=
  Run.out do
    clusterCore s
    let (p, i, t) ← needTile s (handleOf (rd s a))
    if myWorld s ≠ t.owner ∧ worldNo (myWorld s) ≠ 0 then return returns s a 3
    if t.state = 2 then return returns s a 2
    if t.shadow.isSome ∨ !t.pins.isEmpty then return returns s a 1
    if (pagesToReturn s p t).isEmpty then return returns (freeTile s p i) a 0
    return parkOf (freeTile s p i) s.cur .memory false (.reply a 0)

/-! ### Tenure (R205, R266) -/

/-- The LLC slice of a tile's home entry: number index mod S of the partition's slices, four to each of its granules (R265). -/
def homeSlice (x : PartSt) (i : Nat) : Nat :=
  let n := i % (4 * x.granules.length)
  4 * x.granules.getD (n / 4) 0 + n % 4

/-- The first request from another cluster moves the tile point to a home entry (R265). -/
def reclassify (t : Tile) (cl : Nat) : Tile := if t.state = 0 ∧ cl ≠ t.agent then { t with state := 1 } else t

/-- TACQR and TACQW. DESIGN CHOICE (log entry 84): a `.nw` request that stands counts as tenure for statuses 5 and 4, and these come
before status 3 of a split tile. -/
def acquire (s : State) (a : BitVec 5) (write noWait : Bool) (version : Nat) : Run State := do
  clusterCore s
  let h := handleOf (rd s a)
  let (p, i, t0) ← needTile s h
  if (tenureOn s h).isSome then return returns s a (5 * 2 ^ 32)
  if 8 ≤ (me s).eng.tenures.length then return returns s a (4 * 2 ^ 32)
  let k := myKey s
  let t := reclassify t0 (myCluster s)
  let r : TReq := { slot := k, cluster := myCluster s, write := write, version := version, noWait := noWait,
                    since := none, persistent := none, reg := a }
  let e : Tenure := { handle := h, write := write, granted := false, version := 0, depth := hdepth (me s) }
  let s1 := modMe (setTile s p i (some { t with requests := t.requests ++ [r] })) fun x =>
    { x with eng := { x.eng with tenures := x.eng.tenures ++ [e] } }
  let t1 := { t with requests := t.requests ++ [r] }
  match (if heldBack s1 t1 r then none else decideReq s1 t1 r) with
  | some (st, v) =>
    let r1 := { r with noWait := false }
    let s2 := setTile s1 p i (some { t1 with requests := t.requests ++ [r1] })
    let s3 := settle s2 p i r1 st v
    return if noWait ∧ st = 0 then setPend s3 k 4 else s3
  | none =>
    let s2 := sendHome s1 p i
    if noWait then return returns s2 a (2 * 2 ^ 32)
    else park s2 .tile false (.tenure a h write version)

def execTacqr (w : BitVec 1) (a b : BitVec 5) (s : State) : Out :=
  (acquire s a false (w == 1) ((rd s b).toNat % 2 ^ 32)).out
def execTacqw (w : BitVec 1) (a : BitVec 5) (s : State) : Out := (acquire s a true (w == 1) 0).out

/-- The tokens at an agent, or at the home entry for a source of 128 or more. -/
def tokensAt (t : Tile) (src : Nat) : Nat := if 128 ≤ src then t.home else lookupD t.tokens src 0

/-- The tokens that a holder forwards now: none under write tenure, all for a write or to the persistent requester, one for
a read (R266, R267). -/
def tokensFrom (s : State) (t : Tile) (src dst : Nat) : Nat :=
  let have_ := tokensAt t src
  if t.shadow.isSome || src == dst || have_ == 0 then 0
  else match persistentReq t with
    | some r => if r.cluster = dst then have_ else 0
    | none => match lackingReq s t dst with
      | some r => if r.write then have_ else 1
      | none => 0

/-- Move n tokens. -/
def moveTokens (t : Tile) (src dst n : Nat) : Tile :=
  let out := if 128 ≤ src then { t with home := t.home - n }
    else { t with tokens := insert t.tokens src (lookupD t.tokens src 0 - n) }
  { out with tokens := insert out.tokens dst (lookupD out.tokens dst 0 + n) }

/-- The restored slots of a cluster that wait for the tokens of a tile (R320). -/
def restorers (s : State) (h dst : Nat) : List Nat :=
  (s.slots.filter fun e => clusterOfSlot e.1 == dst && (match e.2.park with
    | some { cont := .restore _ l _, .. } => l.contains h
    | _ => false)).map (·.1)
/-- A restored slot goes on once its cluster holds the 64 tokens. -/
def restoreTokens (s : State) (p i k : Nat) : State :=
  match (slotAt s k).park, tileAt s p i with
  | some { cont := .restore b l g, .. }, some t =>
    if lookupD t.tokens (clusterOfSlot k) 0 = 64 then restoreWait s k b (l.filter fun h => !(h == tileHandle s p i)) g else s
  | _, _ => s

/-- TOKEN_FORWARD: tokens reach a requester, and the tenure they satisfy is granted (R266). -/
def execTokenForward (part tile src dst : Nat) (s : State) : Out :=
  match tileAt s part tile with
  | none => .next s
  | some t =>
    match restorers s (tileHandle s part tile) dst with
    | k :: _ =>
      if src = dst then .next s else .next (restoreTokens (modTile s part tile fun t => moveTokens t src dst (tokensAt t src)) part tile k)
    | [] =>
      let n := tokensFrom s t src dst
      if n = 0 then .next s else .next (serve (modTile s part tile fun t => moveTokens t src dst n) part tile)

/-- PERSISTENT_REQUEST: a request that reached the home 256 clocks ago becomes persistent, one of each cluster (R267). -/
def execPersistentRequest (part tile cluster : Nat) (s : State) : Out :=
  match tileAt s part tile with
  | none => .next s
  | some t =>
    match lackingReq s t cluster with
    | some r =>
      if (match r.since with | some c => decide (c + 256 ≤ s.cycle) | none => false) &&
          !(t.requests.any fun x => x.cluster == cluster && x.persistent.isSome) then
        let n := t.requests.foldl (fun m x => max m (x.persistent.getD 0)) 0
        .next (modTile (countCluster s cluster 11 1) part tile fun t =>
          { t with requests := t.requests.map fun x => if x = r then { x with persistent := some (n + 1) } else x })
      else .next s
    | none => .next s

/-! ### TREL, TABND and PUBLISH (R206, R255, R269, R270) -/

/-- The frame slots in use: VALID of the shape record (R261, R268). -/
def validSlots (t : Tile) : List Nat := t.frames.map (·.slot) ++ (t.shadow.bind (·.frameNo)).toList
/-- The lowest free frame slot, which a new frame takes (log entry 68). -/
def freeFrameSlot (t : Tile) : Option Nat := (List.range 4).find? fun i => !(validSlots t).contains i
/-- The frame slot of the shadow, or the one that it would take. -/
def shadowSlot (t : Tile) : Option Nat :=
  match t.shadow.bind (·.frameNo) with
  | some i => some i
  | none => freeFrameSlot t
def slotFree (t : Tile) : Bool := t.shadow.isNone || (shadowSlot t).isSome

/-- The STATE field of an index: 3 when no tile is live there (R261). -/
def stateField (ix : TileIx) : Nat := match ix.tile with | some t => t.state | none => 3

/-- The shape record of a live tile (R261). -/
def tileRecord (t : Tile) : List Byte :=
  leBytes 8 t.base ++ (List.range 4).flatMap (fun k => leBytes 4 ((tileShape t).dim k)) ++
  (List.range 3).flatMap (fun k => leBytes 4 ((tileShape t).stride (k + 1))) ++
  leBytes 1 (t.blen * 32 + t.fmt) ++ leBytes 1 (4 * flag t.morton + (t.rank - 1)) ++ leBytes 2 t.owner ++ leBytes 2 t.kdom ++
  leBytes 5 t.tag ++ leBytes 1 t.state ++ leBytes 4 t.version ++ leBytes 4 t.parent ++ leBytes 4 t.oldest ++
  leBytes 1 ((validSlots t).foldl (fun v i => v ||| 2 ^ i) 0 + 16 * (match t.shadow.bind (·.frameNo) with | some i => 2 ^ i | none => 0)) ++
  leBytes 3 0

/-- Whether the release of a tenure may take its step now: every earlier event of the slot is performed at system scope
and the shadow's writes are at home; a publish needs a frame slot. -/
def releaseReady (s : State) (k : Nat) (t : Tile) (write : Bool) : Bool :=
  allPerformed s k .system &&
  (!write || (slotFree t && (match t.shadow with
    | some sh =>
      let own := sh.pages.filterMap id
      s.transit.all fun e => !(e.addrs.any fun a => own.contains (a / 4096 * 4096))
    | none => true)))

/-- The launch holds its publishes until its colophon (R206, R324). -/
def holdsPublishes (s : State) (launch : Nat) : Bool :=
  match launchOf s launch with | some l => l.flags % 2 == 1 | none => false

/-- The tile after the publish of its shadow. A version that is not held follows every earlier one that nothing has followed. -/
def publishTile (t : Tile) (seen v time : Nat) (held : Option Nat) : Tile :=
  match t.shadow with
  | none => t
  | some sh =>
    let old := (frameOf t seen)
    let oldPages := (old.map (·.pages)).getD t.basePages
    let oldPooled := (old.map (·.pooled)).getD (t.basePages.map fun _ => false)
    let pages := (sh.pages.zip oldPages).map fun q => q.1.getD q.2
    let pooled := (sh.pages.zip oldPooled).map fun q => q.1.isSome || q.2
    let fr : TFrame := { slot := (shadowSlot t).getD 0, version := v, pages := pages, pooled := pooled, publishTime := time,
                         nextTime := none, held := held }
    let mark := fun (f : TFrame) => if held.isNone && f.version < v && f.nextTime.isNone then { f with nextTime := some time } else f
    { t with frames := t.frames.map mark ++ [fr], shadow := none, version := if held.isSome then t.version else v }

/-- Release a tenure: unpin, or publish in one step. The version released. -/
def releaseTenure (s : State) (k p i : Nat) (e : Tenure) : State × Nat :=
  let s1 := dropTenure s k e.handle
  if e.write then
    let launch := launchOfSlot s k
    let held := if holdsPublishes s launch then some launch else none
    let time := (coreAt s (coreOfSlot k)).vtime.toNat
    let v := match (tileAt s p i).bind (·.shadow) with | some sh => sh.version | none => 0
    (serve (modTile s1 p i fun t => publishTile t (seenVersion t launch) v time held) p i, v)
  else (modTile s1 p i fun t => { t with pins := t.pins.erase (k, e.version) }, e.version)

/-- TREL (R206): it parks until its publish step may be taken. -/
def execTrel (a : BitVec 5) (s : State) : Out :=
  Run.out do
    clusterCore s
    let h := handleOf (rd s a)
    let (p, i, _) ← needTile s h
    let e ← needTenure s h
    let s1 := if e.write then cancelTileTransfers s p h else s
    match tileAt s1 p i with
    | none => trap s1 0x0B (w64 h)
    | some t =>
      if releaseReady s1 (myKey s1) t e.write then
        let (s2, v) := releaseTenure s1 (myKey s1) p i e
        return returns s2 a v
      else park s1 (if e.write && !slotFree t then .tile else .memory) false (.publish a h)

/-- PUBLISH: the publish step of a slot that is parked in TREL (R255). A handle that went stale meanwhile traps. -/
def execPublish (slot : Nat) (s : State) : Out :=
  match (slotAt s slot).park with
  | some { cont := .publish a h, .. } =>
    let at_ := { s with cur := .slot slot }
    (match liveTile at_ h, tenureHere at_ h with
    | some (p, i, t), some e =>
      if releaseReady s slot t e.write then
        let (s1, v) := releaseTenure s slot p i e
        .next (completeOf (setRegOf s1 (.slot slot) a (w64 v)) (.slot slot))
      else .next s
    | _, _ => .next (takeTrapOf (readyOf s (.slot slot)) (.slot slot) 0x0B (w64 h) (pcOf s (.slot slot))))
  | _ => .next s

/-- TABND (R206): earlier writes into the shadow land, then it is discarded. -/
def execTabnd (a : BitVec 5) (s : State) : Out :=
  Run.out do
    clusterCore s
    let h := handleOf (rd s a)
    let (p, i, t) ← needTile s h
    let _ ← needWriteTenure s h
    holdForAllVector s
    let s1 := discardShadow (cancelTileTransfers s p h) p i
    return returns (serve (dropTenure s1 (myKey s) h) p i) a (seenVersion t (launchOfSlot s (myKey s)))

/-! ### TSPLIT and TJOIN (R208, R273) -/

/-- A run of n free indexes from i on. -/
def runFree (x : PartSt) (i n : Nat) : Bool :=
  decide (i + n ≤ 2 ^ x.tileLog2) && (List.range n).all fun j => match lookup x.tiles (i + j) with
    | some ix => !ix.retired && ix.tile.isNone
    | none => true
/-- The lowest run: it starts at 0 or one past an index in use. -/
def freeRun (x : PartSt) (n : Nat) : Option Nat := (0 :: x.tiles.map fun e => e.1 + 1).find? fun i => runFree x i n

/-- The shape of a child and the distance between children. -/
def childShape (t : Tile) (k c : Nat) : Shape := { tileShape t with dims := t.dims.set k (t.dims.getD k 1 / c) }
def childStep (t : Tile) (k c : Nat) : Nat :=
  let n := t.dims.getD k 1 / c
  if k = 0 then n * elemWidth t.fmt / 8 else n * t.strides.getD (k - 1) 0

/-- The conditions of R208 and R273. -/
def splitOk (t : Tile) (k c : Nat) : Bool :=
  decide (k < t.rank) && decide (2 ≤ c) && decide (c ≤ 256) && 2 ^ Nat.log2 c == c && t.dims.getD k 1 % c == 0 &&
  (childShape t k c).ext % 4096 == 0 && childStep t k c % 4096 == 0 && decide ((childShape t k c).ext ≤ childStep t k c) &&
  !isMx t.fmt && !(t.morton && decide (k < 2)) && (k != 0 || t.dims.getD 0 1 / c * elemWidth t.fmt % 8 == 0)

/-- All 64 tokens at the tile point: the registering agent, or the home entry of a shared tile (R265, R273, log entry 68). -/
def pointTokens (t : Tile) (shared : Bool) : Assoc Nat × Nat := if shared then ([], 64) else ([(t.agent, 64)], 0)

def childTile (t : Tile) (h k c i : Nat) : Tile :=
  let x := childShape t k c
  let off := i * childStep t k c
  let cut := fun {α : Type} (l : List α) => (l.drop (off / 4096)).take (x.ext / 4096)
  let fr := (frameOf t t.version).map fun f =>
    { f with slot := 0, pages := cut f.pages, pooled := (cut f.pages).map fun _ => false, nextTime := none, held := none }
  { t with base := t.base + off, ext := x.ext, dims := x.dims, state := 0, parent := h, oldest := t.version,
           basePages := cut t.basePages, frames := fr.toList, shadow := none,
           tokens := (pointTokens t (t.state == 1)).1, home := (pointTokens t (t.state == 1)).2,
           requests := [], pins := [], firstChild := 0, children := 0 }

def execTsplit (a b : BitVec 5) (s : State) : Out :=
  Run.out do
    clusterCore s
    let h := handleOf (rd s a)
    let (p, i, t) ← needTile s h
    let _ ← needWriteTenure s h
    let k := (rd s b).toNat % 4
    let c := bits (rd s b).toNat 16 8
    match splitOk t k c, (partAt s p).bind (freeRun · c) with
    | true, some first =>
      holdForAllVector s
      let s1 := dropTenure (discardShadow (cancelTileTransfers s p h) p i) (myKey s) h
      let gen := match partAt s p with | some x => genOf x first | none => 1
      let s2 := (List.range c).foldl (fun s j => placeTile s p (first + j) (childTile t h k c j)) s1
      let s3 := modTile s2 p i fun t => { t with state := 2, firstChild := first, children := c }
      return returns (serve s3 p i) a (gen * 2 ^ 20 + first)
    | _, _ => return returns s a 0

/-- The children of a split tile that are live: an index that was freed may hold another tile. -/
def childrenOf (s : State) (p : Nat) (t : Tile) (h : Nat) : List (Nat × Tile) :=
  (List.range t.children).filterMap fun j => match tileAt s p (t.firstChild + j) with
    | some x => if x.parent = h then some (t.firstChild + j, x) else none
    | none => none

/-- The pages of a joined tile: each footprint page from the child that holds it (R273). -/
def joinPages (t : Tile) (l : List (Nat × Tile)) (f : TFrame) : List (Nat × Bool) :=
  ((f.pages.zip f.pooled).mapIdx fun j q =>
    let a := t.base + 4096 * j
    match l.find? fun c => tileHas c.2 a with
    | some c => match frameOf c.2 c.2.version with
      | some g => let m := (a - c.2.base) / 4096
        let pg := g.pages.getD m q.1
        (pg, if pg = q.1 then q.2 else g.pooled.getD m false)
      | none => q
    | none => q)

def execTjoin (a : BitVec 5) (s : State) : Out :=
  Run.out do
    clusterCore s
    let h := handleOf (rd s a)
    let (p, i, t) ← needTile s h
    if t.state ≠ 2 then return returns s a 2
    let l := childrenOf s p t h
    if l.any fun c => c.2.shadow.isSome || !c.2.pins.isEmpty || c.2.state == 2 then return returns s a 1
    let v := l.foldl (fun m c => max m c.2.version) 0
    let time := l.foldl (fun m c => match frameOf c.2 c.2.version with | some f => max m f.publishTime | none => m) 0
    let old := (frameOf t t.version).getD { slot := 0, version := 0, pages := t.basePages, pooled := t.basePages.map fun _ => false,
                                            publishTime := 0, nextTime := none, held := none }
    let pages := joinPages t l old
    let fr : TFrame := { slot := (freeFrameSlot t).getD 0, version := v, pages := pages.map (·.1), pooled := pages.map (·.2), publishTime := time,
                         nextTime := none, held := none }
    let kept := pooledPages [fr] none
    -- The children's own frames go with them; the pages of the joined version stay.
    let s1 := l.foldl (fun s c => setFrames s p c.1 []) s
    let s2 := modPart s1 p fun x => { x with pool := x.pool.filter fun a => !kept.contains a }
    let s3 := l.foldl (fun s c => freeTile s p c.1) s2
    let s4 := setFrames s3 p i [fr]
    let shared := l.any fun c => c.2.state == 1
    let at_ := pointTokens t shared
    return returns (modTile s4 p i fun t =>
      { t with state := flag shared, version := v, oldest := v, children := 0, tokens := at_.1, home := at_.2 }) a 0

/-! ### TRECL, TSTAT and TVER (R209) -/

/-- A retained frame that TRECL frees. -/
def reclaimable (t : Tile) (bound : Nat) (f : TFrame) : Bool :=
  f.version != t.version && f.held.isNone && !(t.pins.any fun q => q.2 == f.version) &&
  (match f.nextTime with | some n => decide (n < bound) | none => false)

def execTrecl (a b : BitVec 5) (s : State) : Out :=
  Run.out do
    clusterCore s
    let (p, i, t) ← needTile s (handleOf (rd s a))
    let gvt := match partAt s p with | some x => x.gvt | none => 0
    let keep := t.frames.filter fun f => !(reclaimable t (min (rd s b).toNat gvt) f)
    let s1 := setFrames s p i keep
    let lo := keep.foldl (fun m f => min m f.version) t.version
    return returns (modTile s1 p i fun t => { t with oldest := lo }) a (t.frames.length - keep.length)

/-- The tenure code of TSTAT item 0. -/
def tenureCode (e : Option Tenure) : Nat :=
  match e with | none => 0 | some e => if !e.granted then 3 else if e.write then 2 else 1

def execTstat (a b : BitVec 5) (s : State) : Out :=
  Run.out do
    clusterCore s
    let h := handleOf (rd s a)
    match liveTile s h with
    | none => return writeRetire s a (BitVec.allOnes 64)
    | some (_, _, t) =>
      let e := tenureOn s h
      match (rd s b).toNat % 8 with
      | 0 => return returns s a (t.state + 4 * tenureCode e + 16 * lookupD t.tokens (myCluster s) 0)
      | 1 => return returns s a t.version
      | 2 => return returns s a t.tag
      | 3 => return returns s a t.parent
      | 4 => return if tenureCode e = 1 then returns s a ((e.map (·.version)).getD 0) else writeRetire s a (BitVec.allOnes 64)
      | 5 => return returns s a t.owner
      | _ => return returns s a 0

def execTver (a : BitVec 5) (s : State) : Out :=
  Run.out do
    clusterCore s
    let (_, _, t) ← needTile s (handleOf (rd s a))
    return returns s a (seenVersion t (launchOfSlot s (myKey s)))

/-! ### TSTV and TLDV (R207) -/

/-- The index of the scale byte of the block at a byte offset of the elements (R262). -/
def scaleIndex (x : Shape) (off : Nat) : Nat :=
  let cut := fun (k off : Nat) => if x.stride k = 0 then (0, off) else (off / x.stride k, off % x.stride k)
  let c3 := if 4 ≤ x.rank then cut 3 off else (0, off)
  let c2 := if 3 ≤ x.rank then cut 2 c3.2 else (0, c3.2)
  let c1 := if 2 ≤ x.rank then cut 1 c2.2 else (0, c2.2)
  ((c3.1 * x.dim 2 + c2.1) * x.dim 1 + c1.1) * (x.dim 0 / blockLen x.blen) + c1.2 * 8 / x.w / blockLen x.blen

/-- The footprint offsets of n elements from an offset: element bytes, then the scale bytes of their blocks. -/
def tileOffsets (t : Tile) (off size n : Nat) : List Nat :=
  let x := tileShape t
  let b := blockLen t.blen
  seqNat off size ++ (if isMx t.fmt then (List.range (n / b)).map fun j => x.scaleStart + scaleIndex x (off + j * b * x.w / 8) else [])

/-- The pages of a footprint that offsets touch, each once. -/
def pageIdxs (l : List Nat) : List Nat := (l.map (· / 4096)).eraseDups

/-- The checks of a tile access of the executor (R207): handle, tenure, segment, offset, alignment, block code, class. The
tile and the offsets accessed. -/
def tileAccess (s : State) (h off : Nat) (k : BitVec 3) (write : Bool) : Run (Nat × Nat × Tile × Nat × List Nat) := do
  let (p, i, t) ← needTile s h
  if write then let _ ← needWriteTenure s h
  let g := segOf s s.cur k
  let need := rT + (if write then rW else rR)
  if g.kind ≠ 1 ∨ g.isVoid ∨ !hasRights (effRights s k g) need then trap s 0x04 (w64 off)
  let n := myN s
  let w := elemWidth t.fmt
  let size := if t.fmt = 0 then 128 * (if (me s).ganged then 2 else 1) else n * w / 8
  if (tileShape t).elemExt < off + size then trap s 0x03 (w64 off)
  let so : Int := (t.base + off : Nat) - (g.base : Int)
  trapFirst s (fmtElems s so t.fmt) (fun e => decide (e.1 < 0) || decide ((g.limit : Int) < e.1 + e.2 - 1)) 0x03 (fun e => ofInt e.1)
  let bl := if isMx t.fmt then blockLen t.blen else 1
  if (if t.fmt = 0 then (t.base + off) % 64 != 0 else off * 8 % (w * bl) != 0) then trap s 0x06 (w64 (t.base + off))
  let rot := rotLen (tagBlk t.tag)
  if write && isNarrow t.fmt && (rot == 0 || decide (n < rot)) then trap s 0x0A (w64 (tagOf (tagBlk t.tag) 0 (tagSeed t.tag)))
  if myClass s = 2 then illegal s
  return (p, i, t, size, tileOffsets t off size n)

/-- Presence and rights of the footprint pages that an access touches, each named by the first CVA that it accesses there (R351, R352). -/
def tilePages (s : State) (p : Nat) (t : Tile) (need : Nat) (offs : List Nat) : Run State := do
  let cvas := (pageIdxs offs).map fun j => t.base + (offs.find? (· / 4096 == j)).getD 0
  let (s1, l) := pagesXl s p [] cvas
  match cvas.find? fun a => match xlOf l a with | .notPresent _ _ => true | .moving _ => true | _ => false with
  | some a => match xlOf l a with
    | .notPresent x st => park s1 .notPresent true (.fault x st (need == rW) 0 false)
    | .moving f => park s1 .notPresent true (.moving f)
    | _ => pure ()
  | none => pure ()
  trapFirst s1 cvas (fun a => match xlOf l a with | .malformed => true | .ok t => !tlbAllows t need | _ => false) 0x15 w64
  if cvas.any fun a => xlOf l a == .poisoned then trapFree s1 0x16
  return s1

/-- The pages of a shadow that offsets touch and that are still shared. -/
def pagesToCopy (sh : Shadow) (offs : List Nat) : List Nat := (pageIdxs offs).filter fun j => (sh.pages.getD j none).isNone

/-- A first write may take its pages: a frame slot and enough pool pages (R269). -/
def shadowRoom (s : State) (p : Nat) (t : Tile) (offs : List Nat) : Bool :=
  match t.shadow with
  | none => true
  | some sh => slotFree t && decide ((pagesToCopy sh offs).length ≤ ((partAt s p).map (·.pool.length)).getD 0)

/-- Copy-on-write of the pages that a write touches, all in one step: a pool page is scrubbed to the tile's key domain and then takes the
published page's bytes (R268, R269, R383). -/
def takeShadow (s : State) (p i launch : Nat) (offs : List Nat) : State :=
  match tileAt s p i with
  | none => s
  | some t =>
    match t.shadow with
    | none => s
    | some sh =>
      let seen := seenVersion t launch
      let s1 := modTile s p i fun t => { t with shadow := some { sh with frameNo := shadowSlot t } }
      (pagesToCopy sh offs).foldl (fun s j =>
        match (partAt s p).map (·.pool) with
        | some (a :: rest) =>
          let s2 := modPart s p fun x => { x with pool := rest }
          let s3 := copyPage s2 ((versionPage t seen j).getD (t.basePages.getD j 0)) a
          let m := writtenPage s3 a (scrubbed (pageAt s2 a) t.kdom (worldKey s2 t.kdom))
          let s3 := { s3 with pages := insert s3.pages (a / 4096) m }
          modTile s3 p i fun t => match t.shadow with
            | some sh => { t with shadow := some { sh with pages := sh.pages.set j (some a) } }
            | none => t
        | _ => s) s1

/-- The flat address of a footprint offset in the shadow, or in a version. -/
def shadowFlat (t : Tile) (launch o : Nat) : Nat :=
  let base := (versionPage t (seenVersion t launch) (o / 4096)).getD (t.basePages.getD (o / 4096) 0)
  match t.shadow with
  | some sh => ((sh.pages.getD (o / 4096) none).getD base) + o % 4096
  | none => base + o % 4096
def versionFlat (t : Tile) (v o : Nat) : Nat := (versionPage t v (o / 4096)).getD (t.basePages.getD (o / 4096) 0) + o % 4096

/-- Places of single bytes of device memory. -/
def bytePlaces (l : List Nat) (dom : Option Nat) : List Place :=
  l.map fun a => { ty := .dm, addrs := [a], dom := dom, foot := none, node := 0, ceil := 0 }

/-- Writes at offsets of a tile's shadow open its lines (R380): a page that is still to be taken will be of the tile's key domain (R383). -/
def shadowOpens (s : State) (t : Tile) (offs : List Nat) : Bool :=
  offs.all fun o => match t.shadow.bind fun x => x.pages.getD (o / 4096) none with
    | some a => lineOpens s (some t.kdom) (a + o % 4096)
    | none => (worldKey s t.kdom).isSome

/-- TSTV (R207). DESIGN CHOICE (log entry 69): the rotation of a tile whose tag has an AXIS other than 0 runs along the lanes all the same. -/
noncomputable def execTstv (v : BitVec 5) (g : BitVec 3) (a b : BitVec 5) (s : State) : Out :=
  Run.out do
    clusterCore s
    needBank s
    let h := handleOf (rd s a)
    let (p, i, t, _, offs) ← tileAccess s h (ptrOff (rd s b)) g true
    let s1 ← tilePages s p t rW offs
    if 16 ≤ (me s1).vec.seq.length then park s1 .sequencer false (.retryAfter 15)
    if !shadowRoom s1 p t offs then park s1 .tile false (.frame h)
    let launch := launchOfSlot s (myKey s)
    let s2 := takeShadow s1 p i launch offs
    let flats := match tileAt s2 p i with | some t => offs.map (shadowFlat t launch) | none => []
    let pls := bytePlaces flats (some t.kdom)
    if pls.any fun pl => !(pl.addrs.all (lineOpens s2 pl.dom)) then trapFree s1 0x16
    let hd := handedOf s (.tstv v g a b) (rd s a) (rd s b) (BitVec.ofNat 32 (tagSeed t.tag))
    handMem s2 { hd with extra := [t.fmt, t.blen, rotLen (tagBlk t.tag)] } .write (chunked pls)

noncomputable def execTldv (v : BitVec 5) (g : BitVec 3) (a b : BitVec 5) (s : State) : Out :=
  Run.out do
    clusterCore s
    needBank s
    let h := handleOf (rd s a)
    let (p, _, t, _, offs) ← tileAccess s h (ptrOff (rd s b)) g false
    let s1 ← tilePages s p t rR offs
    let launch := launchOfSlot s (myKey s)
    let dom := domOf s g
    let pls : List Place := match tenureHere s h with
      | some e => if e.write then bytePlaces (offs.map (shadowFlat t launch)) dom else bytePlaces (offs.map (versionFlat t e.version)) dom
      | none => offs.map fun o => { ty := .dm, addrs := [versionFlat t (seenVersion t launch) o], dom := dom,
                                    foot := some (p, [t.base + o]), node := 0, ceil := 0, raw := false }
    handMem s1 { handedOf s (.tldv v g a b) (rd s a) (rd s b) 0 with extra := [t.fmt, t.blen] } .read (chunked pls)

/-- FRAME_SLOT_FREED: a TSTV that waits for a frame slot or pool pages goes on (R29, R269). -/
def execFrameSlotFreed (part tile : Nat) (s : State) : Out :=
  match tileAt s part tile with
  | none => .next s
  | some t =>
    let h := tileHandle s part tile
    let waits := s.slots.filter fun e => partOfSlot s e.1 == some part && (match e.2.park with
      | some { cont := .frame x, .. } => x == h
      | _ => false)
    if slotFree t then .next (waits.foldl (fun s e => resumeOf s e.1) s) else .next s

end Sys2Proof.Machine
end

