-- ==== Sys2Proof/Machine/Galley.lean ====
section
/-! DEFINITION. The matrix engine's registers (R168) and the galleys of a core (R169 to R176). -/

namespace Sys2Proof.Machine

/-! ### Engine registers -/

/-- Commands of engines 0 and 1 do not exist for a pair, and engines 0 to 3 only on a cluster's cores (R166, R106, R372). -/
def engine01 (s : State) : Run Unit := do
  clusterCore s
  if (me s).ganged then illegal s else pure ()

/-- The pointer that an endpoint register returns (R168). -/
def endpointWord (e : Endpoint) : Word :=
  let off : Int := (ptrOff e.ptr : Int) + e.disp
  if 0 ≤ off ∧ off < 2 ^ 48 then w64 (bits e.ptr.toNat 63 48 * 2 ^ 48 + off.toNat)
  else w64 (bits e.ptr.toNat 63 56 * 2 ^ 56 + 0xFF * 2 ^ 48 + (off % 2 ^ 48).toNat)

/-- The writable bits of a matrix register (R9, R168). -/
def matrixMask (r : Nat) : Word :=
  match r with | 0 => 0xFFF | 1 => 0x7777 | 3 => 0xFFFFFF | 4 => 0xFFFFFFFF00000FFF | _ => 0xFFFFFFFF

def setMatrixReg (v : VecSt) (r : Nat) (w : Word) : VecSt :=
  match r with
  | 0 => { v with mkReg := w } | 1 => { v with mgal := w } | 3 => { v with mostr := w } | 4 => { v with mofmt := w }
  | 5 => { v with motile := w } | _ => v
def getMatrixReg (v : VecSt) (r : Nat) : Word :=
  match r with
  | 0 => v.mkReg | 1 => v.mgal | 2 => endpointWord v.mout | 3 => v.mostr | 4 => v.mofmt | 5 => v.motile | _ => 0

/-- MSET of a register other than MOUT. -/
def execMset (r : BitVec 5) (a : BitVec 5) (s : State) : Out :=
  Run.out do
    engine01 s
    return retire (modMe s fun x => { x with vec := setMatrixReg x.vec r.toNat (rd s a &&& matrixMask r.toNat) })

/-- MSET of MOUT: the segment number, the pointer and the displacement are recorded. -/
def execMsetMout (g : BitVec 3) (a b : BitVec 5) (s : State) : Out :=
  Run.out do
    engine01 s
    let e : Endpoint := { seg := g, ptr := rd s a, disp := engineDisp b }
    return retire (modMe s fun x => { x with vec := { x.vec with mout := e } })

def execMget (r : BitVec 5) (a : BitVec 5) (s : State) : Out :=
  Run.out do
    engine01 s
    return writeRetire s a (getMatrixReg (me s).vec r.toNat)

/-! ### Galleys -/

def galleyAt (s : State) (core n : Nat) : Option Galley := lookup (coreAt s core).galleys n
def setGalley (s : State) (core n : Nat) (g : Option Galley) : State :=
  modCore s core fun c => { c with galleys := match g with | some x => insert c.galleys n x | none => erase c.galleys n }

/-- The trap 0x0F (R176). -/
def galleyTrap {α : Type} (s : State) (n code : Nat) : Run α := trap s 0x0F (w64 (n % 8 + 16 * code))

def Galley.present (g : Galley) : Nat := g.tags.length
def Galley.tail (g : Galley) : Nat := (g.head + g.tags.length) % g.count
/-- The scratchpad offset of an entry. -/
def Galley.at_ (g : Galley) (i : Nat) : Nat := g.base + g.size * i

/-- The numbers in a captured MGAL. -/
def galA (h : Handed) : Nat := h.extra.getD 1 0 % 8
def galB (h : Handed) : Nat := h.extra.getD 1 0 / 16 % 8
def galW (h : Handed) : Nat := h.extra.getD 1 0 / 256 % 8
def galN (h : Handed) : Nat := h.extra.getD 1 0 / 4096 % 8

def isMmr : Instr → Bool
  | .mmr _ _ _ => true
  | _ => false

/-- Torus neighbours within a cluster (R3). -/
def westOf (core : Nat) : Nat := core - core % 4 + (core % 4 + 3) % 4
def eastOf (core : Nat) : Nat := core - core % 4 + (core % 4 + 1) % 4
def northOf (core : Nat) : Nat := core - core % 16 + (core % 16 + 12) % 16
def southOf (core : Nat) : Nat := core - core % 16 + (core % 16 + 4) % 16

/-- A matrix instruction of the core holds entries of the galley (R178). -/
def heldByMatrix (s : State) (core n : Nat) : Bool :=
  match (coreAt s core).matrixRun with | some r => galA r.run == n || galB r.run == n | none => false

/-- The galley is GW or GN of a neighbour's MMR that holds its own entries (R184). -/
def heldByNeighbour (s : State) (core n : Nat) : Bool :=
  (match (coreAt s (eastOf core)).matrixRun with | some r => isMmr r.run.instr && galW r.run == n | none => false) ||
  (match (coreAt s (southOf core)).matrixRun with | some r => isMmr r.run.instr && galN r.run == n | none => false)

/-- A running transfer has the galley as its destination: it holds it (R238). -/
def heldByCopy (s : State) (core n : Nat) : Bool :=
  (clusterAt s (clusterOfCore core)).chans.any fun e =>
    e.2.state == .running && e.2.job.dst.kind == 3 && e.2.job.dst.base == n &&
    (e.2.job.regs.toList.getD 16 0).toNat / 16 % 16 == core % 16

/-- The bytes of an entry. -/
def entryBytes (s : State) (core : Nat) (g : Galley) (i : Nat) : List Byte :=
  memReadBytes s.mem (flatScratch (clusterOfCore core) (g.at_ i)) g.size

/-- The places of the producers of a core's galley among pushes of one clock (R173): copy channels by number, an MMR of the east
neighbour, an MMR of the south neighbour, GLPUSHV by slot. -/
def eastRank : Nat := 16
def southRank : Nat := 17
def slotRank (slot : Nat) : Nat := 18 + slot

/-- The galley has room, and no push of this clock that comes after the producer's stands in it. -/
def pushOpen (s : State) (g : Galley) (rank : Nat) : Bool :=
  decide (g.tags.length < g.count) && (match g.pushed with | some (c, r) => !(c == s.cycle && decide (rank < r)) | none => true)

/-- Push an entry with its tag at the tail (R173). -/
def pushEntry (s : State) (core n : Nat) (g : Galley) (bs : List Byte) (tag rank : Nat) : State :=
  let s1 := { s with mem := memWriteBytes s.mem (flatScratch (clusterOfCore core) (g.at_ g.tail)) (bs.take g.size) }
  setGalley s1 core n (some { g with tags := g.tags ++ [tag], pushed := some (s.cycle, rank) })

/-- Discard the head entry. -/
def popEntry (s : State) (core n : Nat) : State :=
  match galleyAt s core n with
  | some g => if g.tags.isEmpty then s else setGalley s core n (some { g with head := (g.head + 1) % g.count, tags := g.tags.drop 1 })
  | none => s

/-- The galley configured by the executor's world, or the traps of code 0 and 1. -/
def needGalley (s : State) (n : Nat) : Run Galley :=
  match galleyAt s (myCore s) n with
  | none => galleyTrap s n 0
  | some g => if g.world = myWorld s then .ok g else galleyTrap s n 1

/-- Every bank of a ring is in SCRATCH mode. -/
def ringScratch (s : State) (cl base len : Nat) : Bool :=
  (List.range 16).all fun b => !(decide (base < (b + 1) * 2 ^ 17) && decide (b * 2 ^ 17 < base + len)) ||
    (clusterAt s cl).modes.toList.getD b 0 == 1

/-- A descriptor's fields, and whether R170 admits them. -/
def galleyOf (bs : List Byte) (world : Nat) : Galley :=
  { world := world, raw := Vector.ofFn fun i : Fin 4 => w64 (recField bs (8 * i.val) 8), base := recField bs 0 8,
    size := recField bs 8 4, count := recField bs 12 2, fmt := recField bs 14 1 % 32, blen := recField bs 14 1 / 32,
    bitmap := recField bs 15 1 == 1, head := 0, tags := [], pushTag := 0, pushed := none }
def galleyOk (bs : List Byte) : Bool :=
  let g := galleyOf bs 0
  g.base % 64 == 0 && g.size % 64 == 0 && decide (64 ≤ g.size) && decide (g.size ≤ 65536) && decide (1 ≤ g.count) &&
  decide (g.count ≤ 64) && 2 ^ Nat.log2 g.count == g.count && decide (g.base + g.size * g.count ≤ 0x200000) &&
  fmtOk g.fmt g.blen && decide (recField bs 15 1 ≤ 1) && (bs.drop 16).all (· == 0)

/-- GLSET (R171). -/
def execGlset (n : BitVec 3) (g : BitVec 3) (a b : BitVec 5) (s : State) : Out :=
  Run.out do
    engine01 s
    let core := myCore s
    let i := n.toNat
    if heldByNeighbour s core i then park s .galley false (.galley i 2)
    let (s1, bs) ← readRange s g (rd s a) (engineDisp b) 32 32 0
    let zero := bs.all (· == 0)
    match galleyAt s1 core i with
    | some x =>
      if !x.tags.isEmpty || heldByMatrix s1 core i || heldByCopy s1 core i then galleyTrap s1 i 7
      if x.world ≠ myWorld s1 ∧ !zero then galleyTrap s1 i 1
    | none => pure ()
    if zero then return retire (setGalley s1 core i none)
    if !galleyOk bs then galleyTrap s1 i 6
    let x := galleyOf bs (myWorld s1)
    if !ringScratch s1 (myCluster s1) x.base (x.size * x.count) then trapFree s1 0x1A
    return retire (setGalley s1 core i (some x))

/-- GLGET (R171). -/
def execGlget (n : BitVec 3) (w : BitVec 2) (a : BitVec 5) (s : State) : Out :=
  Run.out do
    engine01 s
    return writeRetire s a (match galleyAt s (myCore s) n.toNat with | some g => g.raw[w.toNat]'(w.isLt) | none => 0)

/-- The head entry is held by a matrix instruction, or by a transfer into the galley. DEDUCED (log entry 40). -/
def headHeld (s : State) (core n : Nat) (g : Galley) : Bool :=
  !g.tags.isEmpty && (heldByMatrix s core n || heldByCopy s core n)

/-- GLPOPD (R175). -/
def execGlpopd (n : BitVec 3) (a : BitVec 5) (s : State) : Out :=
  Run.out do
    engine01 s
    let g ← needGalley s n.toNat
    if headHeld s (myCore s) n.toNat g then park s .galley false (.galley n.toNat 1)
    if g.tags.isEmpty then return returns s a 1
    return returns (popEntry s (myCore s) n.toNat) a 0

/-- The word of GLHEAD (R175). -/
def headWord (g : Galley) : Nat :=
  g.present + 2 ^ 8 * g.head + 2 ^ 16 * g.tail + 2 ^ 24 + (if g.bitmap then 2 ^ 25 else 0)
def execGlhead (n : BitVec 3) (a : BitVec 5) (s : State) : Out :=
  Run.out do
    engine01 s
    match galleyAt s (myCore s) n.toNat with
    | some g => return returns s a (if g.world = myWorld s then headWord g else 0)
    | none => return returns s a 0

/-- GLTAG in read form (R175). -/
def execGltagRead (n : BitVec 3) (a : BitVec 5) (s : State) : Out :=
  Run.out do
    engine01 s
    let g ← needGalley s n.toNat
    return returns s a (match g.tags with | t :: _ => t | [] => 2 ^ 63)

/-- GLTAG in write form (R175, R78, R91). -/
def execGltagWrite (n : BitVec 3) (a : BitVec 5) (s : State) : Out :=
  Run.out do
    engine01 s
    let g ← needGalley s n.toNat
    let t := (rd s a).toNat % 2 ^ 36
    if !tagOk t then trap s 0x0A (w64 (tagOf (tagBlk t) 0 (tagSeed t)))
    return retire (setGalley s (myCore s) n.toNat (some { g with pushTag := t }))

/-- GLFLUSH (R175, R184). -/
def execGlflush (n : BitVec 3) (s : State) : Out :=
  Run.out do
    engine01 s
    let g ← needGalley s n.toNat
    let core := myCore s
    if heldByMatrix s core n.toNat || heldByNeighbour s core n.toNat || heldByCopy s core n.toNat then
      park s .galley false (.galley n.toNat 2)
    return retire (setGalley s core n.toNat (some { g with head := g.tail, tags := [] }))

/-! ### GLPUSHV (R174) -/

/-- A narrow format that VNAR writes, with the block length of registers (R100). -/
def vnarFmt (fmt blen : Nat) : Bool :=
  isNarrow fmt && (if isMx fmt then blockLen blen == regBlock fmt else blen == 0)

/-- Bytes of the layout of R172 with 32 vectors of K elements. -/
def denseSize (fmt blen k : Nat) : Nat := 32 * k * elemWidth fmt / 8 + (if isMx fmt then 32 * k / blockLen blen else 0)

/-- The bytes of the entry that GLPUSHV builds from registers. -/
def pushvBytes (b : Bank) (cls fmt blen first regs : Nat) : List Byte :=
  let w := elemWidth fmt
  let lw := classWidth cls
  let n := halfLanes lw
  let rs := (List.range regs).map fun q => bankReg b (first + q)
  let elems := rs.flatMap fun v => if w = lw then laneList lw v else (readNarrow w n v).1
  let scales := if isMx fmt then rs.flatMap fun v => (readNarrow w n v).2.take (n / blockLen blen) else []
  lanesBytes w elems ++ scales.map (BitVec.ofNat 8)

/-- GLPUSHV: the checks at the hand-off; then it waits for the sequencer to drain and for room, and pushes (R174). -/
noncomputable def execGlpushv (n : BitVec 3) (v : BitVec 6) (s : State) : Out :=
  Run.out do
    engine01 s
    needBank s
    let i := n.toNat
    let g ← needGalley s i
    let w := elemWidth g.fmt
    let lw := classWidth (myClass s)
    let lanes := halfLanes lw
    let k := (me s).vec.mkReg.toNat
    let regs := 32 * k / lanes
    if g.bitmap then galleyTrap s i 2
    if lw < w ∨ (w < lw ∧ !vnarFmt g.fmt g.blen) ∨ (isMx g.fmt ∧ blockLen g.blen ≠ regBlock g.fmt) then galleyTrap s i 3
    if k = 0 ∨ 32 * k % lanes ≠ 0 ∨ 64 < v.toNat + regs then galleyTrap s i 8
    if g.size < denseSize g.fmt g.blen k then galleyTrap s i 5
    drain s
    if !pushOpen s g (slotRank (myKey s % 16)) then park s .galley false (.galley i 0)
    let bs := pushvBytes (bankOfSlot s (myKey s)) (myClass s) g.fmt g.blen v.toNat regs
    let h := handedOf s (.glpushv n v) 0 0 0
    let note := fun (x : VecSt) => { x with recent := (h :: x.recent).take 16 }
    return retire (modMe (pushEntry s (myCore s) i g bs g.pushTag (slotRank (myKey s % 16))) fun x => { x with vec := note x.vec })

/-- Whether what the park of a slot on a galley waits for is over: room, the head not held, or the galley not held. A galley that is no
longer configured ends it too: the instruction issues again and traps (R238). -/
def galleyClear (s : State) (slot core n what : Nat) : Bool :=
  match galleyAt s core n with
  | none => !(what == 2 && heldByNeighbour s core n)
  | some g =>
    if what = 0 then pushOpen s g (slotRank slot)
    else if what = 1 then !headHeld s core n g
    else !(heldByMatrix s core n || heldByNeighbour s core n || heldByCopy s core n)

/-- GALLEY_SPACE_FREED: the slots that wait on the galley go on (R29, R173). -/
def execGalleySpaceFreed (core galley : Nat) (s : State) : Out :=
  let waits := s.slots.filter fun e => coreOfSlot e.1 == core && (match e.2.park with
    | some { cont := .galley n what, .. } => n == galley && galleyClear s (e.1 % 16) core n what
    | _ => false)
  .next (waits.foldl (fun s e => resumeOf s e.1) s)

end Sys2Proof.Machine
end

