-- ==== Sys2Proof/Machine/Copy.lean ====
section
/-! DEFINITION. The copy engine of a cluster (R186 to R196): staging registers, launch checks, delivery of a transfer, and
the commands that watch it. -/

namespace Sys2Proof.Machine

/-! ### Staging registers (R186) -/

/-- The writable bits of a staging register (R9). -/
def copyMask (r : Nat) : Word :=
  if r ≤ 5 then 0xFFFFFF else if r ≤ 11 then 0xFFFFFFFFFFFF
  else match r with
    | 12 => 0xFFFFFFFF0007FFFF | 13 => 0xF | 14 => 0xFFFFFFFFFFFF | 15 => 0xF | _ => BitVec.allOnes 64

def setCopyReg (x : EngineSt) (r : Nat) (w : Word) : EngineSt := if h : r < 17 then { x with cp := x.cp.set r w } else x

def execCpset (r a : BitVec 5) (s : State) : Out :=
  Run.out do
    clusterCore s
    return retire (modMe s fun x => { x with eng := setCopyReg x.eng r.toNat (rd s a &&& copyMask r.toNat) })

/-- CPSET of CPSRC (0) and CPDST (1). -/
def execCpsetEndpoint (r : BitVec 1) (g : BitVec 3) (a b : BitVec 5) (s : State) : Out :=
  Run.out do
    clusterCore s
    let e : Endpoint := { seg := g, ptr := rd s a, disp := engineDisp b }
    return retire (modMe s fun x =>
      { x with eng := if r = 0 then { x.eng with cpsrc := e } else { x.eng with cpdst := e } })

def execCpget (r a : BitVec 5) (s : State) : Out :=
  Run.out do
    clusterCore s
    let x := (me s).eng
    return writeRetire s a
      (if r = 0 then endpointWord x.cpsrc else if r = 1 then endpointWord x.cpdst else x.cp.toList.getD r.toNat 0)

/-! ### Geometry (R188) -/

/-- Morton index of column c and row r in a plane of 2^p columns and 2^q rows, and back. -/
def mortonIx (p q c r : Nat) : Nat :=
  let m := min p q
  let low := (List.range m).foldl (fun acc i => acc + (c / 2 ^ i % 2) * 4 ^ i + (r / 2 ^ i % 2) * 2 * 4 ^ i) 0
  low + 4 ^ m * (if q < p then c / 2 ^ m else r / 2 ^ m)
def mortonAt (p q x : Nat) : Nat × Nat :=
  let m := min p q
  let pick := fun (b : Nat) => (List.range m).foldl (fun acc i => acc + (x / 2 ^ (2 * i + b) % 2) * 2 ^ i) 0
  let rest := x / 4 ^ m * 2 ^ m
  if q < p then (pick 0 + rest, pick 1) else (pick 0, pick 1 + rest)

def CopyJob.reg (j : CopyJob) (r : Nat) : Nat := (j.regs.toList.getD r 0).toNat
def CopyJob.srcMorton (j : CopyJob) : Bool := j.reg 13 % 2 == 1
def CopyJob.dstMorton (j : CopyJob) : Bool := bits (j.reg 13) 1 1 == 1
/-- The byte strides of dimensions 1 to 3, signed for the source. -/
def CopyJob.srcStride (j : CopyJob) (k : Nat) : Int := sx (j.reg (5 + k)) 48
def CopyJob.dstStride (j : CopyJob) (k : Nat) : Int := (j.reg (8 + k) : Int)

/-- The bit offset of an element from element (0, 0, 0, 0). -/
def elemBit (j : CopyJob) (morton : Bool) (stride : Nat → Int) (w : Nat) (d : Nat × Nat × Nat × Nat) : Int :=
  let far := (d.2.2.1 : Int) * stride 2 + (d.2.2.2 : Int) * stride 3
  if morton then (mortonIx (Nat.log2 (j.count 0)) (Nat.log2 (j.count 1)) d.1 d.2.1 * w : Nat) + 8 * far
  else (d.1 * w : Nat) + 8 * ((d.2.1 : Int) * stride 1 + far)

/-- The byte range of the elements, relative to element (0, 0, 0, 0): the lowest byte, and one past the highest. -/
def extentOf (j : CopyJob) (morton : Bool) (stride : Nat → Int) (w : Nat) : Int × Int :=
  let flat := if morton then j.count 0 * j.count 1 * w / 8 else j.count 0 * w / 8
  (if morton then [2, 3] else [1, 2, 3]).foldl (fun (acc : Int × Int) k =>
    let d := ((j.count k - 1 : Nat) : Int) * stride k
    (acc.1 + min 0 d, acc.2 + max 0 d)) (0, (flat : Int))

/-- A destination stride covers the dimensions below it (R190). -/
def stridesCover (j : CopyJob) (w : Nat) : Bool :=
  let start := if j.dstMorton then j.count 0 * j.count 1 * w / 8 else j.count 0 * w / 8
  ((if j.dstMorton then [2, 3] else [1, 2, 3]).foldl (fun (acc : Bool × Int) k =>
    (acc.1 && (decide (j.count k ≤ 1) || decide (acc.2 ≤ j.dstStride k)), acc.2 + ((j.count k - 1 : Nat) : Int) * j.dstStride k))
    (true, (start : Int))).1

/-! ### Conversions (R187) -/

/-- The pairs of R187. -/
def copyPair (sf sb df db : Nat) : Bool :=
  (sf == df && sb == db) || (isWide sf && (isWide df || isNarrow df)) || (isNarrow sf && isWide df) ||
  ((sf == 6 || sf == 5) && (df == 1 || df == 2 || df == 3 || df == 4 || df == 5) && decide (elemWidth df < elemWidth sf)) ||
  ((sf == 3 || sf == 1 || sf == 2 || sf == 5) && (df == 5 || df == 6) && decide (elemWidth sf < elemWidth df))
/-- Pairs that rotate, and pairs that may undo a rotation. -/
def pairRotates (sf df : Nat) : Bool := isWide sf && isNarrow df
def pairUnrotates (sf df : Nat) : Bool := isNarrow sf && isWide df
/-- Pairs that ignore a spec: conversions to raw and integer narrowings (R77). -/
def pairNoSpec (sf df : Nat) : Bool := df == 0 || (isIntFmt sf && isIntFmt df && decide (elemWidth df < elemWidth sf))

def CopyJob.same (j : CopyJob) : Bool := j.src.fmt == j.dst.fmt && j.src.blen == j.dst.blen
/-- The length of the rotation that the conversion applies or undoes. -/
def CopyJob.rot (j : CopyJob) : Nat :=
  if !j.same && (pairRotates j.src.fmt j.dst.fmt || pairUnrotates j.src.fmt j.dst.fmt) then rotLen j.blk else 0
/-- Elements that are converted together. -/
def CopyJob.group (j : CopyJob) : Nat :=
  max (max 1 j.rot) (max (if isMx j.src.fmt then blockLen j.src.blen else 1) (if isMx j.dst.fmt then blockLen j.dst.blen else 1))

/-- Convert one group: destination codes, scale bytes, flags. -/
def convertGroup (j : CopyJob) (codes scales : List Nat) : List Nat × List Nat × FFlags :=
  let sf := j.src.fmt
  let df := j.dst.fmt
  let seed := BitVec.ofNat 32 j.seed
  if j.same then (codes, scales, 0)
  else if isWide sf && isWide df then
    let rs := codes.map fun x => roundWide (wideFmt df) (rmOf j.rm) (decodeF (wideFmt sf) x)
    (rs.map (·.1), [], rs.foldl (fun f r => f ||| r.2) 0)
  else if isWide sf then
    let r := narrowRun df (blockLen j.dst.blen) (bits (j.reg 12) 18 18 == 1) seed j.rot (codes.map (decodeF (wideFmt sf)))
    (r.codes, r.scales, r.flags)
  else if isWide df then
    let vs := decodeRun sf (blockLen j.src.blen) codes scales
    if j.rot = 0 then
      let ys := widenRun (wideFmt df) (rmOf j.rm) vs
      (ys.map (·.1), [], ys.foldl (fun f y => f ||| y.2) 0)
    else
      let u := unrotateRun (wideFmt df) (rmOf j.rm) seed j.rot (vs.map (·.1))
      (u.1, [], vs.foldl (fun f y => f ||| y.2) u.2)
  else if elemWidth df < elemWidth sf then
    let rs := codes.map fun x => satInt df (sx x (elemWidth sf))
    (rs.map (·.1), [], rs.foldl (fun f r => f ||| r.2) 0)
  else
    let rs := codes.map fun x => intValue sf x
    (rs.map fun v => intBits (elemWidth df) v.1, [], rs.foldl (fun f v => f ||| v.2) 0)

/-! ### The launch (R190) -/

/-- The format of one side, before the endpoints are resolved: a live tile's, or that of CPFMT. -/
def sideFmt (s : State) (regs : Regs 17) (dest : Bool) : Nat × Nat :=
  let f := (regs.toList.getD 12 0).toNat
  let lay := bits (regs.toList.getD 13 0).toNat 3 2
  let own := if dest then (bits f 12 8, bits f 15 13) else (f % 32, bits f 7 5)
  if lay = (if dest then 2 else 1) then
    match liveTile s ((regs.toList.getD 16 0).toNat % 2 ^ 32) with
    | some (_, _, t) => (t.fmt, t.blen)
    | none => own
  else own

/-- The tile of a launch, if an endpoint is one and it is live. -/
def launchTile (s : State) (regs : Regs 17) : Option Tile :=
  let lay := bits (regs.toList.getD 13 0).toNat 3 2
  if lay = 1 ∨ lay = 2 then (liveTile s ((regs.toList.getD 16 0).toNat % 2 ^ 32)).map (·.2.2) else none

/-- The destination galley of a launch. -/
def launchGalley (s : State) (regs : Regs 17) : Option Galley :=
  let t := (regs.toList.getD 16 0).toNat
  if bits (regs.toList.getD 13 0).toNat 3 2 = 3 then galleyAt s (myCluster s * 16 + t / 16 % 16) (t % 8) else none

def scaleCount (fmt blen n : Nat) : Nat := if isMx fmt then n / blockLen blen else 0

/-- Element bytes that a transfer delivers. -/
def CopyJob.bytes (j : CopyJob) : Nat := j.total * elemWidth j.dst.fmt / 8
/-- Scale bytes that a transfer delivers. -/
def CopyJob.scales (j : CopyJob) : Nat := scaleCount j.dst.fmt j.dst.blen j.total

/-- The conditions of R189: whole entries in the galley's format. -/
def galleyFits (j : CopyJob) (g : Galley) : Bool :=
  j.dst.fmt == g.fmt && j.dst.blen == g.blen && (j.bytes + j.scales) % g.size == 0

/-- The snapshot of the staging registers, with the formats and the spec. -/
def launchJob (s : State) : CopyJob :=
  let x := me s
  let regs := x.eng.cp
  let sf := sideFmt s regs false
  let df := sideFmt s regs true
  let f := (regs.toList.getD 12 0).toNat
  let spec := match launchTile s regs with | some t => (tagBlk t.tag, tagSeed t.tag) | none => (bits f 17 16, f / 2 ^ 32)
  { part := (myPart s).getD 64, world := x.world, slot := myKey s, depth := hdepth x, core := myCore s, launch := x.task.launch,
    rm := x.sc.fpmode.toNat % 4, src := { CopyEnd.reset with fmt := sf.1, blen := sf.2 },
    dst := { CopyEnd.reset with fmt := df.1, blen := df.2 }, regs := regs, blk := spec.1, seed := spec.2 }

def CopyJob.endKind (j : CopyJob) : Nat := bits (j.reg 13) 3 2

/-- The first three rows of R190. -/
def launchChecks1 (s : State) (j : CopyJob) : Run Unit :=
  if !fmtOk j.src.fmt j.src.blen || !fmtOk j.dst.fmt j.dst.blen then trap s 0x05 (w64 (j.reg 12))
  else if !copyPair j.src.fmt j.src.blen j.dst.fmt j.dst.blen then trap s 0x19 0
  else if (!j.same && pairRotates j.src.fmt j.dst.fmt && j.blk == 0) ||
      (j.blk != 0 && !pairNoSpec j.src.fmt j.dst.fmt && j.count 0 % rotLen j.blk != 0) then
    trap s 0x0A (w64 (tagOf j.blk 0 j.seed))
  else .ok ()

/-- The fourth row of R190, but for the overlap. -/
def launchChecks2 (s : State) (j : CopyJob) : Run Unit :=
  let ws := elemWidth j.src.fmt
  let wd := elemWidth j.dst.fmt
  let whole := j.count 0 * ws % 8 == 0 && j.count 0 * wd % 8 == 0 &&
    (!isMx j.src.fmt || j.count 0 % blockLen j.src.blen == 0) && (!isMx j.dst.fmt || j.count 0 % blockLen j.dst.blen == 0)
  let morton := (!j.srcMorton || mortonOk (j.count 0) (j.count 1) j.src.fmt) &&
    (!j.dstMorton || mortonOk (j.count 0) (j.count 1) j.dst.fmt)
  let layout := match launchTile s j.regs with
    | some t => t.morton == (if j.endKind = 1 then j.srcMorton else j.dstMorton)
    | none => true
  let strides := j.endKind == 3 || stridesCover j wd
  let galley := match launchGalley s j.regs with | some g => galleyFits j g | none => true
  if whole && j.reg 14 % 4 == 0 && morton && layout && strides && galley then .ok () else trap s 0x19 0

/-- The offsets at which an element of a side stands: the first, and one step along each dimension. -/
def firstSteps (j : CopyJob) (morton : Bool) (stride : Nat → Int) : List Int :=
  0 :: (((if morton then [2, 3] else [1, 2, 3]).filter fun k => decide (1 < j.count k)).map stride)

/-- One memory endpoint: its pointer with the combination of R53 (R109), R114 over its extent, alignment, and where it lies (R190). -/
def memoryEnd (s : State) (j : CopyJob) (dest : Bool) : Run CopyEnd := do
  let x := (me s).eng
  let e := if dest then x.cpdst else x.cpsrc
  let side := if dest then j.dst else j.src
  let morton := if dest then j.dstMorton else j.srcMorton
  let stride := if dest then j.dstStride else j.srcStride
  let isTile := j.endKind == (if dest then 2 else 1)
  let need := if dest then rW else rR
  let w := elemWidth side.fmt
  let g := segOf s s.cur e.seg
  let off0 : Int := (ptrOff e.ptr : Int) + e.disp
  if !ptrOk e.ptr || !fmtOk (bits e.ptr.toNat 63 59) (bits e.ptr.toNat 58 56) then trap s 0x05 e.ptr
  if j.total = 0 then return side
  let ext := extentOf j morton stride w
  let lo := off0 + ext.1
  let size := (ext.2 - ext.1).toNat
  if g.isVoid || !hasRights (effRights s e.seg g) need || (isMx side.fmt && g.kind != 4 && !isTile) then trap s 0x04 (ofInt lo)
  if lo < 0 ∨ (g.limit : Int) < lo + size - 1 then trap s 0x03 (ofInt lo)
  let steps := (firstSteps j morton stride).map fun d => off0 + d
  let unit := if isMx side.fmt then w * blockLen side.blen else w
  trapFirst s steps (fun o => if 8 ≤ unit ∧ !isMx side.fmt then ((g.base : Int) + o) * 8 % unit != 0 else o * 8 % unit != 0) 0x06
    (fun o => ofInt ((g.base : Int) + o))
  let cva := g.base + lo.toNat
  let t ← if g.kind = 5 then windowPath s size 1 need (myFrames s) cva else storage s g.kind cva size lo (domOf s e.seg) false
  let up := (-ext.1).toNat
  match t with
  | .lm _ a => return { side with kind := 0, base := a + up, dom := none }
  | .sp cl a =>
    if !ringScratch s cl a size then trap s 0x1A (w64 a)
    return { side with kind := 1, base := a + up, dom := none }
  | .paged a dom => return { side with kind := 2, base := a + up, scaleAt := scaleBase g, segOff := off0.toNat, dom := dom }

/-- The CVA of the scale byte of the element at bit b from the first, for a format with scales (R113, R262). -/
def scaleCva (s : State) (j : CopyJob) (e : CopyEnd) (b : Int) : Nat :=
  match e.tile.bind fun h => tileAt s j.part (handleIx h) with
  | some t => t.base + (tileShape t).scaleStart + scaleIndex (tileShape t) (((e.base : Int) + b / 8 - t.base).toNat)
  | none => e.scaleAt + (((e.segOff : Int) * 8 + b) / elemWidth e.fmt / blockLen e.blen).toNat

/-- The byte range of an endpoint with its scale bytes (R190). -/
def fullExtent (s : State) (j : CopyJob) (e : CopyEnd) (dest : Bool) : Int × Int :=
  let w := elemWidth e.fmt
  let ext := extentOf j (if dest then j.dstMorton else j.srcMorton) (if dest then j.dstStride else j.srcStride) w
  let a := (e.base : Int) + ext.1
  let b := (e.base : Int) + ext.2
  if isMx e.fmt then
    (min a (scaleCva s j e (ext.1 * 8)), max b ((scaleCva s j e (ext.2 * 8 - w) : Int) + 1))
  else (a, b)

/-- Where an endpoint's elements would lie, before the checks of R114: none when they lie nowhere in a CVA space. -/
def endpointAt (s : State) (j : CopyJob) (dest : Bool) : Option CopyEnd :=
  let x := (me s).eng
  let e := if dest then x.cpdst else x.cpsrc
  let side := if dest then j.dst else j.src
  let g := segOf s s.cur e.seg
  let off : Int := (ptrOff e.ptr : Int) + e.disp
  let low := (extentOf j (if dest then j.dstMorton else j.srcMorton) (if dest then j.dstStride else j.srcStride)
    (elemWidth side.fmt)).1
  let tile := if j.endKind == (if dest then 2 else 1) then some (j.reg 16 % 2 ^ 32) else none
  let at_ := fun (kind base : Nat) =>
    let a : Int := base + off
    if a + low < 0 then none
    else some { side with kind := kind - 2, base := a.toNat, scaleAt := scaleBase g, segOff := off.toNat, tile := tile }
  match g.kind with
  | 2 | 3 => (at_ g.kind g.base)
  | 1 | 4 => at_ 4 g.base
  | 5 => match (windowChain (myFrames s) 0).2 with
    | .void => none
    | .loc base _ => at_ 2 (base + g.base)
    | .seg h add _ => if h.isVoid then none else at_ (if h.kind = 2 ∨ h.kind = 3 then h.kind else 4) (h.base + add + g.base)
  | _ => none

/-- The source and destination extents share a byte of one CVA space (R190). -/
def endsOverlap (s : State) (j : CopyJob) : Bool :=
  match endpointAt s j false, endpointAt s j true with
  | some x, some y =>
    let a := fullExtent s j x false
    let b := fullExtent s j y true
    j.endKind != 3 && j.total != 0 && x.kind == y.kind && decide (a.1 < b.2) && decide (b.1 < a.2)
  | _, _ => false

/-- The tile row of R190; a missing right gives the offset of the extent (R112). DESIGN CHOICE (log entry 85): an extent that leaves the
tile's footprint, which R190 lists under no cause, traps with 0x03. -/
def tileEnd (s : State) (j : CopyJob) (e : CopyEnd) (dest : Bool) : Run CopyEnd := do
  let h := j.reg 16 % 2 ^ 32
  let ver := j.reg 16 / 2 ^ 32
  let (_, _, t) ← needTile s h
  let k := if dest then (me s).eng.cpdst.seg else (me s).eng.cpsrc.seg
  let ten ← if dest then needWriteTenure s h else needTenure s h
  if !dest && (ten.write || (ver != 0xFFFFFFFF && ver != ten.version)) then trapFree s 0x0E
  let g := segOf s s.cur k
  let ext := extentOf j (if dest then j.dstMorton else j.srcMorton) (if dest then j.dstStride else j.srcStride) (elemWidth e.fmt)
  let x := if dest then (me s).eng.cpdst else (me s).eng.cpsrc
  if !hasRights (effRights s k g) rT || (g.kind != 1 && g.kind != 4) then trap s 0x04 (ofInt ((ptrOff x.ptr : Int) + x.disp + ext.1))
  if j.total != 0 && (decide ((e.base : Int) + ext.1 < t.base) || decide ((t.base + t.ext : Int) < e.base + ext.2)) then
    trapFree s 0x03
  return { e with tile := some h, version := ten.version, dom := if dest then some t.kdom else e.dom }

/-- The galley row of R190. -/
def galleyEnd (s : State) (j : CopyJob) : Run CopyEnd := do
  let t := j.reg 16
  match galleyAt s (myCluster s * 16 + t / 16 % 16) (t % 8) with
  | none => galleyTrap s (t % 8) 0
  | some g =>
    if g.world ≠ myWorld s then galleyTrap s (t % 8) 1
    return { j.dst with kind := 3, base := t % 8 }

/-- All the checks of R190, and the job with its two ends resolved. -/
def resolveJob (s : State) : Run CopyJob := do
  let j := launchJob s
  launchChecks1 s j
  launchChecks2 s j
  if endsOverlap s j then trap s 0x19 0
  let src ← memoryEnd s j false
  let dst ← if j.endKind = 3 then .ok j.dst else memoryEnd s j true
  let src1 ← if j.endKind = 1 then tileEnd s j src false else .ok src
  let dst1 ← if j.endKind = 2 then tileEnd s j dst true else if j.endKind = 3 then galleyEnd s j else .ok dst
  return { j with src := src1, dst := dst1 }

/-- The pages of a range of PVAs. -/
def pagesOf (lo hi : Int) : List Nat := (List.range (((hi + 4095) / 4096 - lo / 4096).toNat)).map fun i => ((lo / 4096).toNat + i) * 4096
/-- An endpoint has bytes of PM or HM (R190). -/
def reachesOut (s : State) (j : CopyJob) (e : CopyEnd) (dest : Bool) : Bool :=
  let x := fullExtent s j e dest
  e.kind == 2 && j.total != 0 && (pagesOf x.1 x.2).any fun a => match walk s j.part a with
    | .ok t => t.space == .pm || t.space == .hm
    | _ => false

/-- CPLAUNCH (R190): it holds its claim while it waits on its fence, which orders every earlier access of the slot. -/
def execCplaunch (a : BitVec 5) (s : State) : Out :=
  Run.out do
    clusterCore s
    let k := myKey s
    let cl := myCluster s
    let ch := ((me s).eng.cp.toList.getD 15 0).toNat % 16
    let c := chanAt s cl ch
    if c.state == .running || c.claim.isSome then return returns s a 0
    let j ← resolveJob s
    let sc : Scope := if reachesOut s j j.src false || reachesOut s j j.dst true then .system else .partition
    let e : MemEv := { id := s.nextId, thread := k, kind := .fence, addrs := [], data := [], order := .release, scope := sc,
                       space := .dm, dom := none, path := [], footprint := none, copyOffset := none, poisoned := false,
                       launch := none }
    let s1 := setChan s cl ch { c with claim := some (k, j) }
    if fenceOk s1 e then return retire (startTransfer (bumpId s1) k a)
    return parkOf (pushEv s1 e) s.cur .memory false (.launch a s.nextId)

/-! ### Delivery (R191, R192) -/

/-- Why a channel does not go on: it stops with a cause, a page that it reads or writes is not present, or it waits. -/
inductive Stop where
  | cause (c : Nat)
  | absent (addr : Nat) (stage2 write : Bool)
  | hold
  deriving DecidableEq, Repr

/-- A byte of an endpoint: its type, its flat address and the effective cache ceiling (R115). -/
structure EndByte where
  ty : Space
  flat : Nat
  ceil : Nat
  deriving DecidableEq, Repr

/-- The storage of bytes of an endpoint. cvas are CVAs; a tile's scale bytes are named by PVA too. A copy channel has no L1: its ceiling is at
most C2 (R240). -/
def endBytes (s : State) (cl ch : Nat) (j : CopyJob) (e : CopyEnd) (write : Bool) (cvas : List Nat) :
    State × Except Stop (List EndByte) :=
  match e.kind with
  | 0 => (s, .ok (cvas.map fun a => { ty := .lm, flat := flatLocal j.core a, ceil := 0 }))
  | 1 =>
    if cvas.all (scratchMode s cl) then (s, .ok (cvas.map fun a => { ty := .sp, flat := flatScratch cl a, ceil := 0 }))
    else (s, .error (.cause 0x1A))
  | _ =>
    if write && e.tile.isNone && cvas.any fun a => (footprintAt s j.part a).isSome then (s, .error (.cause 0x0D))
    else
      let (s1, l) := pagesXlAt s cl j.part [] cvas
      let need := if write then rW else rR
      match cvas.find? fun a => match xlOf l a with | .ok t => !tlbAllows t need | _ => true with
      | some a => (s1, .error (match xlOf l a with
          | .notPresent x st => .absent x st write
          | .moving _ => .hold
          | .poisoned => .cause 0x16
          | _ => .cause 0x15))
      | none =>
        let th := chanThread cl ch
        let tile := match e.tile with | some h => tileAt s1 j.part (handleIx h) | none => none
        let ceil := fun (a : Nat) => match xlOf l a with | .ok t => min 2 (min t.ceil (typeCap t.space)) | _ => 0
        let place := fun (a : Nat) => match tile, xlOf l a with
          | some t, _ =>
            { ty := .dm, ceil := ceil a,
              flat := if write then shadowFlat t (launchOfThread s1 th) (a - t.base) else versionFlat t e.version (a - t.base) }
          | none, .ok t => { ty := t.space, flat := (footprintFlat s1 th j.part a).getD (t.flat + a % 4096), ceil := ceil a }
          | none, _ => { ty := .dm, flat := 0, ceil := 0 }
        (s1, .ok (cvas.map place))

/-- The coordinates of the n-th element in the destination's order. -/
def coordAt (j : CopyJob) (n : Nat) : Nat × Nat × Nat × Nat :=
  let plane := j.count 0 * j.count 1
  let r := n % plane
  let q := n / plane
  let xy := if j.dstMorton then mortonAt (Nat.log2 (j.count 0)) (Nat.log2 (j.count 1)) r else (r % j.count 0, r / j.count 0)
  (xy.1, xy.2, q % j.count 2, q / j.count 2)

/-- The byte offset of a destination element from element (0, 0, 0, 0). -/
def dstOff (j : CopyJob) (d : Nat × Nat × Nat × Nat) : Nat :=
  (elemBit j j.dstMorton j.dstStride (elemWidth j.dst.fmt) d / 8).toNat

/-- How many elements from the n-th on are read and converted in one step: a group, or the elements of a chunk. -/
def unitLen (j : CopyJob) (n : Nat) : Nat :=
  let w := elemWidth j.dst.fmt
  let chunk := if j.dst.kind = 2 then 8 else 16
  let d := coordAt j n
  let addr := if j.dst.kind = 3 then n * w / 8 else j.dst.base + dstOff j d
  let left := if j.dstMorton then j.count 0 * j.count 1 - n % (j.count 0 * j.count 1) else j.count 0 - d.1
  let room := (chunk - addr % chunk) * 8 / w
  let whole := if w = 6 then 32 else if w < 8 then room else max 1 room
  min left (if j.group = 1 ∨ j.dstMorton then whole else j.group)

/-- The source CVAs of one element: its bytes, and the bit of the first. -/
def srcElem (j : CopyJob) (d : Nat × Nat × Nat × Nat) : List Nat × Nat :=
  let w := elemWidth j.src.fmt
  let b := elemBit j j.srcMorton j.srcStride w d
  let first := b / 8
  let last := (b + w - 1) / 8
  ((List.range ((last - first).toNat + 1)).map fun i => ((j.src.base : Int) + first).toNat + i, (b % 8).toNat)

/-- The groups that a list of elements needs, by their first elements. -/
def groupHeads (j : CopyJob) (l : List (Nat × Nat × Nat × Nat)) : List (Nat × Nat × Nat × Nat) :=
  (l.map fun d => (d.1 - d.1 % j.group, d.2)).eraseDups
def groupCoords (j : CopyJob) (d : Nat × Nat × Nat × Nat) : List (Nat × Nat × Nat × Nat) :=
  (List.range j.group).map fun i => (d.1 + i, d.2)

/-- The scale CVAs of one group of the source. -/
def groupScales (s : State) (j : CopyJob) (d : Nat × Nat × Nat × Nat) : List Nat :=
  if isMx j.src.fmt then
    (List.range (j.group / blockLen j.src.blen)).map fun i =>
      scaleCva s j j.src (elemBit j j.srcMorton j.srcStride (elemWidth j.src.fmt) (d.1 + i * blockLen j.src.blen, d.2))
  else []

/-- Reads of bytes of endpoints are counted where they are served (R356, R382). -/
def noteEnd (s : State) (l : List EndByte) : State :=
  (List.range 3).foldl (fun t c => noteFills t c 0 ((l.filter fun b => b.ceil == c).map (·.flat))) (noteElided s (l.map (·.flat)))

/-- A byte of a peer by a port that is down (R368). -/
def endDown (s : State) (cl ch : Nat) (b : EndByte) : Bool :=
  linkDown s (placeEv (chanThread cl ch) { ty := b.ty, addrs := [b.flat], dom := none, foot := none, node := 0, ceil := 0 } .read []
    .relaxed .system [])

/-- Read the bytes of CVAs of the source; poison stops the channel (R192). -/
def readSource (s : State) (cl ch : Nat) (j : CopyJob) (cvas : List Nat) : State × Except Stop (List Byte) :=
  match endBytes s cl ch j j.src false cvas with
  | (s1, .error e) => (s1, .error e)
  | (s1, .ok l) =>
    if l.all fun b => lineOpens s1 j.src.dom b.flat && !endDown s1 cl ch b then
      (noteEnd s1 l, .ok (l.map fun b => threadByte s1 (chanThread cl ch) b.ty b.flat))
    else (s1, .error (.cause 0x16))

/-- Read and convert one group. -/
def readGroup (s : State) (cl ch : Nat) (j : CopyJob) (d : Nat × Nat × Nat × Nat) :
    State × Except Stop (List Nat × List Nat × FFlags) :=
  let es := (groupCoords j d).map (srcElem j)
  let sc := groupScales s j d
  match readSource s cl ch j (es.flatMap (·.1) ++ sc) with
  | (s1, .error e) => (s1, .error e)
  | (s1, .ok bs) =>
    let w := elemWidth j.src.fmt
    let cut := es.foldl (fun (acc : List Nat × List Byte) e =>
      (acc.1 ++ [leNat (acc.2.take e.1.length) / 2 ^ e.2 % 2 ^ w], acc.2.drop e.1.length)) ([], bs)
    (s1, .ok (convertGroup j cut.1 (cut.2.map (·.toNat))))

/-- Read and convert the groups of a unit, in order. -/
def readGroups (s : State) (cl ch : Nat) (j : CopyJob) :
    List (Nat × Nat × Nat × Nat) → State × Except Stop (List ((Nat × Nat × Nat × Nat) × List Nat × List Nat × FFlags))
  | [] => (s, .ok [])
  | d :: rest =>
    match readGroup s cl ch j d with
    | (s1, .error e) => (s1, .error e)
    | (s1, .ok g) =>
      match readGroups s1 cl ch j rest with
      | (s2, .error e) => (s2, .error e)
      | (s2, .ok l) => (s2, .ok ((d, g) :: l))

/-- A unit of a transfer: its elements' bytes, its scale bytes and its flags. -/
def unitBytes (j : CopyJob) (l : List (Nat × Nat × Nat × Nat))
    (gs : List ((Nat × Nat × Nat × Nat) × List Nat × List Nat × FFlags)) : List Byte × List Byte × FFlags :=
  let code := fun (d : Nat × Nat × Nat × Nat) =>
    match gs.find? fun g => g.1 == (d.1 - d.1 % j.group, d.2) with
    | some g => g.2.1.getD (d.1 % j.group) 0
    | none => 0
  (lanesBytes (elemWidth j.dst.fmt) (l.map code), (gs.flatMap fun g => g.2.2.1).map (BitVec.ofNat 8),
   gs.foldl (fun f g => f ||| g.2.2.2) 0)

/-- Accept the writes of bytes at places, chunk by chunk; each event keeps the destination bytes before it (R191). -/
def acceptChunks (s : State) (cl ch : Nat) (l : List Place) (bs : List Byte) (at_ : Nat) (scale : Bool) : State :=
  (l.foldl (fun (acc : State × List Byte × Nat) pl =>
    let n := pl.addrs.length
    let th := chanThread cl ch
    let e := { placeEv th pl .write (acc.2.1.take n) .relaxed .thread (pathOf acc.1 th pl.ty pl.node) with
               id := acc.1.nextId, copyOffset := some acc.2.2 }
    (acceptEv (bumpId acc.1) e, acc.2.1.drop n, if scale then acc.2.2 else acc.2.2 + n)) (s, bs, at_)).1

def placesOf (l : List EndByte) (dom : Option Nat) : List Place :=
  l.map fun b => { ty := b.ty, addrs := [b.flat], dom := dom, foot := none, node := nodeOf b.flat, ceil := b.ceil }

/-- The copy-on-write of a tile destination: none when it has no room yet (R268, R269). -/
def tileRoom (s : State) (cl ch : Nat) (j : CopyJob) (cvas : List Nat) : Option State :=
  match j.dst.tile.bind fun h => (tileAt s j.part (handleIx h)).map fun t => (handleIx h, t) with
  | none => some s
  | some (i, t) =>
    let offs := cvas.map fun a => a - t.base
    if shadowRoom s j.part t offs then some (takeShadow s j.part i (launchOfThread s (chanThread cl ch)) offs) else none

/-- Write bytes at CVAs of a memory or tile destination. -/
def deliverMemory (s : State) (cl ch : Nat) (j : CopyJob) (cvas : List Nat) (bs : List Byte) (written : Nat) (scale : Bool) :
    State × Except Stop State :=
  match tileRoom s cl ch j cvas with
  | none => (s, .error .hold)
  | some s0 =>
    match endBytes s0 cl ch j j.dst true cvas with
    | (s1, .error e) => (s1, .error e)
    | (s1, .ok flats) =>
      let pls := placesOf flats j.dst.dom
      if pls.all fun pl => pl.addrs.all (lineOpens s1 pl.dom) then (s1, .ok (acceptChunks s1 cl ch (chunked pls) bs written scale))
      else (s1, .error (.cause 0x16))

/-! The converted bytes that are not yet written stand in the channel, element bytes and scale bytes apart; written chunk by chunk, a
chunk that two rows or two groups share is one event (R245). -/

/-- Bytes of the lowest dimensions of the destination that lie without a gap. -/
def CopyJob.flat (j : CopyJob) : Nat :=
  (if j.dstMorton then j.count 0 * j.count 1 else j.count 0) * elemWidth j.dst.fmt / 8

/-- The CVA of the i-th element byte, in the destination's order. -/
def byteCva (j : CopyJob) (i : Nat) : Nat :=
  let n := i / j.flat
  let far := fun (x y z : Nat) => ((x : Int) * j.dstStride 1 + (y : Int) * j.dstStride 2 + (z : Int) * j.dstStride 3).toNat
  j.dst.base + i % j.flat +
    (if j.dstMorton then far 0 (n % j.count 2) (n / j.count 2)
     else far (n % j.count 1) (n / j.count 1 % j.count 2) (n / j.count 1 / j.count 2))

/-- The CVA of the i-th scale byte. -/
def blockCva (s : State) (j : CopyJob) (i : Nat) : Nat :=
  scaleCva s j j.dst (elemBit j j.dstMorton j.dstStride (elemWidth j.dst.fmt) (coordAt j (i * blockLen j.dst.blen)))

/-- The bytes of the chunk that begins at byte i of a stream, of which n stand ready out of all; 0 while more of them will come. -/
def readyRun (addr : Nat → Nat) (chunk i n all : Nat) : Nat :=
  let same := fun (k : Nat) => addr (i + k) / chunk == addr i / chunk
  let m := ((List.range n).takeWhile same).length
  if m < n ∨ all ≤ i + n ∨ !same n then m else 0

/-- Read and convert the next elements: their bytes wait in the channel. -/
def convertUnit (s : State) (cl ch : Nat) : State × Except Stop State :=
  let c := chanAt s cl ch
  let j := c.job
  let n := (c.written + c.entryBytes.length) * 8 / elemWidth j.dst.fmt
  let l := if j.total ≤ n then [] else (List.range (unitLen j n)).map fun i => coordAt j (n + i)
  if l.isEmpty then (s, .error .hold) else
  match readGroups s cl ch j (groupHeads j l) with
  | (s1, .error e) => (s1, .error e)
  | (s1, .ok gs) =>
    let u := unitBytes j l gs
    (s1, .ok (setChan s1 cl ch { c with entryBytes := c.entryBytes ++ u.1, entryScales := c.entryScales ++ u.2.1,
                                        flags := c.flags ||| u.2.2 }))

/-- The element bytes of the galley entry being filled. DESIGN CHOICE (log entry 70): entry i of n takes its share of the element bytes,
those from i / n of them to (i + 1) / n, and scale bytes up to SIZE. -/
def entryShare (j : CopyJob) (g : Galley) (written : Nat) : Nat :=
  let n := (j.bytes + j.scales) / g.size
  let i := (written * n + j.bytes - 1) / j.bytes
  (i + 1) * j.bytes / n - written

/-- Push the galley entry that stands whole in the channel, once there is room (R173, R189); none while it is not whole. DESIGN CHOICE
(log entry 85): a transfer whose galley is no longer configured ends as faulted with cause 0x0F. -/
def deliverGalley (s : State) (cl ch : Nat) : Option (Except Stop State) :=
  let c := chanAt s cl ch
  let j := c.job
  let core := cl * 16 + j.reg 16 / 16 % 16
  match galleyAt s core j.dst.base with
  | none => some (.error (.cause 0x0F))
  | some g =>
    let m := entryShare j g c.written
    if !ringScratch s cl g.base (g.size * g.count) then some (.error (.cause 0x1A))
    else if c.entryBytes.length < m ∨ c.entryScales.length + m < g.size ∨ j.bytes ≤ c.written then none
    else if !pushOpen s g ch then some (.error .hold)
    else
      let s1 := setChan s cl ch { c with entryBytes := c.entryBytes.drop m, entryScales := c.entryScales.drop (g.size - m),
                                         written := c.written + m }
      some (.ok (pushEntry s1 core j.dst.base g (c.entryBytes.take m ++ c.entryScales.take (g.size - m))
        (tagOf (bits (j.reg 12) 17 16) 0 (j.reg 12 / 2 ^ 32)) ch))

/-- Write the chunk of a memory destination that stands ready: scale bytes before the elements of their blocks (R191); none while none
is ready. -/
def deliverChunk (s : State) (cl ch : Nat) : Option (State × Except Stop State) :=
  let c := chanAt s cl ch
  let j := c.job
  let w := elemWidth j.dst.fmt
  let chunk := if j.dst.kind = 2 then 8 else 16
  let blocks := fun (bytes : Nat) => scaleCount j.dst.fmt j.dst.blen ((bytes * 8 + w - 1) / w + blockLen j.dst.blen - 1)
  let done := blocks (c.written + c.entryBytes.length) - c.entryScales.length
  let m := readyRun (blockCva s j) chunk done c.entryScales.length j.scales
  let n := readyRun (byteCva j) chunk c.written c.entryBytes.length j.bytes
  let set := fun (r : State × Except Stop State) (c : Chan) =>
    match r with
    | (_, .ok t) => some (t, .ok (setChan t cl ch c))
    | (t, .error e) => some (t, .error e)
  if 0 < m then
    set (deliverMemory s cl ch j ((List.range m).map fun i => blockCva s j (done + i)) (c.entryScales.take m) c.written true)
      { c with entryScales := c.entryScales.drop m }
  else if 0 < n ∧ blocks (c.written + n) ≤ done then
    set (deliverMemory s cl ch j ((List.range n).map fun i => byteCva j (c.written + i)) (c.entryBytes.take n) c.written false)
      { c with entryBytes := c.entryBytes.drop n, written := c.written + n }
  else none

/-- The next thing that a running transfer does: it delivers what stands ready, or else reads and converts its next elements. -/
def deliverUnit (s : State) (cl ch : Nat) : State × Except Stop State :=
  if (chanAt s cl ch).job.dst.kind = 3 then
    match deliverGalley s cl ch with
    | some r => (s, r)
    | none => convertUnit s cl ch
  else (deliverChunk s cl ch).getD (convertUnit s cl ch)

/-- COPY_WRITE: a channel writes its next destination elements (R191); a fault stops it (R192). -/
def execCopyWrite (cluster ch : Nat) (s : State) : Out :=
  let c := chanAt s cluster ch
  if c.state != .running || c.waiting then .next s else
  match deliverUnit s cluster ch with
  | (_, .ok s1) => .next s1
  | (s1, .error (.cause x)) => .next (endTransfer s1 cluster ch .faulted x)
  | (_, .error _) => .next s

/-- One CVA in each page that a running transfer has still to read, and to write. -/
def pagesLeft (s : State) (c : Chan) : List Nat × List Nat :=
  let j := c.job
  let one := fun (l : List Nat) => ((l.map (· / 4096)).eraseDups).filterMap fun p => l.find? fun a => a / 4096 == p
  let n := (c.written + c.entryBytes.length) * 8 / elemWidth j.dst.fmt
  let es := (List.range (j.total - n)).map fun i => coordAt j (n + i)
  (one (es.flatMap (fun d => (srcElem j d).1) ++ (groupHeads j es).flatMap (groupScales s j)),
   if j.endKind = 3 then [] else
     one ((List.range (j.bytes - c.written)).map (fun i => byteCva j (c.written + i)) ++
          (List.range c.entryScales.length).map fun i => blockCva s j (scaleCount j.dst.fmt j.dst.blen n - c.entryScales.length + i)))

/-- A byte of each page that a running transfer has still to reach. -/
def bytesLeft (s : State) (cl ch : Nat) : List EndByte :=
  let c := chanAt s cl ch
  let at_ := fun (e : CopyEnd) (write : Bool) (a : Nat) => match (endBytes s cl ch c.job e write [a]).2 with | .ok l => l | .error _ => []
  let p := pagesLeft s c
  p.1.flatMap (at_ c.job.src false) ++ p.2.flatMap (at_ c.job.dst true)

/-- The page that a running transfer waits for, with its stage and whether it is written (R192). -/
def chanAbsent (s : State) (cl ch : Nat) : Option (Nat × Bool × Bool) :=
  if (chanAt s cl ch).state != .running then none else
  match (deliverUnit s cl ch).2 with
  | .error (.absent a st w) => some (a, st, w)
  | _ => none

/-- COPY_TRANSFER_END: every byte is delivered (R193, R196). -/
def execCopyTransferEnd (cluster ch : Nat) (s : State) : Out :=
  let c := chanAt s cluster ch
  let n := c.job.bytes
  if c.state == .running && c.written == n && chanWp s cluster ch == n then .next (endTransfer s cluster ch .idle 0) else .next s

/-! ### Watching a transfer (R191 to R195) -/

/-- A channel's transfer as the executor's world sees it (R195). -/
def myChan (s : State) (b : BitVec 5) : Option Chan :=
  let c := chanAt s (myCluster s) ((rd s b).toNat % 16)
  if c.id = 0 ∨ c.job.world ≠ myWorld s then none else some c

def execCpwp (a b : BitVec 5) (s : State) : Out :=
  Run.out do
    clusterCore s
    return returns s a (match myChan s b with | some _ => chanWp s (myCluster s) ((rd s b).toNat % 16) | none => 0)

def chanCode (c : Chan) : Nat := match c.state with | .idle => 0 | .running => 1 | .faulted => 2 | .cancelled => 3
/-- The word of CPSTAT (R193). -/
def chanWord (c : Chan) : Nat := c.cause % 256 * 2 ^ 24 + c.flags.toNat * 2 ^ 18 + chanCode c * 2 ^ 16 + c.id

def execCpstat (a b : BitVec 5) (s : State) : Out :=
  Run.out do
    clusterCore s
    return returns s a (match myChan s b with | some c => chanWord c | none => 0)

/-- CPCANCEL: the writes already made land before it retires (R194). -/
def execCpcancel (a b : BitVec 5) (s : State) : Out :=
  Run.out do
    clusterCore s
    let cl := myCluster s
    let ch := (rd s b).toNat % 16
    let c := chanAt s cl ch
    if c.id ≠ 0 ∧ c.job.world ≠ myWorld s then return returns s a 2
    if c.state != .running then return returns s a 1
    let s1 := drainWrites s fun e => e.thread == chanThread cl ch
    return returns (endTransfer s1 cl ch .cancelled 0) a 0

/-- CPWAITID (R194). DESIGN CHOICE (log entry 84): bits 63:16 of the register are ignored. -/
def execCpwaitid (a : BitVec 5) (s : State) : Out :=
  Run.out do
    clusterCore s
    let id := (rd s a).toNat % 2 ^ 16
    let c := chanAt s (myCluster s) (id / 4096)
    if c.id ≠ id ∨ id % 4096 = 0 ∨ c.job.world ≠ myWorld s then return returns s a 3
    match c.state with
    | .running => park s .copy true (.transfer id)
    | .idle => return returns s a 0
    | .faulted => return returns s a 1
    | .cancelled => return returns s a 2

/-! ### Completion interrupts (R196, R31) -/

/-- A pending bit becomes an entry when the queue has room (R196). -/
def refillQueue (x : EngineSt) : EngineSt :=
  if x.pending = 0 ∨ 4 ≤ x.queue.length then x else
  match (List.range 16).find? fun i => x.pending.getLsbD i with
  | none => x
  | some i =>
    let e := lookupD x.pendingInfo i { xfer := 0, handler := 0, depth := 0, clock := 0 }
    { x with pending := x.pending &&& ~~~(1#16 <<< i), queue := x.queue ++ [{ e with xfer := e.xfer + 2 ^ 16 }] }

/-- The completion interrupt at the head of a slot's queue may be taken now (R196). A handler of 0 has none. -/
def takeable (s : State) (k : Nat) : Bool :=
  let x := slotAt s k
  match x.eng.queue with
  | [] => false
  | e :: _ =>
    x.tr.tl == 0 && x.sc.uienEn && hdepth x == e.depth && x.state != .splitWait && x.state != .empty &&
    !(x.ganged && k % 2 == 1) && x.vec.deferred.isNone && x.unwind.isNone && !heldNow s x &&
    (x.state == .ready || (match x.park with | some p => p.abandon | none => false))

/-- COMPLETION_INTERRUPT: the slot takes the head entry of its queue at an instruction boundary. -/
def execCompletionInterrupt (slot : Nat) (s : State) : Out :=
  let x := slotAt s slot
  match x.eng.queue with
  | e :: rest =>
    if takeable s slot then
      let s1 := abandonPark s slot
      let sc := fun (y : ScalarSt) =>
        { y with uepc := y.pc, xferid := w64 e.xfer, uienEn := false, uienAct := true, pc := w64 e.handler }
      .next (modSlot s1 slot fun y => { y with sc := sc y.sc, eng := refillQueue { y.eng with queue := rest } })
    else .next s
  | [] => .next s

end Sys2Proof.Machine
end

