-- ==== Sys2Proof/Machine/Matrix.lean ====
section
/-! DEFINITION. The matrix engine (R36, R39, R72 to R74, R177 to R185): hand-off, start with its checks, the product, the
store-out, and the pushes of MMR. -/

namespace Sys2Proof.Machine

/-! ### The hand-off -/

/-- The engine registers captured at a hand-off: MK, MGAL, MOSTR, MOFMT, MOTILE, the rounding mode, and the segment and
displacement of MOUT; its pointer is the scalar operand (R178). -/
def captured (s : State) : List Nat :=
  let v := (me s).vec
  [v.mkReg.toNat, v.mgal.toNat, v.mostr.toNat, v.mofmt.toNat, v.motile.toNat, (me s).sc.fpmode.toNat % 4,
   v.mout.seg.toNat, (ofInt v.mout.disp).toNat]

def cK (h : Handed) : Nat := h.extra.getD 0 0
def cStride (h : Handed) : Nat := h.extra.getD 2 0
def cFmtReg (h : Handed) : Nat := h.extra.getD 3 0
def cTile (h : Handed) : Nat := h.extra.getD 4 0
def cRm (h : Handed) : RMode := rmOf (h.extra.getD 5 0)
def cSeg (h : Handed) : BitVec 3 := BitVec.ofNat 3 (h.extra.getD 6 0)
def cDisp (h : Handed) : Int := (w64 (h.extra.getD 7 0)).toInt

/-- The kind and the modifier bits of a matrix instruction: 0 MMA, 1 MMAS, 2 MMR; store-out, accumulator, tile. -/
def matrixForm (i : Instr) : Nat × Bool × Bool × Nat :=
  match i with
  | .mma o c t => (0, o == 1, c == 1, t.toNat)
  | .mmas o c t => (1, o == 1, c == 1, t.toNat)
  | .mmr o c t => (2, o == 1, c == 1, t.toNat)
  | _ => (0, false, false, 0)
def mxSparse (h : Handed) : Bool := (matrixForm h.instr).1 == 1
def mxOut (h : Handed) : Bool := (matrixForm h.instr).2.1
def mxInt (h : Handed) : Bool := (matrixForm h.instr).2.2.1
def mxTile (h : Handed) : Nat := (matrixForm h.instr).2.2.2

/-- Hand a matrix instruction: it enters the sequencer and the slot parks until it completes (R39, R180). -/
def handMatrix (s : State) (i : Instr) : Run State := do
  engine01 s
  needBank s
  if 16 ≤ (me s).vec.seq.length then park s .sequencer false (.retryAfter 15)
  let h := { handedOf s i (me s).vec.mout.ptr 0 0 with extra := captured s }
  let put := fun (v : VecSt) => { v with seq := v.seq ++ [entryOf s h], recent := (h :: v.recent).take 16 }
  let s1 := modMe s fun x => { x with vec := put x.vec }
  return releaseMatrix (parkOf s1 s1.cur .matrix false .matrix) (myKey s1)

noncomputable def execMma (o c t : BitVec 1) (s : State) : Out := (handMatrix s (.mma o c t)).out
noncomputable def execMmas (o c t : BitVec 1) (s : State) : Out := (handMatrix s (.mmas o c t)).out
noncomputable def execMmr (o c t : BitVec 1) (s : State) : Out := (handMatrix s (.mmr o c t)).out

/-- MZERO is handed over and does not park (R181). -/
noncomputable def execMzero (t : BitVec 1) (s : State) : Out :=
  Run.out do
    engine01 s
    needBank s
    let h := handedOf s (.mzero t) 0 0 0
    enqueue s h (entryOf s h)

/-! ### Formats and layouts -/

/-- Kc of a pair of formats with an accumulator type (R177); none for a pair outside the table. -/
def pairKc (fa fb : Nat) (int : Bool) : Option Nat :=
  let fp8 := fun (f : Nat) => f == 10 || f == 11 || f == 12 || f == 13 || f == 15 || f == 16 || f == 17 || f == 18 || f == 20
  let i8 := fun (f : Nat) => f == 1 || f == 2 || f == 20
  let e2 := fun (f : Nat) => f == 14 || f == 19
  if int then
    if i8 fa && i8 fb then some 8
    else if fa == 3 && fb == 3 then some 16
    else if (fa == 4 || fa == 21) && fb == 1 then some 32
    else none
  else if (fa == 9 && fb == 9) || (fa == 8 && fb == 8) then some 4
  else if fp8 fa && fp8 fb then some 8
  else if e2 fa && e2 fb then some 16
  else if fa == 21 && fb == 1 then some 32
  else none

/-- Bytes of an entry's layout (R172). -/
def layoutSize (g : Galley) (k : Nat) : Nat := (if g.bitmap then 32 * k / 8 else 0) + denseSize g.fmt g.blen k

/-- An element of an operand: its code and its value; none when it is absent (R183). -/
abbrev Elem := Option (Nat × FVal × FFlags)

/-- Place stored elements at the set bits of a presence map. -/
def spread : List Bool → List (Nat × FVal × FFlags) → List Elem
  | true :: bs, x :: xs => some x :: spread bs xs
  | true :: bs, [] => none :: spread bs []
  | false :: bs, xs => none :: spread bs xs
  | [], _ => []

/-- The codes of one vector, w bits each. -/
def vectorCodes (bs : List Byte) (w n : Nat) : List Nat := (List.range n).map fun i => leNat bs / 2 ^ (w * i) % 2 ^ w

/-- Vector v of an entry (R172). ignore leaves the block scales out (R73). -/
def entryVector (g : Galley) (bs : List Byte) (k v : Nat) (ignore : Bool) : List Elem :=
  let w := elemWidth g.fmt
  let b := blockLen g.blen
  let map0 := if g.bitmap then 32 * k / 8 else 0
  let codes := vectorCodes ((bs.drop (map0 + v * k * w / 8)).take (k * w / 8)) w k
  let scales := (((bs.drop (map0 + 32 * k * w / 8 + v * (k / b))).take (k / b)).map (·.toNat))
  let value := fun (at_ : Nat) (x : Nat) =>
    let y := elemValue (if ignore then elemCode g.fmt else g.fmt) x
    (x, (if isMx g.fmt && !ignore then scaleValue (scales.getD (at_ / b) 0) y.1 else y.1), y.2)
  if g.bitmap then
    let here := (List.range k).map fun i => leNat ((bs.drop (v * k / 8)).take (k / 8)) / 2 ^ i % 2 == 1
    let at_ := ((List.range k).zip here).filterMap fun p => if p.2 then some p.1 else none
    spread here ((at_.zip codes).map fun p => value p.1 p.2)
  else codes.mapIdx fun i x => some (value i x)

/-- The product formed at one k, if any (R178, R183). -/
def productAt (a b : Elem) : Option FVal :=
  match a, b with
  | some x, some y => some (mulF x.2.1 y.2.1)
  | some x, none => if x.2.1.isFin then none else some (mulF x.2.1 (.fin false 0 0))
  | none, some y => if y.2.1.isFin then none else some (mulF (.fin false 0 0) y.2.1)
  | none, none => none

/-- The exact sum of products, +0 of none (R56, R72). -/
def sumF (l : List FVal) : FVal :=
  if l.any FVal.isNan then .nan
  else
    let up := l.any fun v => v == .inf false
    let down := l.any fun v => v == .inf true
    if up && down then .nan else if up then .inf false else if down then .inf true
    else
      let d := l.foldl (fun (acc : Int × Int) v => addDy acc v.dy) (0, 0)
      ofDyadic d.1 d.2 (!l.isEmpty && l.all negZero)

def elemNan (e : Elem) : Bool := match e with | some x => x.2.1.isNan | none => false

/-- One group into an FP32 accumulator: one rounding, RNE (R72). -/
def groupF (c : Nat) (ab : List (Elem × Elem)) : Nat × FFlags :=
  let acc := decodeF fp32 c
  let v := addF .rne acc (sumF (ab.filterMap fun p => productAt p.1 p.2))
  let r := roundWide fp32 .rne v
  let quiet := acc.isNan || ab.any fun p => elemNan p.1 || elemNan p.2
  (r.1, r.2 ||| fIf (v.isNan && !quiet) fNV)

/-- One group into an INT32 accumulator (R73). -/
def groupI (c : Nat) (ab : List (Elem × Elem)) : Nat × FFlags :=
  let s := ab.foldl (fun (t : Int) p => match p.1, p.2 with
    | some x, some y => t + (x.2.1.int * y.2.1.int)
    | _, _ => t) (sx c 32)
  let lo : Int := -2147483648
  let hi : Int := 2147483647
  (intBits 32 (clampInt lo hi s), fIf (decide (s < lo) || decide (hi < s)) fOF)

/-- All groups of one element of C. -/
def cell (int : Bool) (groups : List (List (Elem × Elem))) (c : Nat) : Nat × FFlags :=
  groups.foldl (fun (acc : Nat × FFlags) g =>
    let r := if int then groupI acc.1 g else groupF acc.1 g
    (r.1, acc.2 ||| r.2)) (c, 0)

def pairGroups (kc : Nat) (a b : List Elem) : List (List (Elem × Elem)) := chunksOf kc a.length (a.zip b)

/-- The NV of reserved TERN codes among the operands (R54). -/
def decodeFlags (l : List (List Elem)) : FFlags :=
  l.foldl (fun f v => v.foldl (fun f e => match e with | some x => f ||| x.2.2 | none => f) f) 0

/-- The rows of C and the flags of the product. -/
def product (int : Bool) (kc : Nat) (a b : List (List Elem)) (c : List (List Nat)) : List (List Nat) × FFlags :=
  let rows := (a.zip c).map fun r => (b.zip r.2).map fun q => cell int (pairGroups kc r.1 q.1) q.2
  (rows.map fun r => r.map (·.1),
   rows.foldl (fun f r => r.foldl (fun f x => f ||| x.2) f) (decodeFlags a ||| decodeFlags b))

/-- The clocks of an MMAS (R183). -/
def sparseClocks (kc : Nat) (a b : List (List Elem)) : Nat :=
  let count := fun (g : List (Elem × Elem)) => (g.filter fun p => (productAt p.1 p.2).isSome).length
  let per := a.flatMap fun x => b.map fun y => (pairGroups kc x y).map count
  let worst := per.foldl (fun (acc : List Nat) l => if acc.isEmpty then l else (acc.zip l).map fun p => max p.1 p.2) []
  max 1 ((worst.foldl (· + ·) 0 + kc - 1) / kc)

/-! ### The checks of a start (R92, R179, R184, R185) -/

/-- A galley of the instruction: configured, of the world, in the mode that it needs. -/
def operandGalley (s : State) (h : Handed) (n : Nat) : Run Galley := do
  let g ← needGalley s n
  if g.bitmap != mxSparse h then galleyTrap s n 2
  return g

/-- A neighbour's galley that MMR pushes to (code 8 of R176). -/
def neighbourOk (s : State) (core n : Nat) (own : Galley) : Bool :=
  match galleyAt s core n with
  | some g => g.world == myWorld s && !g.bitmap && g.size == own.size && g.fmt == own.fmt && g.blen == own.blen
  | none => false

/-- The checks that need no entry: the two galleys and Kc. DESIGN CHOICE (log entry 78): where R176 names no one galley, the value names GA,
and of code 8 the one pushed to; code 8 comes after code 5 and before 0x1A (log entry 80). -/
def startChecks (s : State) (h : Handed) : Run (Galley × Galley × Nat) := do
  let ga := galA h
  let gb := galB h
  if ga = gb then galleyTrap s ga 9
  let a ← operandGalley s h ga
  let b ← operandGalley s h gb
  let k := cK h
  match pairKc a.fmt b.fmt (mxInt h) with
  | none => galleyTrap s ga 3
  | some kc =>
    if k = 0 ∨ 2048 < k ∨ k % kc ≠ 0 ∨ (isMx a.fmt ∧ k % blockLen a.blen ≠ 0) ∨ (isMx b.fmt ∧ k % blockLen b.blen ≠ 0) ∨
       (mxSparse h ∧ k % 8 ≠ 0) then galleyTrap s ga 4
    if a.size < layoutSize a k then galleyTrap s ga 5
    if b.size < layoutSize b k then galleyTrap s gb 5
    if isMmr h.instr then
      if !neighbourOk s (westOf (myCore s)) (galW h) a then galleyTrap s (galW h) 8
      if !neighbourOk s (northOf (myCore s)) (galN h) b then galleyTrap s (galN h) 8
    if !ringScratch s (myCluster s) a.base (a.size * a.count) || !ringScratch s (myCluster s) b.base (b.size * b.count) then
      trapFree s 0x1A
    return (a, b, kc)

/-- The tag comparison (R92). -/
def tagChecks (s : State) (h : Handed) (ta tb : Nat) : Run Unit :=
  let both := tagBlk ta = 0 ∧ tagBlk tb = 0
  if both then .ok ()
  else if tagBlk ta ≠ tagBlk tb ∨ tagSeed ta ≠ tagSeed tb ∨ tagAxis ta ≠ 0 ∨ tagAxis tb ≠ 0 then
    trap s 0x09 (w64 (ta % 2 ^ 36 + galA h * 2 ^ 36 + galB h * 2 ^ 39))
  else if cK h % rotLen (tagBlk ta) ≠ 0 then trap s 0x0A (w64 (tagOf (tagBlk ta) 0 (tagSeed ta)))
  else .ok ()

/-- The store-out format of an instruction: code, block-length code, rotation block code, seed, saturation. -/
structure OutFmt where
  code : Nat
  blen : Nat
  blk : Nat
  seed : Nat
  sat : Bool
  deriving DecidableEq, Repr

def outFmtReg (h : Handed) : OutFmt :=
  let r := cFmtReg h
  { code := r % 32, blen := bits r 7 5, blk := bits r 9 8, seed := r / 2 ^ 32, sat := bits r 10 10 == 1 }
def outFmtTile (h : Handed) (t : Tile) : OutFmt :=
  { code := t.fmt, blen := t.blen, blk := tagBlk t.tag, seed := tagSeed t.tag, sat := (outFmtReg h).sat }
def toTile (h : Handed) : Bool := bits (cFmtReg h) 11 11 == 1
/-- The format in force: the tile's, with the saturation of MOFMT, or that of MOFMT (R185). -/
def outFmtOf (s : State) (p : Nat) (h : Handed) : OutFmt :=
  if toTile h then
    match tileAt s p (handleIx (cTile h)) with
    | some t => outFmtTile h t
    | none => outFmtReg h
  else outFmtReg h

/-- The first two rows of R185. -/
def outFmtChecks (s : State) (h : Handed) (f : OutFmt) : Run Unit :=
  let ok := if mxInt h then isIntFmt f.code else isWide f.code || isNarrow f.code
  if !ok || !fmtOk f.code f.blen then galleyTrap s (galA h) 10
  else if !mxInt h && isNarrow f.code && f.blk != 1 then trap s 0x0A (w64 (tagOf f.blk 0 f.seed))
  else .ok ()

/-- The rows of a store-out to memory: the checks of R185 row by row, then the pages. The writes of each row. -/
def outRows (s : State) (h : Handed) (f : OutFmt) : Run (State × List (List MemEv)) := do
  let p := h.sa
  let rows ← (List.range 32).mapM fun (i : Nat) =>
    let off := (ptrOff p : Int) + cDisp h + (i : Int) * cStride h
    fmtTargets s (cSeg h) p off f.code f.blen 32 rW [(off, 32 * elemWidth f.code / 8)] (.ok ())
  let (s1, _) ← vecPlaces s rW 0 rows.flatten
  let evs ← rows.mapM fun r => do
    let (_, pls) ← vecPlaces s1 rW 0 r
    return (chunked pls).map fun pl => placeEv (myKey s1) pl .write [] .relaxed .thread (pathOf s1 (myKey s1) pl.ty pl.node)
  return (s1, evs)

/-- The rows of a store-out to a tile: handle, write tenure, segment, rows inside the footprint, pages, key domain. The footprint offsets
of each row. DESIGN CHOICE (log entry 85): a row that leaves the tile's footprint, which R185 lists under no cause, traps with 0x03. -/
def outTileRows (s : State) (h : Handed) : Run (State × List (List Nat)) := do
  let hd := cTile h
  let (p, _, t) ← needTile s hd
  let _ ← needWriteTenure s hd
  outFmtChecks s h (outFmtTile h t)
  let g := segOf s s.cur (cSeg h)
  let w := elemWidth t.fmt
  let size := 32 * w / 8
  let bl := if isMx t.fmt then blockLen t.blen else 1
  let offs := (List.range 32).map fun (i : Nat) => (ptrOff h.sa : Int) + cDisp h + (i : Int) * cStride h
  if !ptrOk h.sa then trap s 0x05 h.sa
  if (g.kind ≠ 1 ∧ g.kind ≠ 4) ∨ g.isVoid ∨ !hasRights (effRights s (cSeg h) g) (rT + rW) then
    trap s 0x04 (ofInt (offs.getD 0 0))
  trapFirst s offs (fun o => decide (o < 0) || decide ((g.limit : Int) < o + size - 1) ||
      decide ((g.base : Int) + o < t.base) || decide ((t.base + t.ext : Int) < g.base + o + size)) 0x03 ofInt
  let inTile := offs.map fun o => (g.base + o.toNat) - t.base
  trapFirst s inTile (fun o => o * 8 % (w * bl) != 0) 0x06 (fun o => w64 (t.base + o))
  let rows := inTile.map fun o => tileOffsets t o size 32
  let s1 ← tilePages s p t rW rows.flatten
  if !shadowOpens s1 t rows.flatten then trapFree s1 0x16
  return (s1, rows)

/-- The checks of a store-out; the writes, and the footprint offsets of a tile's rows. -/
def outChecks (s : State) (h : Handed) : Run (State × List (List MemEv) × List (List Nat)) := do
  if !mxOut h then return (s, [], [])
  if toTile h then
    let (s1, offs) ← outTileRows s h
    return (s1, [], offs)
  else
    outFmtChecks s h (outFmtReg h)
    let (s1, evs) ← outRows s h (outFmtReg h)
    return (s1, evs, [])

/-! ### Start -/

/-- The operands of a matrix instruction, from the head entries. -/
def operandsOf (s : State) (core : Nat) (h : Handed) (a b : Galley) : List (List Elem) × List (List Elem) :=
  let ba := entryBytes s core a a.head
  let bb := entryBytes s core b b.head
  ((List.range 32).map fun v => entryVector a ba (cK h) v (mxInt h), (List.range 32).map fun v => entryVector b bb (cK h) v (mxInt h))

/-- The state in which the checks of a start are made: the instruction's slot is the executor, has left its park and stands at the
instruction, and the entry has left the sequencer. A trap there is precise at the instruction (R92). -/
def unstarted (s : State) (k : Nat) (h : Handed) : State :=
  let s1 := dropMatrix { s with cur := .slot k } k
  readyOf (modSlot s1 k fun x => { x with sc := { x.sc with pc := h.pc }, vec := { x.vec with seq := x.vec.seq.drop 1 } }) (.slot k)

/-- The sequencer, the PC and the park of a slot as they were. -/
def putBack (s : State) (k : Nat) (x : SlotSt) : State :=
  modSlot s k fun y => { y with state := x.state, park := x.park, rdy := x.rdy, vec := x.vec, sc := { y.sc with pc := x.sc.pc } }

/-- A park of a matrix instruction shows what it waits for (R29, R184). DEDUCED (log entry 79): while a galley is empty that is reason 7 as
R178 and R179 say, although R180 counts that time in reason 2. -/
def showReason (s : State) (k : Nat) (r : ParkReason) : State :=
  match (slotAt s k).park with
  | some { cont := .matrix, .. } => parkOf s (.slot k) r false .matrix
  | some { cont := .matrixAgain, .. } => parkOf s (.slot k) r false .matrixAgain
  | _ => s

/-- The park of a matrix instruction ends: it retires, if it had not retired before. -/
def endMatrixPark (s : State) (k : Nat) : State :=
  match (slotAt s k).park with
  | some { cont := .matrix, .. } => completeOf s (.slot k)
  | some { cont := .matrixAgain, .. } => readyOf s (.slot k)
  | _ => s

/-- The checks of a start, in the order of R179; none while a galley is empty. -/
def startRun (s : State) (k : Nat) (h : Handed) : Run (Option (State × MatrixRun)) := do
  let (a, b, kc) ← startChecks s h
  match a.tags, b.tags with
  | ta :: _, tb :: _ =>
    tagChecks s h ta tb
    let (s1, evs, offs) ← outChecks s h
    let core := myCore s
    let clocks := if mxSparse h then (let o := operandsOf s core h a b; sparseClocks kc o.1 o.2) else cK h / kc
    return some (s1, { slot := k, run := h, pushWest := isMmr h.instr, pushNorth := isMmr h.instr, productDone := false,
                       due := s.cycle + clocks + (if mxOut h then 32 else 0), outs := evs.map fun l => l.map (tagged s),
                       tile := if mxOut h && toTile h then some (cTile h) else none, offs := offs, flags := 0 })
  | _, _ => return none

/-- The instruction at the head of a slot's sequencer. -/
def headOf (s : State) (k : Nat) : Option (SeqEntry × Handed) :=
  match (slotAt s k).vec.seq with
  | e :: _ => (e.body[e.at_]?).map fun h => (e, h)
  | [] => none

/-- MATRIX_START: the matrix engine takes the next released instruction, once the clock of its release is over, and its head entries
(R180). -/
def execMatrixStart (core : Nat) (s : State) : Out :=
  let c := coreAt s core
  match c.matrixRun, c.matrixQueue with
  | none, (released, k) :: _ =>
    if s.cycle ≤ released then .next s else
    (match headOf s k with
    | some (_, h) =>
      match startRun (unstarted s k h) k h with
      | .error t => .next t
      | .ok none => .next (showReason s k .galley)
      | .ok (some (s1, r)) =>
        let s2 := dropMatrix (putBack { s1 with cur := s.cur } k (slotAt s k)) k
        .next (showReason (modCore s2 core fun c => { c with matrixRun := some r }) k .matrix)
    | none => .next (dropMatrix s k))
  | _, _ => .next s

/-! ### Completion -/

/-- A row of the accumulator in the store-out format: element codes, scale bytes, flags (R185). -/
def outRow (h : Handed) (f : OutFmt) (row : List Nat) : List Byte × FFlags :=
  let w := elemWidth f.code
  if mxInt h then
    let rs := row.map fun x => satInt f.code (sx x 32)
    (lanesBytes w (rs.map (·.1)), rs.foldl (fun g r => g ||| r.2) 0)
  else if isWide f.code then
    let rs := row.map fun x => roundWide (wideFmt f.code) (cRm h) (decodeF fp32 x)
    (lanesBytes w (rs.map (·.1)), rs.foldl (fun g r => g ||| r.2) 0)
  else
    let r := narrowRun f.code (blockLen f.blen) f.sat (BitVec.ofNat 32 f.seed) (rotLen f.blk) (row.map (decodeF fp32))
    (lanesBytes w r.codes ++ r.scales.map (BitVec.ofNat 8), r.flags)

/-- Accept into the slot's program order the writes of one row. -/
def pushRow (s : State) (evs : List MemEv) (bs : List Byte) : State :=
  (evs.foldl (fun (acc : State × List Byte) e =>
    (pushEv acc.1 { e with data := acc.2.take e.addrs.length }, acc.2.drop e.addrs.length)) (s, bs)).1

/-- The writes of a row of a tile's shadow, whose pages it takes (R268). -/
def tileRow (s : State) (k p i : Nat) (offs : List Nat) (bs : List Byte) : State :=
  let launch := launchOfSlot s k
  let s1 := takeShadow s p i launch offs
  match tileAt s1 p i with
  | none => s1
  | some t =>
    let evs := (chunked (bytePlaces (offs.map (shadowFlat t launch)) (some t.kdom))).map fun pl =>
      placeEv k pl .write [] .relaxed .thread (pathOf s1 k pl.ty pl.node)
    pushRow s1 evs bs

/-- A store-out to a tile waits for a frame slot and pool pages (R269). -/
def outRoom (s : State) (p : Nat) (r : MatrixRun) : Bool :=
  match r.tile with
  | none => true
  | some hd => match tileAt s p (handleIx hd) with
    | some t => shadowRoom s p t r.offs.flatten
    | none => true

/-- Write the rows of a store-out. -/
def writeOut (s : State) (p : Nat) (r : MatrixRun) (rows : List (List Byte)) : State :=
  match r.tile with
  | none => (r.outs.zip rows).foldl (fun s x => pushRow s x.1 x.2) s
  | some hd => (r.offs.zip rows).foldl (fun s x => tileRow s r.slot p (handleIx hd) x.1 x.2) s

/-- The end of a matrix instruction: its entries are popped, the engine is free, its flags are raised, the entry leaves the sequencer,
and the slot continues (R74, R178, R184). -/
def finishMatrix (s : State) (core : Nat) (r : MatrixRun) : State :=
  let s1 := popEntry (popEntry s core (galA r.run)) core (galB r.run)
  let s2 := raiseFlags (modCore s1 core fun c => { c with matrixRun := none }) r.slot r.flags
  let s3 := match (slotAt s2 r.slot).vec.seq with
    | e :: rest => advanceEntry s2 r.slot e rest
    | [] => s2
  endMatrixPark s3 r.slot

/-- A product that would raise an enabled flag: nothing is written or popped, and the exception is deferred (R74, R179). -/
def deferMatrix (s : State) (core : Nat) (r : MatrixRun) (f : FFlags) : State :=
  let s1 := modCore s core fun c => { c with matrixRun := none }
  freeze (endMatrixPark s1 r.slot) r.slot (0x08 + f.toNat * 512) r.run.pc

/-- A neighbour of an MMR has no room for the push that is still to be made. -/
def neighbourFull (s : State) (core : Nat) (r : MatrixRun) : Bool :=
  let full := fun (g : Option Galley) => match g with | some x => decide (x.count ≤ x.tags.length) | none => false
  (r.pushWest && full (galleyAt s (westOf core) (galW r.run))) || (r.pushNorth && full (galleyAt s (northOf core) (galN r.run)))

/-- The rows of C of a run, with its flags. -/
def runProduct (s : State) (core : Nat) (r : MatrixRun) (a b : Galley) : List (List Nat) × FFlags :=
  let o := operandsOf s core r.run a b
  let bank := bankOfSlot s r.slot
  let c := (List.range 32).map fun i => laneList 32 (bankReg bank (32 * mxTile r.run + i))
  product (mxInt r.run) ((pairKc a.fmt b.fmt (mxInt r.run)).getD 4) o.1 o.2 c

/-- The product is written: the rows of the tile, and the store-out; its flags are raised when the instruction completes (R74). -/
def commitProduct (s : State) (core p : Nat) (r : MatrixRun) (rows : List (List Nat)) (outs : List (List Byte))
    (f : FFlags) : State :=
  let s1 := modBankOf s r.slot fun b =>
    (rows.mapIdx fun i row => (i, row)).foldl (fun b x => setBankReg b (32 * mxTile r.run + x.1) (packLanes 32 x.2)) b
  let s2 := writeOut s1 p r outs
  if isMmr r.run.instr then
    let r1 := { r with productDone := true, flags := f }
    let s3 := modCore s2 core fun c => { c with matrixRun := some r1 }
    if neighbourFull s3 core r1 then showReason s3 r.slot .galley else s3
  else finishMatrix s2 core { r with flags := f }

/-- MATRIX_COMPLETE: the product of the core's matrix instruction is written (R178). -/
def execMatrixComplete (core : Nat) (s : State) : Out :=
  match (coreAt s core).matrixRun with
  | none => .next s
  | some r =>
    let p := (partOfCore s core).getD 64
    if r.productDone || s.cycle < r.due || !outRoom s p r then .next s else
    match galleyAt s core (galA r.run), galleyAt s core (galB r.run) with
    | some a, some b =>
      let c := runProduct s core r a b
      let outs := if mxOut r.run then c.1.map (outRow r.run (outFmtOf s p r.run)) else []
      let f := outs.foldl (fun f o => f ||| o.2) c.2
      if f &&& enabledFlags s r.slot ≠ 0 then .next (deferMatrix s core r f)
      else .next (commitProduct s core p r c.1 (outs.map (·.1)) f)
    | _, _ => .next (finishMatrix s core r)

/-- MMR_NEIGHBOUR_PUSH: an operand entry is pushed to the west or the north neighbour (R184). -/
def execMmrNeighbourPush (core : Nat) (north : Bool) (s : State) : Out :=
  match (coreAt s core).matrixRun with
  | none => .next s
  | some r =>
    let own := if north then galB r.run else galA r.run
    let dest := if north then northOf core else westOf core
    let n := if north then galN r.run else galW r.run
    if !r.productDone || !(if north then r.pushNorth else r.pushWest) then .next s else
    let r1 := if north then { r with pushNorth := false } else { r with pushWest := false }
    let done := fun (t : State) =>
      let t1 := modCore t core fun c => { c with matrixRun := some r1 }
      if r1.pushNorth || r1.pushWest then showReason t1 r.slot (if neighbourFull t1 core r1 then .galley else .matrix)
      else finishMatrix t1 core r1
    match galleyAt s core own, galleyAt s dest n with
    | some g, some x =>
      let rank := if north then southRank else eastRank
      if x.count ≤ x.tags.length then .next (showReason s r.slot .galley)
      else if !pushOpen s x rank then .next s
      else .next (done (pushEntry s dest n x (entryBytes s core g g.head) (g.tags.headD 0) rank))
    | _, _ => .next (done s)

end Sys2Proof.Machine
end

