-- ==== Sys2Proof/Machine/Task.lean ====
section
/-! DEFINITION. Tasks, gangs, counters, messages and virtual time (R211 to R217, R275 to R289): the task commands, the start
of tasks, and the events of deques, gangs, inboxes and the gvt tree. -/

namespace Sys2Proof.Machine

/-! ### Starting a task -/

/-- What a task starts with (R20, R212, R232, R276). -/
structure Start where
  world : Nat
  launch : Nat
  taskid : Nat
  tile : Vector (BitVec 16) 3
  entry : Nat
  arg : Nat
  counter : Option Nat
  stamp : Nat
  gang : Nat
  gangSize : Nat
  gangIndex : Nat
  deriving DecidableEq, Repr

/-- The segment registers of a task (R20, R232). -/
def startSegs (l : Option Launch) (base len : Nat) : Vector Seg 8 :=
  let img := fun (a n r : Nat) => if n = 0 then Seg.void else Seg.mk2 1 a (n - 1) r
  let win := fun (r : Nat) => if len = 0 then Seg.void else Seg.mk2 2 base (len - 1) r
  let req := fun (i : Nat) => match l with | some x => (x.requests.getD i none).getD Seg.void | none => Seg.void
  #v[match l with | some x => img x.code x.codeLen (rR + rX) | none => Seg.void,
     match l with | some x => img x.data x.dataLen (rR + rW + rA + rT) | none => Seg.void,
     win (rR + rW), win (rR + rW + rA), req 0, req 1, req 2, Seg.void]

/-- A launch that starts on a core for the first time invalidates the core's L1I (R242). -/
def noteStart (s : State) (launch core : Nat) : State :=
  match launchAt s core launch with
  | some l =>
    if l.cores.contains core then s
    else modLaunch (modCore s core fun c => { c with l1i := [] }) launch fun x => { x with cores := core :: x.cores }
  | none => modCore s core fun c => { c with l1i := [] }

/-- Start a task on an Empty slot (R212, R232). -/
def startTask (s : State) (k : Nat) (t : Start) : State :=
  let l := launchAt s (coreOfSlot k) t.launch
  let s1 := raiseVtime (noteStart s t.launch (coreOfSlot k)) (coreOfSlot k) (w64 t.stamp)
  modSlot s1 k fun x0 =>
    let x := SlotSt.emptied x0
    let regs : Regs 32 := Vector.ofFn fun i : Fin 32 =>
      if i.val = 2 then w64 (winLen x) else if i.val = 3 then w64 t.arg else 0
    let task : TaskSt :=
      { launch := t.launch, taskid := w64 t.taskid, tile := t.tile,
        mbx := match l with | some y => y.mbx | none => Vector.replicate 8 0,
        gang := t.gang, gangSize := t.gangSize, gangIndex := t.gangIndex, counter := t.counter, world := t.world,
        epoch := (worldOf s t.world).epoch, arrived := false }
    { x with state := .ready, rdy := s.cycle, world := t.world, task := task,
             sc := { x.sc with pc := w64 t.entry, s := regs, g := startSegs l (winBase x) (winLen x) } }

/-! ### Reservations and gangs (R277, R278, R328) -/

/-- User slots of the cluster's cores that may take a task: Empty, in service, with no kill record waiting (R278, R314). -/
def usableSlot (s : State) (k : Nat) : Bool :=
  slotNo k != 15 && (slotAt s k).state == .empty && !(coreAt s (coreOfSlot k)).outOfService &&
  !(clusterAt s (clusterOfSlot k)).outOfService && !((coreAt s (coreOfSlot k)).waitingRecs.any fun w => w.slot == k)

/-- The slots of a cluster in the order in which Empty ones join a reservation: by slot, then by core (R11, R278, log
entry 11). -/
def joinOrder (cl : Nat) : List Nat :=
  (List.range 15).flatMap fun i => (List.range 16).map fun c => slotKey (cl * 16 + c) i

/-- Whether the launch of a reservation asks for pairs (R277). -/
def isPaired (s : State) (launch : Nat) : Bool := match launchOf s launch with | some l => bits l.flags 1 1 == 1 | none => false

/-- The slots of a reservation that its gang can take: for a paired launch, those that stand in pairs (R277). -/
def gangSlotsOf (paired : Bool) (l : List Nat) : List Nat :=
  if paired then l.filter fun k => decide (slotNo k < 14) && l.contains (partnerOf k) else l

/-- Empty slots join one after another until n can be taken. DEDUCED (log entry 71): for a paired launch, until n stand in pairs. -/
def joinUntil (paired : Bool) (n : Nat) : List Nat → List Nat → List Nat
  | l, [] => l
  | l, k :: rest => if n ≤ (gangSlotsOf paired l).length then l else joinUntil paired n (l ++ [k]) rest

/-- Every user slot that is Empty joins the reservation of its cluster until it holds T slots (R278). A slot that is no longer usable
has left it. -/
def joinSlots (s : State) (cl : Nat) : State :=
  match (clusterAt s cl).reservation with
  | none => s
  | some r =>
    let held := r.slots.filter (usableSlot s)
    let free := (joinOrder cl).filter fun k => usableSlot s k && !held.contains k
    modCluster s cl fun c => { c with reservation := some { r with slots := joinUntil (isPaired s r.launch) r.size held free } }

/-- A reserved slot starts no deque record, no steal and no SLOTGO. -/
def isReserved (s : State) (k : Nat) : Bool :=
  match (clusterAt s (clusterOfSlot k)).reservation with
  | some r => r.slots.contains k
  | none => false

/-- Tasks of a gang. -/
def gangTasks (l : Launch) : Nat := l.gang[0] * l.gang[1] * l.gang[2]
def gangCount (l : Launch) : Nat := l.grid[0] * l.grid[1] * l.grid[2]

/-- User slots in service of a cluster (R278). -/
def slotsInService (s : State) (cl : Nat) : Nat :=
  if (clusterAt s cl).outOfService then 0
  else 15 * ((List.range 16).filter fun c => !(coreAt s (cl * 16 + c)).outOfService).length

/-- The launch whose gang is placed next: highest PRIO, then the earliest accepted (R328). -/
def better (a b : Launch) : Bool := decide (b.prio < a.prio) || (a.prio == b.prio && decide (a.id ≤ b.id))
def bestLaunch : List Launch → Option Launch
  | [] => none
  | a :: rest => match bestLaunch rest with
    | some b => if better a b then some a else some b
    | none => some a

/-- The launch whose gang is placed next. A launch that has faulted goes on placing its gangs (R329). -/
def placeable (s : State) (p : Nat) : Option Launch :=
  bestLaunch (s.launches.filter fun l => l.part == p && l.phase == 1 && (l.status == 0 || l.status == 1) && l.reason == 0 &&
    (decide (l.nextGang < gangCount l) || !l.again.isEmpty) && !sessionHeld s l.world)
/-- The gang of a launch that is placed next, and the launch with that gang taken: one whose reservation was given up comes first. -/
def nextGangOf (l : Launch) : Nat := l.again.headD l.nextGang
def takeGang (l : Launch) : Launch :=
  if l.again.isEmpty then { l with nextGang := l.nextGang + 1 } else { l with again := l.again.drop 1 }

/-- GANG_PLACE: the scheduler reserves the lowest-numbered cluster that holds no reservation, of those that can hold the gang
(R278, R328). -/
def execGangPlace (part : Nat) (s : State) : Out :=
  match placeable s part, partAt s part with
  | some l, some x =>
    let t := gangTasks l
    match (x.clusters.filter fun c => (clusterAt s c).reservation.isNone && decide (t ≤ slotsInService s c)).min? with
    | some cl =>
      let s1 := modCluster s cl fun c => { c with reservation := some { launch := l.id, gang := nextGangOf l, size := t, slots := [] } }
      .next (joinSlots (modLaunch s1 l.id takeGang) cl)
    | none => .next s
  | _, _ => .next s

/-- Slots for n tasks: cores in ascending order, round-robin, the lowest reserved slot of each core (R277). -/
def assignSlots : Nat → List Nat → Nat → List Nat
  | 0, _, _ => []
  | n + 1, l, core =>
    match ((l.filter fun k => decide (core ≤ coreOfSlot k)).min?).or l.min? with
    | some k => k :: assignSlots n (l.filter fun j => !(j == k)) (coreOfSlot k + 1)
    | none => []

/-- The slots of the tasks of a gang in taskid order; a paired launch takes them pair by pair. -/
def gangPlaces (paired : Bool) (n : Nat) (l : List Nat) : List Nat :=
  if paired then (assignSlots (n / 2) (l.filter fun k => k % 2 == 0) 0).flatMap fun k => [k, k + 1]
  else assignSlots n l 0

/-- What task t of gang g starts with (R276). -/
def gangStart (l : Launch) (g t : Nat) : Start :=
  let n := gangTasks l
  let x := l.gang[0]
  let y := l.gang[1]
  let pos := #v[g % l.grid[0], g / l.grid[0] % l.grid[1], g / (l.grid[0] * l.grid[1])]
  let at_ := #v[t % x, t / x % y, t / (x * y)]
  { world := l.world, launch := l.id, taskid := g * n + t,
    tile := Vector.ofFn fun i : Fin 3 => BitVec.ofNat 16 (pos[i] * l.gang[i] + at_[i]),
    entry := l.entry, arg := 0, counter := none, stamp := l.stamp, gang := g, gangSize := n, gangIndex := t }

/-- GANG_START: the reservation holds T slots; every task of the gang becomes Ready in this clock (R277). -/
def execGangStart (cluster : Nat) (s : State) : Out :=
  let s0 := joinSlots s cluster
  match (clusterAt s0 cluster).reservation with
  | none => .next s
  | some r =>
    let held := gangSlotsOf (isPaired s0 r.launch) r.slots
    if held.length < r.size then .next s0
    else match launchOf s0 r.launch with
    | none => .next (modCluster s0 cluster fun c => { c with reservation := none })
    | some l =>
      let ks := gangPlaces (isPaired s0 l.id) r.size held
      let s1 := modCluster s0 cluster fun c => { c with reservation := none }
      .next ((ks.mapIdx fun t k => (t, k)).foldl (fun u q => startTask u q.2 (gangStart l r.gang q.1)) s1)

/-! ### Deques and steals (R280 to R283) -/

/-- What a task record starts with: the next start order of its launch, and a time no lower than the launch's (R276, R281, R331). -/
def recordStart (s : State) (k : Nat) (r : TaskRec) (world : Nat) : Start :=
  let (n, stamp) := match launchAt s (coreOfSlot k) r.launch with | some l => (l.started, l.stamp) | none => (0, 0)
  { world := world, launch := r.launch, taskid := 2 ^ 63 + n % 2 ^ 32, tile := r.tile, entry := r.entry, arg := r.arg,
    counter := if r.flags % 2 = 1 then some (r.counter % 2 ^ 31) else none, stamp := max r.stamp stamp, gang := 0, gangSize := 0,
    gangIndex := 0 }

/-- Start a record on a slot. -/
def startRecord (s : State) (k : Nat) (r : TaskRec) (world : Nat) : State :=
  modLaunch (startTask s k (recordStart s k r world)) r.launch fun l =>
    if partOfSlot s k = some l.part then { l with started := l.started + 1 } else l

/-- The lowest slot of a core that may start a record. -/
def freeSlotOf (s : State) (core : Nat) : Option Nat :=
  ((List.range 15).map (slotKey core)).find? fun k => usableSlot s k && !isReserved s k

def launchWorld (s : State) (r : TaskRec) : Nat := match launchOf s r.launch with | some l => l.world | none => 0

/-- DEQUE_START: the owner starts the bottom record on the lowest Empty slot, one in a clock; that comes before the pushes of the clock
(R281, R283). Ended records that have reached an end go. -/
def execDequeStart (core : Nat) (s : State) : Out :=
  let c := coreAt s core
  let l := liveDeque s core
  let trimmed := if l.length = c.deque.length then s else spillDeque (modCore s core fun c => { c with deque := l }) core
  if c.dequeClock = some s.cycle then .next trimmed else
  let n := match c.pushClock with | some (d, n) => if d = s.cycle then min n l.length else 0 | none => 0
  let older := (l.drop n).dropWhile (recordDead s)
  match older, freeSlotOf s core with
  | r :: rest, some k =>
    let s1 := spillDeque (modCore s core fun c => { c with deque := l.take n ++ rest, dequeClock := some s.cycle }) core
    .next (startRecord s1 k r (launchWorld s r))
  | _, _ => .next trimmed

/-- A TSPAWN that waits for the overflow list goes on when a record leaves it (R213). -/
def wakeSpawns (s : State) (p : Nat) : State :=
  (s.slots.filter fun e => partOfSlot s e.1 == some p && (match e.2.park with
    | some { cont := .spawn, .. } => true
    | _ => false)).foldl (fun t e => resumeOf t e.1) s

/-- The oldest live record of a partition's overflow list; ended ones before it are discarded. -/
def takeOverflow (s : State) (p : Nat) : State × Option TaskRec :=
  match partAt s p with
  | none => (s, none)
  | some x =>
    let l := x.overflow.dropWhile (recordDead s)
    if x.overflow.isEmpty then (s, none)
    else (wakeSpawns (modPart s p fun y => { y with overflow := l.drop 1 }) p, l.head?)

/-- The top record of a victim's deque; ended ones above it are discarded. -/
def takeTop (s : State) (core : Nat) : State × Option TaskRec :=
  let l := liveDeque s core
  if (coreAt s core).deque.isEmpty then (s, none)
  else (spillDeque (modCore s core fun c => { c with deque := l.dropLast }) core, l.getLast?)

def rotate {α : Type} (l : List α) (n : Nat) : List α := l.drop (n % max l.length 1) ++ l.take (n % max l.length 1)

/-- The victims of sweep n of a core, each with the clocks of its visit; none stands for the overflow list (R282). -/
def victims (s : State) (core n : Nat) : List (Option Nat × Nat) :=
  match partOfCore s core with
  | none => []
  | some p =>
    let all := (((partAt s p).map (·.clusters)).getD []).mergeSort.flatMap fun c => (List.range 16).map (c * 16 + ·)
    let die := dieOfCluster (clusterOfCore core)
    let near := (all.filter fun c => dieOfCluster (clusterOfCore c) == die && c != core)
    let far := all.filter fun c => dieOfCluster (clusterOfCore c) != die
    (rotate [westOf core, northOf core, eastOf core, southOf core] n).map (fun c => (some c, 8)) ++
    (rotate near n).map (fun c => (some c, 16)) ++ [(none, 16)] ++ (rotate far n).map fun c => (some c, 32)

/-- A core sweeps while its deque is empty and it has an Empty slot that is not reserved (R282). -/
def sweeps (s : State) (core : Nat) : Bool :=
  !isGateway core && (partOfCore s core).isSome && (coreAt s core).deque.isEmpty && (freeSlotOf s core).isSome

/-- Begin the visit of victim i of the sweep, or the next sweep at once when there is none. -/
def visitAt (s : State) (core i : Nat) : State :=
  let n := (coreAt s core).sweepStart
  match (victims s core n)[i]? with
  | some v => modCore s core fun c => { c with sweepAt := i, sweepDue := some (s.cycle + v.2) }
  | none => modCore s core fun c =>
      { c with sweepStart := n + 1, sweepAt := 0, sweepDue := (victims s core (n + 1)).head?.map fun v => s.cycle + v.2 }

/-- STEAL_VISIT: a sweep begins, or its visit is made: the victim's top record starts on the sweeping core (R282, R283). -/
def execStealVisit (core : Nat) (s : State) : Out :=
  let c := coreAt s core
  match c.sweepDue with
  | none => .next (if sweeps s core then visitAt s core 0 else s)
  | some due =>
    if !sweeps s core then
      .next (modCore s core fun c => { c with sweepStart := c.sweepStart + 1, sweepAt := 0, sweepDue := none })
    else if s.cycle < due ∨ c.dequeClock = some s.cycle then .next s
    else
      let v := ((victims s core c.sweepStart)[c.sweepAt]?).map (·.1)
      let (s1, r) := match v with
        | some (some w) => takeTop s w
        | some none => takeOverflow s ((partOfCore s core).getD 64)
        | none => (s, none)
      match r, freeSlotOf s core with
      | some r, some k =>
        let s2 := startRecord s1 k r (launchWorld s r)
        .next (countCore (modCore s2 core fun c =>
          { c with sweepStart := c.sweepStart + 1, sweepAt := 0, sweepDue := none, dequeClock := some s.cycle }) core 7 none 1)
      | _, _ => .next (visitAt (countCore s1 core 8 none 1) core (c.sweepAt + 1))

/-! ### Task commands -/

/-- Slot 15 runs no task: TSPAWN, TEXIT and CNTSET trap there (R213). -/
def needTask (s : State) : Run Unit := do
  needSlot s
  if slotNo (myKey s) = 15 then illegal s else pure ()

def parseRecord (bs : List Byte) : TaskRec :=
  { entry := recField bs 0 4, launch := recField bs 4 4,
    tile := Vector.ofFn fun i : Fin 3 => BitVec.ofNat 16 (recField bs (8 + 2 * i.val) 2),
    flags := recField bs 14 2, arg := recField bs 16 4, counter := recField bs 20 4, stamp := recField bs 24 8 }

def myVtime (s : State) : Nat := (coreAt s (myCore s)).vtime.toNat

def execTspawn (g : BitVec 3) (a b : BitVec 5) (s : State) : Out :=
  Run.out do
    needTask s
    let (s1, bs) ← readRange s g (rd s a) (engineDisp b) 32 32 0
    let r := parseRecord bs
    if r.entry % 4 ≠ 0 then trap s1 0x06 (w64 r.entry)
    if !pushRoom s1 (myCore s1) then park s1 .memory false .spawn
    let stamp := max r.stamp (max (myVtime s1) (floorOf s1 (myPart s1)))
    return retire (pushRecord s1 (myCore s1) { r with launch := (me s1).task.launch, stamp := stamp })

/-- The end of a task by TEXIT on one slot: its completion message, then R201 and R50 (R216). -/
def exitSlot (s : State) (k : Nat) : State :=
  let s1 := match (slotAt s k).task.counter with | some n => sendMessage s k n [] false | none => s
  endTask s1 k false

def execTexit (s : State) : Out :=
  Run.out do
    needTask s
    if !(me s).frames.isEmpty ∨ tl s ≠ 0 then illegal s
    let k := myKey s
    if (me s).ganged then return exitSlot (exitSlot s k) (partnerOf k)
    return exitSlot s k

/-- The payload registers s3 to s(3 + n - 1). -/
def payloadRegs (s : State) (n : Nat) : List Word := (List.range n).map fun i => rd s (BitVec.ofNat 5 (3 + i))

def execMsend (ack : BitVec 1) (a b : BitVec 5) (s : State) : Out :=
  Run.out do
    needSlot s
    let n := (rd s b).toNat % 16
    let name := (rd s a).toNat
    if 8 < n then illegal s
    if name / 2 ^ 63 = 1 ∧ (bits name 62 38 ≠ 0 ∨ bits name 31 31 ≠ 0) then illegal s
    let s1 := sendMessage s (myKey s) name (payloadRegs s n) (ack == 1)
    if ack = 1 then park s1 .memory false (.ack a s.nextId)
    return retire s1

/-- CNTSET. DESIGN CHOICE (log entry 48): a gateway core is in no cluster and has no counter table; none is ever free there. -/
def execCntset (a b : BitVec 5) (s : State) : Out :=
  Run.out do
    needTask s
    let n := (rd s a).toNat
    if n = 0 ∨ 2 ^ 24 ≤ n then illegal s
    let cl := myCluster s
    let ix := freeCounterIx (clusterAt s cl)
    if isGateway (myCore s) ∨ 4096 ≤ ix then return returns s a 0
    let gen := counterGen (clusterAt s cl) ix
    let t := (me s).task
    let r : TaskRec := { entry := (rd s b).toNat % 2 ^ 32, launch := t.launch, tile := t.tile, flags := 0, arg := 0, counter := 0,
                         stamp := 0 }
    let c : Counter := { gen := gen, live := true, count := n, record := r, ownerCore := myCore s, world := myWorld s,
                         part := (myPart s).getD 64, launch := t.launch, greatest := 0 }
    let s1 := modCluster s cl fun x => { x with counters := insert x.counters ix c }
    return returns s1 a (counterName cl gen ix)

def execCntget (a b : BitVec 5) (s : State) : Out :=
  Run.out do
    needSlot s
    match counterAt s ((myPart s).getD 64) (rd s b).toNat with
    | some c => return returns s a c.count
    | none => return returns s a (2 ^ 63)

/-- A record entry of a slot has been popped: a waiting kill record takes it, or a TL2 entry goes on (R314). -/
def recordFreed (s : State) (k : Nat) : State :=
  let core := coreOfSlot k
  match (coreAt s core).waitingRecs.find? fun w => w.slot == k with
  | some w => postRecord (modCore s core fun c => { c with waitingRecs := c.waitingRecs.erase w }) k w.entry
  | none => match (slotAt s k).park with
    | some { cont := .tl2 cw p v, .. } => if heldNow s (slotAt s k) then s else tl2Entry s k cw v p
    | _ => s

/-- The oldest FIFO entry of a core moves into its hardware inbox when that has room (R239). -/
def returnFifo (l : List Delivered) : List Delivered :=
  match l with
  | [] => []
  | d :: rest => if d.fifo.isSome then { d with fifo := none } :: rest else d :: returnFifo rest
def refillInbox (s : State) (core : Nat) : State :=
  if hardUsed (coreAt s core) < 32 then modCore s core fun c => { c with delivered := returnFifo c.delivered } else s

/-- The entries of the inbox queue that CNTGET.in of the executor may take. -/
def takesEntry (s : State) (d : Delivered) : Bool :=
  d.world == myWorld s && (slotNo (myKey s) == 15 || (d.recordOf.isNone && !d.posted))

/-- Write a payload into s3 and the registers after it. -/
def setPayload (s : State) (l : List Word) : State :=
  (l.mapIdx fun i v => (i, v)).foldl (fun t q => wr t (BitVec.ofNat 5 (3 + q.1)) q.2) s

def execCntgetIn (a : BitVec 5) (s : State) : Out :=
  Run.out do
    needSlot s
    let core := myCore s
    match (coreAt s core).delivered.find? (takesEntry s) with
    | none => return returns s a (2 ^ 63)
    | some d =>
      let s1 := modCore s core fun c => { c with delivered := c.delivered.erase d }
      let s2 := retire (setPayload (wr s1 a d.header) d.payload)
      match d.recordOf with
      | some k => return recordFreed s2 k
      | none => return arrive (refillInbox s2 core)

def execBarr (s : State) : Out :=
  Run.out do
    needSlot s
    let t := (me s).task
    if t.gangSize = 0 then trapFree s 0x17
    let k := myKey s
    let s1 := parkOf (modMe s fun x => { x with task := { x.task with arrived := true } }) s.cur .barrier false .barrier
    return barrierTry s1 t.launch (slotAt s k).task.gang

/-! ### Inboxes (R285) -/

def execInboxDeliver (core : Nat) (s : State) : Out :=
  match nextMessage s core with
  | some (m, _) => if m.stamp ≤ gvtOf s (some m.part) then .next (deliver s core m) else .next s
  | none => .next s

def execInboxHoldExpiry (core : Nat) (s : State) : Out :=
  match nextMessage s core with
  | some (m, held) => if held then .next (deliver s core m) else .next s
  | none => .next s

/-! ### Virtual time (R288) -/

/-- The user slots of a core that are not Empty. -/
def busyCore (s : State) (core : Nat) : Bool := s.slots.any fun e => coreOfSlot e.1 == core && slotNo e.1 != 15 && e.2.state != .empty

/-- The values that take part in a sample. -/
def sampleValues (s : State) (p : Nat) : List Nat :=
  let cores := s.cores.filter fun e => partOfCore s e.1 == some p
  let idle := fun (e : Nat × CoreSt) => !(busyCore s e.1) && e.2.deque.isEmpty && e.2.inbox.isEmpty
  let busy := ((s.slots.map fun e => coreOfSlot e.1).eraseDups.filter fun c =>
    partOfCore s c == some p && busyCore s c).map fun c => (coreAt s c).vtime.toNat
  busy ++ ((cores.filter fun e => !idle e).map fun e => e.2.vtime.toNat) ++
  (cores.flatMap fun e => (liveDeque s e.1).map (·.stamp) ++ e.2.inbox.map (·.stamp)) ++
  (((partAt s p).map fun x => x.overflow.map (·.stamp)).getD []) ++
  ((s.network.filter fun m => m.part == p).map (·.stamp))

/-- GVT_SAMPLE: at the end of clock 64 j the tree samples the partition; the floor takes effect from the next clock. -/
def execGvtSample (part : Nat) (s : State) : Out :=
  match partAt s part with
  | none => .next s
  | some x =>
    let t := s.cycle - x.created
    if t < 65 ∨ (t - 1) % 64 ≠ 0 ∨ x.sample.isSome then .next s
    else
      let g := max x.gvt ((sampleValues s part).min?.getD x.gvt)
      .next (modPart s part fun y => { y with floor := max y.floor g, sample := some (s.cycle + 63, g) })

end Sys2Proof.Machine
end

