-- ==== Sys2Proof/Machine/Gate.lean ====
section
/-! DEFINITION. Worlds, burgees and the halyard (R220 to R222, R296 to R309): the gate instructions, and the deadlines of
calls and cleanups. -/

namespace Sys2Proof.Machine

/-! ### Grants (R334) -/

/-- A segment is within a grant: the same kind, its range contained, its rights included. -/
def Seg.within (g r : Seg) : Bool :=
  g.kind != 0 && g.kind == r.kind && decide (g.base ≤ r.base) && decide (r.base + r.limit ≤ g.base + g.limit) &&
  hasRights g.rights r.rights

/-- The eight grants of a world. -/
def grantsOf (s : State) (p w : Nat) : List Seg :=
  match (partAt s p).bind fun x => devRead s p (x.grantPva + 128 * w) 128 with
  | some bs => (List.range 8).map fun i => segAt bs (16 * i)
  | none => []
def withinGrant (s : State) (p w : Nat) (r : Seg) : Bool := (grantsOf s p w).any fun g => g.within r

/-! ### GPUB -/

/-- The fields of a burgee image (R297). -/
def imageCallee (bs : List Byte) : Nat := dword bs 16 / 2 ^ 58
def imageLdem (bs : List Byte) : Nat := dword bs 16 % 128
def imageSet (bs : List Byte) : Nat := dword bs 16 % 2 ^ 57 / 128 * 128
/-- The image fields that status 2 checks. -/
def imageOk (bs : List Byte) : Bool :=
  recField bs 0 4 % 4 == 0 && recField bs 4 4 % 4 == 0 && bits (dword bs 16) 57 57 == 0 && recField bs 31 1 / 16 == 0

/-- A descriptor of a segment set passes R298. -/
def setSegOk (s : State) (p w ldem : Nat) (g : Seg) : Bool :=
  g.w0.toNat / 2 ^ 60 == 0 && g.w1.toNat / 2 ^ 54 == 0 &&
  (match g.kind with
  | 0 => true
  | 2 => decide (g.base + g.limit < ldem * 256)
  | 1 | 3 | 4 => withinGrant s p w g
  | _ => false)

def burgeeOf (bs set : List Byte) : Burgee :=
  { entry := recField bs 0 4, cleanup := recField bs 4 4, allow := BitVec.ofNat 64 (dword bs 8), callee := imageCallee bs,
    ldem := imageLdem bs, budget := recField bs 24 4, maxlen := recField bs 28 3,
    rights := BitVec.ofNat 3 (recField bs 31 1), vec := bits (recField bs 31 1) 3 3 == 1,
    set := Vector.ofFn fun i : Fin 8 => if i.val = 7 then Seg.void else segAt set (16 * i.val) }

/-- Publish a gate of a world, or withdraw it; its first GPUB makes the world live (R296). -/
def setGate (s : State) (id ix : Nat) (g : Option Burgee) : State :=
  modWorld s id fun w =>
    { w with live := true, gates := match g with | some b => insert w.gates ix b | none => erase w.gates ix }

def execGpub (d a : BitVec 5) (k : BitVec 3) (s : State) : Out :=
  Run.out do
    needSlot s
    let ix := (rd s d).toNat
    if 1024 ≤ ix then return writeRetire s d 3
    let (s1, bs) ← readRange s k (rd s a) 0 32 32 3
    let w := myWorld s1
    if bs.all (· == 0) then return writeRetire (setGate s1 w ix none) d 0
    if imageCallee bs ≠ worldNo w then return writeRetire s1 d 1
    if !imageOk bs then return writeRetire s1 d 2
    match myPart s1 with
    | none => return writeRetire s1 d 2
    | some p =>
      let pva := imageSet bs
      let (s3, pl) ← pagePart s1 p pva 112 rR 3 (w64 pva) (some w)
      if placeDown s3 pl then trapFree s3 0x16
      let s2 := notePlace s3 pl
      let set := threadBytes s2 (myKey s2) pl.ty pl.addrs
      let ok := (List.range 7).all fun i => setSegOk s2 p (worldNo w) (imageLdem bs) (segAt set (16 * i))
      if !ok then return writeRetire s2 d 2
      return writeRetire (setGate s2 w ix (some (burgeeOf bs set))) d 0

/-! ### GCALL (R220, R302 to R305) -/

def gateAt (s : State) (id : Nat) : Option Burgee :=
  match myPart s with
  | none => none
  | some p => lookup (worldOf s (worldId p (bits id 15 10))).gates (bits id 9 0)

/-- The vector bank as `vbank` shows it. -/
def showsBank (x : SlotSt) : Bool := !vecHidden x && x.vec.bank.isSome

/-- The size in bytes of a window's source, and its rights R, W and A in bits 0 to 2. -/
def sourceOf (s : State) (wd ldem : Nat) : Nat × Nat :=
  let x := me s
  let seg := fun (g : Seg) => (if g.isVoid then 0 else g.limit + 1, g.rights % 4 + bits g.rights 3 3 * 4)
  match wd / 2 ^ 62 with
  | 0 => (winLen x - ldem * 256, 7)
  | 1 => seg (x.sc.g.toList.getD (bits wd 61 59) Seg.void)
  | 2 => seg x.sc.g[7]
  | _ => (0, 0)

/-- The window descriptor passes the check of R220. -/
def windowOk (s : State) (wd : Nat) (b : Burgee) : Bool :=
  let src := sourceOf s wd b.ldem
  let r := bits wd 58 56
  wd / 2 ^ 62 != 3 && r &&& src.2 == r && r &&& b.rights.toNat == r && decide (bits wd 55 32 ≤ b.maxlen) &&
  decide (wd % 2 ^ 32 + bits wd 55 32 ≤ src.1)

/-- The checks of GCALL in their order. -/
def gcallChecks (s : State) (id wd : Word) : Run Burgee := do
  let x := me s
  if id.toNat / 2 ^ 16 ≠ 0 ∨ tl s ≠ 0 ∨ x.ganged ∨ inCleanup x then trap s 0x01 id
  match gateAt s id.toNat, myPart s with
  | some b, some p =>
    if isRevoked s (worldId p b.callee) ∨ !b.allow.getLsbD (worldNo x.world) then trap s 0x11 id
    if b.vec && showsBank x then trap s 0x11 id
    if winLen x < b.ldem * 256 then trap s 0x11 id
    if x.frames.length = 8 ∨ (4 ≤ x.frames.length ∧ x.hspill = 0) then trap s 0x12 id
    if !windowOk s wd.toNat b then trap s 0x13 wd
    return b
  | _, _ => trap s 0x11 id

/-- Translate a spill line of the halyard: it parks with reason 1 while its page is not present (R301). -/
def spillPage (s : State) (i need : Nat) : Run State := do
  let x := me s
  match myPart s with
  | none => return s
  | some p =>
    let a := spillAt x.hspill i
    let (s1, _) ← placeParts s need 4 (some (worldId p 0)) p (pageParts a 513 512)
    return s1

/-- Spill the oldest frame held in hardware before the call that enters depth 5 to 8. -/
def spillFrame (s : State) : Run State := do
  let x := me s
  let n := x.frames.length
  if n < 4 then return s
  let s1 ← spillPage s (n - 3) rW
  match x.frames[3]?, myPart s with
  | some f, some p => return devWriteAs s1 (some (worldId p 0)) p (spillAt x.hspill (n - 3)) (frameBytes f)
  | _, _ => return s1

/-- The caller's state as a frame. -/
def pushedFrame (s : State) (x : SlotSt) (id wd : Word) (b : Burgee) : Frame :=
  { caller := x.world, epoch := (worldOf s (x.world / 64 * 64 + b.callee)).epoch, ret := x.sc.pc + 4, g := x.sc.g, lmbase := x.lmbase, lmbound := x.lmbound, thandler := x.tr.thandler,
    lc0 := x.sc.lc0, lc1 := x.sc.lc1, window := wd, gate := id, mark := x.deadline,
    saved := Vector.ofFn fun i : Fin 21 => x.sc.s[i.val + 11]'(by omega), status := 0, cleaning := false, vec := b.vec,
    callee := x.world / 64 * 64 + b.callee, cleanup := b.cleanup, bank := x.vec.bank }

/-- The callee's segment registers: its set, KIND 2 descriptors moved to its window, and g7 (R220, R298, R303). -/
def calleeSegs (b : Burgee) (base : Nat) (wd : Nat) : Vector Seg 8 :=
  Vector.ofFn fun i : Fin 8 =>
    if i.val = 7 then
      (if bits wd 55 32 = 0 then Seg.void
       else Seg.mk2 5 0 (bits wd 55 32 - 1) (bits wd 57 56 + bits wd 58 58 * 8))
    else
      let g := b.set[i]
      if g.kind = 2 then (if b.ldem = 0 then Seg.void else { g with w0 := g.w0 + w64 base }) else g

/-- The earlier of two deadlines. -/
def earliest (a b : Option Nat) : Option Nat :=
  match a, b with | some x, some y => some (min x y) | some x, none => some x | none, y => y

/-- Enter the callee (R220, R303, R305). -/
def enterGate (s : State) (id wd : Word) (b : Burgee) : State :=
  let x := me s
  let base := winBase x + winLen x - b.ldem * 256
  let dl := earliest (if b.budget = 0 then none else some (s.cycle + b.budget)) x.deadline
  let s1 := modMe s fun y =>
    { y with frames := pushedFrame s x id wd b :: y.frames, world := x.world / 64 * 64 + b.callee, deadline := dl,
             tr := { y.tr with thandler := 0 }, vec := { y.vec with bank := none },
             lmbase := w64 base, lmbound := w64 (b.ldem * 256),
             sc := { y.sc with pc := w64 b.entry, g := calleeSegs b base wd.toNat,
                               s := Vector.ofFn fun i : Fin 32 => if 11 ≤ i.val then 0 else y.sc.s[i],
                               lc0 := { y.sc.lc0 with active := false }, lc1 := { y.sc.lc1 with active := false } } }
  clearLocal s1 (myCore s) base (b.ldem * 256)

/-- GCALL: at depth 5 to 8 it parks with reason 0 while the halyard spills (R220, R301). -/
def execGcall (a b : BitVec 5) (s : State) : Out :=
  Run.out do
    needSlot s
    drain s
    let bg ← gcallChecks s (rd s a) (rd s b)
    if (me s).frames.length < 4 then return enterGate s (rd s a) (rd s b) bg
    let s1 ← spillFrame s
    return parkOf s1 s1.cur .memory false (.call (rd s a) (rd s b) bg)

/-- The spill of a GCALL is done: the callee is entered. -/
def finishGcall (s : State) (k : Nat) (id wd : Word) (b : Burgee) : State :=
  readyOf { enterGate { s with cur := .slot k } id wd b with cur := s.cur } (.slot k)

/-! ### GRET (R221, R301, R302) -/

/-- The innermost frame ends: a cleanup goes on with the unwind, a callee returns (R221, R307). -/
def leaveFrame (s : State) (k : Nat) : State := if inCleanup (slotAt s k) then endCleanup s k else popFrame s k

/-- The page of the frame that GRET refills: not present parks, and a missing right traps. -/
def refillPage (s : State) : Run State := do
  let x := me s
  if x.frames.length < 5 then return s
  match myPart s with
  | none => return s
  | some p =>
    match walk s p (spillAt x.hspill (x.frames.length - 4)) with
    | .poisoned => return s
    | .ok t => if tlbAllows t rR then return s else trap s 0x15 (w64 (spillAt x.hspill (x.frames.length - 4)))
    | .notPresent q st => park s .notPresent true (.fault q st false 4 false)
    | .moving f => park s .notPresent true (.moving f)
    | .malformed => trap s 0x15 (w64 (spillAt x.hspill (x.frames.length - 4)))

/-- GRET: from depth 5 to 8 it parks with reason 0 while the halyard refills (R221, R301). -/
def execGret (s : State) : Out :=
  Run.out do
    needSlot s
    if (me s).frames.isEmpty then illegal s
    drain s
    let x := me s
    if x.eng.tenures.any fun t => t.granted && t.depth == hdepth x then trapFree s 0x0E
    let s1 ← refillPage s
    if 5 ≤ hdepth x then return parkOf s1 s1.cur .memory false .ret
    return leaveFrame s1 (myKey s)

/-- The refill of a GRET is done: its frame ends. A page that has gone meanwhile parks it again, and poisoned data kill the task (R301). -/
def finishGret (s : State) (k : Nat) : State :=
  let x := slotAt s k
  match refillOf s (partOfSlot s k) x.hspill x.frames.length (x.frames.drop 1) with
  | .frames _ =>
    leaveFrame (readyOf (devNote s ((partOfSlot s k).getD 64) (spillAt x.hspill (x.frames.length - 4)) 512) (.slot k)) k
  | .absent a st => parkOf s (.slot k) .notPresent true (.fault a st false 4 false)
  | .moving f => parkOf s (.slot k) .notPresent true (.moving f)
  | .poisoned => killSlot (readyOf s (.slot k)) k 7 0 x.sc.pc

/-! ### GWDR, GSTAT and GWIN (R222) -/

def execGwdr (d a : BitVec 5) (s : State) : Out :=
  Run.out do
    needSlot s
    match (me s).frames with
    | [] => return writeRetire s d (BitVec.allOnes 64)
    | f :: _ =>
      return writeRetire s d (match (rd s a).toNat % 8 with
        | 0 => w64 (f.caller % 4096) | 1 => f.gate | 2 => f.window | 3 => w64 (hdepth (me s)) | _ => 0)

def execGstat (d a : BitVec 5) (s : State) : Out :=
  Run.out do
    needSlot s
    let id := (rd s a).toNat
    match (if id / 2 ^ 16 = 0 then gateAt s id else none) with
    | none => return writeRetire s d 0
    | some b =>
      return writeRetire s d (w64 (1 + 2 * flag (b.allow.getLsbD (worldNo (myWorld s))) + 4 * flag b.vec + 2 ^ 16 * b.budget))

/-- A frame whose window is narrowed to an offset and a length. An offset that leaves the field's 32 bits is not stated
(log entry 12): x stands for it. -/
def narrowWindow (f : Frame) (off n : Nat) (x : Word) : Frame :=
  let wd := f.window.toNat
  let sum := wd % 2 ^ 32 + off
  let low := if sum < 2 ^ 32 then sum else x.toNat % 2 ^ 32
  { f with window := w64 (wd / 2 ^ 56 * 2 ^ 56 + n % 2 ^ 24 * 2 ^ 32 + low) }

/-- GWIN narrows the innermost frame's window, and g7 with it: its BASE stays 0 and its rights are kept (log entry 12). A window that is
void, or that a cleanup voids, stays void (R343). -/
def execGwin (d a b : BitVec 5) (s : State) : Out :=
  Run.out do
    needSlot s
    let g := (me s).sc.g[7]
    let off := (rd s a).toNat
    let n := (rd s b).toNat
    match (me s).frames with
    | [] => trapFree s 0x13
    | f :: rest =>
      if bits f.window.toNat 55 32 = 0 ∨ g.isVoid ∨ g.kind ≠ 5 ∨ g.limit + 1 < off + n then trapFree s 0x13
      let g1 := if n = 0 then Seg.void else { w0 := g.w0, w1 := w64 (g.w1.toNat / 2 ^ 48 * 2 ^ 48 + (n - 1)) }
      let s1 := if bits f.window.toNat 31 0 + off < 2 ^ 32 then s else bumpFree s
      let s2 := modMe s1 fun x => { x with frames := narrowWindow f off n (Config.freeWord s.free) :: rest }
      return writeRetire (setSegOf s2 s2.cur 7 g1) d 0

/-! ### Deadlines (R305, R307) -/

/-- A slot may stop now: it stands at an instruction boundary, or its park can be left (R305). -/
def canStop (s : State) (k : Nat) : Bool :=
  let x := slotAt s k
  match x.state with
  | .ready => true
  | .parked => !completesFirst s k
  | _ => false

/-- BUDGET_EXPIRY: a deadline has passed; the slot stops and its halyard unwinds with status 2 (R305, R306). A cause at TL2
waits for the return to TL1; one that comes during a cleanup lowers the affected frame (R307). -/
def execBudgetExpiry (slot : Nat) (s : State) : Out :=
  let x := slotAt s slot
  match expiredDepth s x with
  | none => .next s
  | some a =>
    match x.unwind with
    | some v =>
      if v.cleanup.isSome ∧ a < v.affected ∧ a < x.frames.length then .next (startUnwind s slot (budgetCause x a)) else .next s
    | none =>
      if x.tr.tl = 2 ∨ restoring x ∨ !canStop s slot then .next s
      else .next (startUnwind (abandonPark s slot) slot ((standingCause s x).getD (budgetCause x a)))

/-- CLEANUP_DEADLINE: 4,096 clocks have passed since the cleanup started; it ends (R307). -/
def execCleanupDeadline (slot : Nat) (s : State) : Out :=
  let x := slotAt s slot
  match x.unwind with
  | some { cleanup := some due, .. } =>
    if due ≤ s.cycle && canStop s slot && !restoring x then .next (endCleanup (abandonPark s slot) slot) else .next s
  | _ => .next s

end Sys2Proof.Machine
end

