-- ==== Sys2Proof/Machine/System.lean ====
section
/-! DEFINITION. The system codes (R223 to R226, R49, R314, R396): waiting, halting, line and translation maintenance, the
instructions that name another slot, event selection and posting; and the events that end their waits. -/

namespace Sys2Proof.Machine

/-- A privileged instruction (R104). -/
def needPrivilege (s : State) : Run Unit := if privileged s then .ok () else privTrap s

/-! ### WAIT, YIELD, TRAP, TRET, UIRET, HALT -/

/-- The events of WAIT that are pending for the executor: its timer is past the deadline, and a completion queue that is not
empty counts as the user interrupt (R225). -/
def waitEvents (s : State) (deadline : Nat) (mask : BitVec 5) : BitVec 5 :=
  let timer : BitVec 5 := if mask.getLsbD 3 && decide (deadline ≤ s.cycle) then 8 else 0
  match s.cur with
  | .slot k => let e := (slotAt s k).eng; e.pend ||| timer ||| (if e.queue.isEmpty then 0 else 16)
  | .app _ => timer

/-- WAIT (R225). -/
def execWait (d a : BitVec 5) (s : State) : Out :=
  Run.out do
    let m := rd s a
    if m.toNat / 32 ≠ 0 then trap s 0x01 m
    let mask : BitVec 5 := m.setWidth 5
    let deadline := (rd s d).toNat
    let p := waitEvents s deadline mask &&& mask
    if p = 0 ∧ mask ≠ 0 then park s .wait true (.wait mask deadline)
    let s1 := match s.cur with
      | .slot k => modSlot s k fun x => { x with eng := { x.eng with pend := waitEvents s deadline mask &&& ~~~p } }
      | .app _ => s
    return writeRetire s1 d (p.setWidth 64)

/-- WAIT_TIMER_EXPIRY: the deadline of a WAIT with the timer bit has come (R225). slot is a thread number. -/
def execWaitTimerExpiry (slot : Nat) (s : State) : Out :=
  match parkOfAg s (agentOfThread slot) with
  | some { cont := .wait mask deadline, .. } =>
    if mask.getLsbD 3 && decide (deadline ≤ s.cycle) then
      match agentOfThread slot with
      | .slot k => .next (setPend s k 8)
      | .app n => .next (readyOf s (.app n))
    else .next s
  | _ => .next s

/-- YIELD: the slot's next issue comes 16 clocks later. -/
def execYield (s : State) : Out :=
  match s.cur with
  | .app _ => .next (retire s)
  | .slot k => .next (modSlot (retire s) k fun x => { x with yieldUntil := s.cycle + 16 })

/-- TRAP: the breakpoint. -/
def execTrap (a : BitVec 5) (s : State) : Out := .next (takeTrap s 0x18 (rd s a))

def execTret (s : State) : Out := (returnFromTrap s).out

/-- UIRET: the return from a completion interrupt. -/
def execUiret (s : State) : Out :=
  Run.out do
    if isApp s.cur ∨ !(scOf s s.cur).uienAct then illegal s
    return modScOf s s.cur fun x => { x with pc := x.uepc, uienEn := true, uienAct := false }

/-- An entry of the post queue, or a message of world 0, is not yet taken. -/
def supervisorWork (s : State) (core : Nat) : Bool :=
  (coreAt s core).delivered.any fun d => d.world == worldId ((partOfCore s core).getD 64) 0

/-- HALT. -/
def execHalt (s : State) : Out :=
  Run.out do
    needPrivilege s
    match s.cur with
    | .app n => return modApp (retire s) n fun x => { x with waiting := true }
    | .slot k =>
      if slotNo k = 15 then
        if supervisorWork s (coreOfSlot k) then return retire s
        park s .wait false .halt
      return killSlot s k 3 0 (pc s)

/-- APP_CORE_INTERRUPT: a claimed event is pending with EN = 1; at tl = 0 the lowest source is taken (R106). -/
def execAppCoreInterrupt (app : Nat) (s : State) : Out :=
  let x := appAt s app
  let boundary := match x.park with | some p => p.abandon | none => true
  match x.pendingSources.min? with
  | none => .next s
  | some src =>
    if x.tr.tl == 0 && x.sc.uienEn && !x.halted && boundary then
      let upd := fun (y : AppSt) =>
        { y with waiting := false, park := none, pendingSources := y.pendingSources.filter fun i => !(i == src),
                 sc := { y.sc with uienEn := false } }
      .next (takeTrapOf (modApp s app upd) (.app app) 0x20 (w64 src) x.sc.pc)
    else .next s

/-! ### Lines and translations -/

/-- The line of a checked byte of FLUSHL and INVL: its flat address, when it is paged. -/
def lineOf (s : State) (k : BitVec 3) (a : BitVec 5) : Run (State × Place) := onePlace (access s k (rd s a) 0 1 1 rR 0)

/-- FLUSHL: the line is written back; a value is in memory already when it is accepted (R240, R241). -/
def execFlushl (k : BitVec 3) (a : BitVec 5) (s : State) : Out :=
  Run.out do
    let (s1, _) ← lineOf s k a
    return parkOf s1 s.cur .memory false (.flush [])

/-- A line leaves the L1D of the executor. The cluster cache holds no value of its own (R241, log entry 16). -/
def dropLine (s : State) (a : Nat) : State :=
  match s.cur with
  | .app _ => s
  | .slot k => modCore s (coreOfSlot k) fun c => { c with l1d := c.l1d.filter fun x => !(x == a / 64) }

def execInvl (k : BitVec 3) (a : BitVec 5) (s : State) : Out :=
  Run.out do
    let (s1, pl) ← lineOf s k a
    return parkOf (dropLine s1 (pl.addrs.getD 0 0)) s.cur .memory false (.flush [])

/-- A translation is built from an entry that PGINV names (R224, R354). -/
def namedBy (e : BitVec 2) (v : Nat) (t : Tlb) : Bool :=
  if e = 0 then t.page * 4096 / 2 ^ t.span == v % 2 ^ 57 / 2 ^ t.span
  else if e = 1 then t.frames.contains (v % 2 ^ 46 / 2 ^ 21) else true

/-- The pages of a tile's versions and of its shadow that stand for the footprint page at a PVA (R256, R268). -/
def tilePagesAt (t : Tile) (page : Nat) : List Nat :=
  let i := page - t.base / 4096
  if page < t.base / 4096 ∨ t.base + t.ext ≤ page * 4096 then []
  else (t.frames.filterMap fun f => f.pages[i]?) ++ ((t.shadow.bind fun h => h.pages.getD i none).toList)

/-- The pages that an access translated through a kept translation reaches: the translation's own, and those that stand for it while it
belongs to the footprint of a tile. -/
def reachedPages (s : State) (t : Tlb) : List Nat :=
  let foot := match partAt s t.part with
    | some x => x.tiles.flatMap fun e => match e.2.tile with | some y => (tilePagesAt y t.page).map (· / 4096) | none => []
    | none => []
  t.flat / 4096 :: foot

/-- Remove the translations of a partition that meet a condition, from every cluster port; the pages that they reach. -/
def dropTlb (s : State) (p : Nat) (f : Tlb → Bool) : State × List Nat :=
  let gone := fun (t : Tlb) => t.part == p && f t
  ({ s with clusters := s.clusters.map fun e =>
      (e.1, { e.2 with tlb := e.2.tlb.filter fun t => !gone t, tlbOld := e.2.tlbOld.filter fun t => !gone t }) },
   ((s.clusters.flatMap fun e => (e.2.tlb ++ e.2.tlbOld).filter gone).flatMap (reachedPages s)).eraseDups)

/-- The accesses that are translated and not yet bound or at their home: those of the queues, and the rows of store-outs. -/
def underWay (s : State) : List MemEv :=
  s.iq ++ s.transit ++ s.cores.flatMap fun e => match e.2.matrixRun with | some r => r.outs.flatten | none => []

/-- No access translated to one of these pages is still under way (R354). -/
def pagesQuiet (s : State) (pages : List Nat) : Bool :=
  (underWay s).all fun e => !(e.addrs.any fun a => pages.contains (a / 4096))

/-- The partitions whose translations the executor reaches. -/
def reachedParts (s : State) : List Nat :=
  match s.cur with
  | .slot k => (partOfSlot s k).toList
  | .app _ => s.parts.map fun e => e.1

/-- The pages that other agents wait for. DESIGN CHOICE (log entry 59): a PGINV waits for them too, since an earlier PGINV of the same
entries has dropped the translations that lead to them (R354). -/
def waitedPages (s : State) : List Nat :=
  let of := fun (p : Option Park) => match p with | some { cont := .flush l, .. } => l | _ => []
  ((s.slots.flatMap fun e => of e.2.park) ++ s.apps.flatMap fun e => of e.2.park).eraseDups

/-- PGINV: an application core belongs to no partition, and reaches them all (R106, log entry 13). -/
def execPginv (e : BitVec 2) (a : BitVec 5) (s : State) : Out :=
  Run.out do
    needPrivilege s
    let r := (reachedParts s).foldl (fun (acc : State × List Nat) p =>
      let q := dropTlb acc.1 p (namedBy e (rd s a).toNat)
      (q.1, acc.2 ++ q.2)) (s, [])
    return parkOf r.1 s.cur .memory false (.flush (r.2 ++ waitedPages s))

/-! ### Instructions that name another slot (R223) -/

/-- The slot that a target spec names, when the spec is well formed. -/
def specKey (v : Nat) : Option Nat :=
  if bits v 15 15 = 1 then
    if bits v 14 14 ≠ 0 ∨ bits v 7 4 ≠ 0 ∨ 36 ≤ bits v 13 8 then none else some (slotKey (2048 + bits v 13 8) (v % 16))
  else some (slotKey (bits v 14 8 * 16 + bits v 7 4) (v % 16))

/-- The target within the executor's reach: a slot of its own core, or for an application core any slot of a partition. -/
def target (s : State) (v : Nat) : Option Nat :=
  match specKey v with
  | none => none
  | some k => match s.cur with
    | .slot j => if coreOfSlot k = coreOfSlot j then some k else none
    | .app _ => if (partOfSlot s k).isSome then some k else none

/-- Whether SLOTGO may start a task on a slot (R223, R278, R314). -/
def startable (s : State) (k : Nat) : Bool := usableSlot s k && !isReserved s k

/-- The launch of a record is refused: no task of it starts (R20). -/
def refusedLaunch (s : State) (core id : Nat) : Bool := match launchAt s core id with | some l => isRefused l | none => false

/-- SLOTGO. DEDUCED (log entry 60): a record of a refused launch is no valid record. -/
def execSlotgo (d a : BitVec 5) (s : State) : Out :=
  Run.out do
    needPrivilege s
    match target s (rd s a).toNat with
    | none => return writeRetire s d 2
    | some k =>
      if !startable s k then return writeRetire s d 1
      let (s1, bs) ← readRange s 1 (rd s d) 0 32 32 0
      let r := parseRecord bs
      if r.entry % 4 ≠ 0 ∨ r.flags / 2 ≠ 0 ∨ refusedLaunch s1 (coreOfSlot k) r.launch then return writeRetire s1 d 3
      let p := partOfSlot s1 k
      let r1 := { r with stamp := max r.stamp (floorOf s1 p) }
      return writeRetire (startRecord s1 k r1 (worldId (p.getD 64) (bits (rd s a).toNat 21 16))) d 0

/-- Both slots of a pair that share a fate can stop now (R305). -/
def canStopAll (s : State) (k : Nat) : Bool :=
  let ok := fun (j : Nat) => canStop s j || (slotAt s j).state == .splitWait
  ok k && (match pairedWith s k with | some j => ok j | none => true)

/-- Kill a slot when it can stop, else at its next boundary. -/
def askKill (s : State) (k kind : Nat) : State :=
  if canStopAll s k then killSlot s k kind 0 (slotAt s k).sc.pc
  else modSlot s k fun x => { x with stopKill := some (kind, 0, x.sc.pc) }

def execSlotkill (d a : BitVec 5) (s : State) : Out :=
  Run.out do
    needPrivilege s
    match target s (rd s a).toNat with
    | none => return writeRetire s d 2
    | some k =>
      if slotNo k = 15 then return writeRetire s d 2
      let s1 := if (rd s a).msb then modSlot s k fun x => { x with quoin := false } else s
      if (slotAt s k).state = .empty then return writeRetire s1 d 1
      if s.cur = .slot k then return killSlot s1 k 4 0 (pc s)
      return askKill (parkOf s1 s.cur .memory false (.kill d k)) k 4

/-- The state word of SLOTRD (R226, R388). -/
def reasonCode (r : ParkReason) : Nat :=
  match r with
  | .memory => 0 | .notPresent => 1 | .matrix => 2 | .divide => 3 | .sequencer => 4 | .copy => 5 | .tile => 6 | .galley => 7
  | .wait => 8 | .barrier => 9 | .bank => 10 | .join => 11 | .held => 12 | .record => 13
def stateCode (x : SlotSt) : Nat :=
  match x.state with | .empty => 0 | .ready => 1 | .parked => 2 | .splitWait => 3
def stateWord (s : State) (x : SlotSt) : Word :=
  let held := heldNow s x
  let code := if held then 2 else stateCode x
  let reason := if held then 12 else match x.park with | some p => reasonCode p.reason | none => 0
  w64 (x.world % 4096 * 2 ^ 32 + x.tr.tl * 2 ^ 16 + reason * 2 ^ 8 + code)

/-- A special-register number that R228 or R126 assigns. -/
def srAssigned (n : Nat) : Bool := decide (n < 0x42) || (decide (0x100 ≤ n) && decide (n < 0x110))

/-- The value of an item of another slot. -/
def itemRead (s : State) (k item : Nat) : Word :=
  let x := slotAt s k
  if item = 0 then stateWord s (shownSlot s k)
  else if item = 1 then x.sc.pc
  else if 0x10 ≤ item ∧ item < 0x30 then regOf s (.slot k) (BitVec.ofNat 5 (item - 0x10))
  else if 0x40 ≤ item ∧ item < 0x50 then
    let g := (x.sc.g.toList.getD ((item - 0x40) / 2) Seg.void).tidy
    if item % 2 = 0 then g.w0 else g.w1
  else if 0x1000 ≤ item ∧ srAssigned (item - 0x1000) then srReadSlot s k (item - 0x1000)
  else BitVec.allOnes 64

def execSlotrd (d a : BitVec 5) (s : State) : Out :=
  Run.out do
    needPrivilege s
    match target s (rd s a).toNat with
    | none => privTrap s
    | some k => return writeRetire s d (itemRead s k (bits (rd s a).toNat 47 32))

/-- An item that SLOTWR may write. -/
def itemWritable (item : Nat) : Bool :=
  item == 1 || (decide (0x10 ≤ item) && decide (item < 0x30)) || (decide (0x40 ≤ item) && decide (item < 0x50)) ||
  (decide (0x1000 ≤ item) && srAssigned (item - 0x1000) && srAccess (item - 0x1000) != .ro)
def isWindowItem (item : Nat) : Bool := item == 0x103B || item == 0x103C

/-- Write an item of another slot. -/
def itemWrite (s : State) (k item : Nat) (v : Word) : State :=
  if item = 1 then setPcOf s (.slot k) v
  else if 0x10 ≤ item ∧ item < 0x30 then setRegOf s (.slot k) (BitVec.ofNat 5 (item - 0x10)) v
  else if 0x40 ≤ item ∧ item < 0x50 then
    let i : BitVec 3 := BitVec.ofNat 3 ((item - 0x40) / 2)
    let g := segOf s (.slot k) i
    setSegOf s (.slot k) i (if item % 2 = 0 then { g with w0 := v } else { g with w1 := v }).tidy
  else if 0x1108 ≤ item then segLoad s (.slot k) (item - 0x1108) v
  else if 0x1100 ≤ item then segStage s (.slot k) v
  else srWriteSlot s k (item - 0x1000) v

/-- The target runs, or stands in a park that ends with its instruction. -/
def isBusy (x : SlotSt) : Bool := x.state == .ready || (match x.park with | some p => !p.abandon | none => false)

/-- SLOTWR. DESIGN CHOICE (log entry 84): status 3 of an item that cannot be written goes before status 1 of a target that runs. -/
def execSlotwr (d a : BitVec 5) (s : State) : Out :=
  Run.out do
    needPrivilege s
    let item := bits (rd s a).toNat 47 32
    match target s (rd s a).toNat with
    | none => return writeRetire s d 2
    | some k =>
      if slotNo k = 15 then return writeRetire s d 2
      if !itemWritable item then return writeRetire s d 3
      if isBusy (slotAt s k) ∧ !isWindowItem item then return writeRetire s d 1
      return writeRetire (itemWrite s k item (rd s d)) d 0

/-- The windows of two slots overlap. -/
def windowsMeet (x y : SlotSt) : Bool :=
  decide (0 < winLen x) && decide (0 < winLen y) && decide (winBase x < winBase y + winLen y) &&
  decide (winBase y < winBase x + winLen x)

/-- QUOIN's status (R49). -/
def quoinStatus (s : State) (k : Nat) : Nat :=
  let x := slotAt s k
  if slotNo k = 15 then 3
  else if 0xB000 < winBase x + winLen x then 2
  else if s.slots.any fun e => e.1 != k && coreOfSlot e.1 == coreOfSlot k && e.2.quoin && windowsMeet x e.2 then 1 else 0

def execQuoin (d a : BitVec 5) (s : State) : Out :=
  Run.out do
    needPrivilege s
    match target s (rd s a).toNat with
    | none => privTrap s
    | some k =>
      let st := quoinStatus s k
      return writeRetire (if st = 0 then modSlot s k fun x => { x with quoin := true } else s) d (w64 st)

/-! ### Event counters (R395 to R397) -/

/-- The level of a source: 0 core, 1 cluster, 2 die; none for an unassigned code. -/
def sourceLevel (n : Nat) : Option Nat :=
  if n ≤ 9 then some 0 else if n ≤ 13 then some 1 else if n ≤ 17 then some 2 else none
/-- The level of a counter. -/
def counterLevel (n : Nat) : Nat := if n ≤ 7 then 0 else if n ≤ 23 then 1 else 2
/-- A source word may select a counter. -/
def selectOk (v n : Nat) : Bool :=
  decide (n ≤ 87) && v / 2 ^ 20 == 0 && (match sourceLevel (v % 2 ^ 16) with
    | some l => decide (l ≤ counterLevel n)
    | none => false)
def selected (v : Nat) (part : Option Nat) : EvCounter :=
  { source := v % 2 ^ 16, qualifier := bits v 19 16, part := part, value := 0 }

/-- Select the source of a counter seen from a core, whose partition it then counts (R395); a die's counter of the hub for a gateway
core. -/
def selectCounter (s : State) (core n v : Nat) : State :=
  let x := selected v (partOfCore s core)
  if n ≤ 7 then modCore s core fun c => { c with evcnt := insert c.evcnt n x }
  else if n ≤ 23 then
    modCluster s (clusterOfCore core) fun c => { c with evcnt := insert c.evcnt n x }
  else
    let die := if isGateway core then 4 else dieOfCluster (clusterOfCore core)
    modMod s fun m => { m with dieCounters := insert m.dieCounters (die * 64 + (n - 24)) x }

/-- EVSEL. DESIGN CHOICE (log entry 84): a word that selects no counter traps with 0x01 before the privilege rule is looked at. On an
application core, which belongs to no cluster and no partition, only its die's counters exist, and they count every partition (log entry
13). -/
def execEvsel (d a : BitVec 5) (s : State) : Out :=
  Run.out do
    let v := (rd s d).toNat
    let n := (rd s a).toNat % 128
    if !selectOk v n then illegal s
    if 7 < n ∧ !privileged s then privTrap s
    match s.cur with
    | .slot k => return retire (selectCounter s (coreOfSlot k) n v)
    | .app i =>
      if n ≤ 23 then return retire s
      return retire (modMod s fun m => { m with dieCounters := insert m.dieCounters (i / 8 * 64 + (n - 24)) (selected v none) })

/-! ### SVPOST (R314) -/

def execSvpost (d a : BitVec 5) (s : State) : Out :=
  Run.out do
    needSlot s
    let core := myCore s
    if 16 ≤ ((coreAt s core).delivered.filter (·.posted)).length then return writeRetire s d 1
    let e : Delivered := { world := worldId ((myPart s).getD 64) 0, header := w64 (2 ^ 28 + 2 ^ 12 + 0xFFF), payload := [rd s a],
                           recordOf := none, posted := true, fifo := none }
    return writeRetire (wakeSupervisor (modCore s core fun c => { c with delivered := c.delivered ++ [e] }) core) d 0

end Sys2Proof.Machine
end

