-- ==== Sys2Proof/Machine/Bank.lean ====
section
/-! DEFINITION. BANKSET and its switch point (R224, R235 to R239). -/

namespace Sys2Proof.Machine

def bankMode (s : State) (cl b : Nat) : Nat := ((clusterAt s cl).modes.toList.getD b 0).toNat
def setMode (s : State) (cl b m : Nat) : State :=
  if h : b < 16 then modCluster s cl fun c => { c with modes := c.modes.set b (BitVec.ofNat 2 m) } else s

/-- A range of scratchpad offsets has a byte in a bank. -/
def inBank (b : Nat) (lo hi : Int) : Bool := decide (lo < ((b + 1) * 2 ^ 17 : Nat)) && decide (((b * 2 ^ 17 : Nat) : Int) < hi)
def flatInBank (cl b a : Nat) : Bool :=
  decide (flatScratch cl (b * 2 ^ 17) ≤ a) && decide (a < flatScratch cl ((b + 1) * 2 ^ 17))

/-- The galley's ring has a byte in a bank. -/
def Galley.inBank (g : Galley) (b : Nat) : Bool := Machine.inBank b g.base (g.base + g.size * g.count : Nat)

/-- The galleys of a cluster with a byte in a bank: core and number. -/
def bankGalleys (s : State) (cl b : Nat) : List (Nat × Nat) :=
  (s.cores.filter fun e => clusterOfCore e.1 == cl).flatMap fun e => (e.2.galleys.filter fun g => g.2.inBank b).map fun g => (e.1, g.1)

/-- An endpoint of a transfer lies in a bank: a scratch range of its extent, or a galley (R238). -/
def endInBank (s : State) (cl b : Nat) (j : CopyJob) (e : CopyEnd) (morton : Bool) (stride : Nat → Int) : Bool :=
  if e.kind = 1 then
    let x := extentOf j morton stride (elemWidth e.fmt)
    inBank b ((e.base : Int) + x.1) (e.base + x.2)
  else if e.kind = 3 then
    (bankGalleys s cl b).contains (cl * 16 + j.reg 16 / 16 % 16, e.base)
  else false
def jobInBank (s : State) (cl b : Nat) (j : CopyJob) : Bool :=
  endInBank s cl b j j.src j.srcMorton j.srcStride || endInBank s cl b j j.dst j.dstMorton j.dstStride

/-- The slots that are saved together with a slot, even first (R319). -/
def savedSlots (s : State) (k : Nat) : List Nat :=
  match pairedWith s k with | some j => [min k j, max k j] | none => [k]

/-- The tasks that stop for a save of a slot: those saved with it, and its gang (R319). -/
def stopsFor (s : State) (k : Nat) : List Nat :=
  let t := (slotAt s k).task
  (savedSlots s k ++ (if 1 < t.gangSize then gangSlots s t.launch t.gang else [])).eraseDups

/-- A CXSAVE under way has a scratchpad region with a byte in the bank: it completes before the switch point (R238). One that waits until a
slot stops which itself waits for a BANKSET does not: it starts after the switch point. -/
def bankSaved (s : State) (cl b : Nat) : Bool :=
  let touches := fun (p : Option Park) => match p with
    | some { cont := .cxsave _ k f, .. } =>
      clusterOfSlot k == cl && inBank b (f.getD 2 0) (f.getD 2 0 + f.getD 3 0 : Nat) &&
      (stopsFor s k).all fun j => match (slotAt s j).park with | some { cont := .bankset _ _ _ _ _, .. } => false | _ => true
    | _ => false
  (s.slots.any fun e => touches e.2.park) || s.apps.any fun e => touches e.2.park

/-- No access to the bank is under way, no CXSAVE has a region in it, and no matrix instruction holds a galley of it (R237, R238). -/
def bankQuiet (s : State) (cl b : Nat) : Bool :=
  ((s.iq ++ s.transit).all fun e => !(e.addrs.any (flatInBank cl b))) &&
  (s.cores.all fun e => match e.2.matrixRun with
    | some r => !(r.outs.any fun row => row.any fun ev => ev.addrs.any (flatInBank cl b))
    | none => true) &&
  !bankSaved s cl b &&
  (bankGalleys s cl b).all fun g => !heldByMatrix s g.1 g.2 && !heldByNeighbour s g.1 g.2

/-- A slot that waits on a galley takes 0x0F, code 0, at its instruction (R238). -/
def galleyLost (s : State) (core n k : Nat) : State :=
  let lost := fun (t : State) => takeTrapOf t (.slot k) 0x0F (w64 (n % 8)) (pcOf t (.slot k))
  match (slotAt s k).park with
  | some { cont := .galley m _, .. } => if coreOfSlot k = core ∧ m = n then lost (readyOf s (.slot k)) else s
  | some p =>
    (match p.cont, p.reason, headOf s k with
    | .matrix, .galley, some (_, h) | .matrixAgain, .galley, some (_, h) =>
      if coreOfSlot k = core ∧ (galA h = n ∨ galB h = n) then { lost (unstarted s k h) with cur := s.cur } else s
    | _, _, _ => s)
  | none => s

/-- Unconfigure a galley whose ring leaves SCRATCH mode. -/
def loseGalley (s : State) (core n : Nat) : State :=
  let s1 := setGalley s core n none
  s1.slots.foldl (fun t e => galleyLost t core n e.1) s1

/-- What lies in a bank that leaves SCRATCH mode ends (R238). -/
def leaveScratch (s : State) (cl b : Nat) : State :=
  let s1 := (chansWhere s cl fun c => jobInBank s cl b c.job).foldl (fun t ch => endTransfer t cl ch .faulted 0x1A) s
  (bankGalleys s1 cl b).foldl (fun t g => loseGalley t g.1 g.2) s1

/-- The switch: the bank reads as zero in its new mode. -/
def switchBank (s : State) (cl b m : Nat) : State :=
  let s1 := if bankMode s cl b = 1 then leaveScratch s cl b else s
  let s2 := { s1 with mem := memClear s1.mem (flatScratch cl (b * 2 ^ 17)) (2 ^ 17) }
  setMode s2 cl b m

/-- The FIFO of a bank is not empty. -/
def fifoBusy (s : State) (cl b : Nat) : Bool := bankMode s cl b == 2 && decide (0 < fifoUsed s cl b)

/-- The cluster whose bank the executor names: an application core belongs to none, and one of the clusters of the partitions
is taken (log entry 13). -/
def bankCluster (s : State) : State × Option Nat :=
  match s.cur with
  | .slot k => (s, if isGateway (coreOfSlot k) then none else some (clusterOfSlot k))
  | .app _ =>
    let l := s.parts.flatMap fun e => e.2.clusters
    let (s1, i) := choose s l.length
    (s1, l[i]?)

/-- The waiting BANKSETs of a bank, in the order in which the cluster received them. -/
def banksets (s : State) (cl b : Nat) : List (Nat × Agent × BitVec 5 × Nat) :=
  let get := fun (ag : Agent) => match parkOfAg s ag with
    | some { cont := .bankset d c x m o, .. } => if c = cl ∧ x = b then [(o, ag, d, m)] else []
    | _ => []
  s.slots.flatMap (fun e => get (.slot e.1)) ++ s.apps.flatMap fun e => get (.app e.1)

def execBankset (d a : BitVec 5) (s : State) : Out :=
  Run.out do
    needPrivilege s
    let b := (rd s a).toNat % 16
    let m := bits (rd s a).toNat 5 4
    if m = 3 then illegal s
    let (s1, c) := bankCluster s
    match c with
    | none => trap s1 0x1A (w64 b)
    | some cl =>
      -- One behind another BANKSET of the bank waits for it (R237).
      let first := (banksets s1 cl b).isEmpty
      if first && bankMode s1 cl b == m then return writeRetire s1 d 0
      if first && fifoBusy s1 cl b then trap s1 0x1A (w64 b)
      return parkOf (bumpId s1) s1.cur .memory false (.bankset d cl b m s1.nextId)

def firstBankset (l : List (Nat × Agent × BitVec 5 × Nat)) : Option (Nat × Agent × BitVec 5 × Nat) :=
  l.find? fun x => l.all fun y => decide (x.1 ≤ y.1)

/-- BANK_SWITCH_POINT: the next BANKSET of a bank takes effect (R237); a new FIFO bank takes the messages that waited (R239). -/
def execBankSwitchPoint (cluster bank : Nat) (s : State) : Out :=
  match firstBankset (banksets s cluster bank) with
  | none => .next s
  | some (_, ag, d, m) =>
    if bankMode s cluster bank = m then .next (completeOf (setRegOf s ag d 0) ag)
    else if fifoBusy s cluster bank then .next (takeTrapOf (readyOf s ag) ag 0x1A (w64 bank) (pcOf s ag))
    else if !bankQuiet s cluster bank then .next s
    else .next (arrive (completeOf (setRegOf (switchBank s cluster bank m) ag d 0) ag))

end Sys2Proof.Machine
end

