-- ==== Sys2Proof/WellFormed.lean ====
section
/-! DEFINITION. Which instruction terms are instructions: the field conditions of R95 to R101, R166 and R224 that a
field's width alone does not give. An event has no field condition. -/

namespace Sys2Proof

/-- The special-register numbers that R228 and R126 assign. -/
def srAssigned (n : Nat) : Bool :=
  n ≤ 0x41 || (0x100 ≤ n && n ≤ 0x10F)

/-- The reserved field values and combinations of R96 to R98, R157, R166 and R224 (step 3 of R107). -/
def Instr.wf : Instr → Bool
  | .add _ _ _ => true
  | .sub _ _ _ => true
  | .and _ _ _ => true
  | .or _ _ _ => true
  | .xor _ _ _ => true
  | .andn _ _ _ => true
  | .shl _ _ _ => true
  | .shr _ _ _ => true
  | .sar _ _ _ => true
  | .rol _ _ _ => true
  | .min _ _ _ => true
  | .max _ _ _ => true
  | .minn _ _ _ => true
  | .maxn _ _ _ => true
  | .slt _ _ _ => true
  | .sltn _ _ _ => true
  | .seq _ _ _ => true
  | .sne _ _ _ => true
  | .addw _ _ _ => true
  | .subw _ _ _ => true
  | .addi _ _ _ => true
  | .andi _ _ _ => true
  | .ori _ _ _ => true
  | .xori _ _ _ => true
  | .shli _ _ _ => true
  | .shri _ _ _ => true
  | .sari _ _ _ => true
  | .roli _ _ _ => true
  | .movi _ _ => true
  | .lit _ _ _ => true
  | .slti _ _ _ => true
  | .sltni _ _ _ => true
  | .mul _ _ _ => true
  | .mulh _ _ _ => true
  | .mulhn _ _ _ => true
  | .mulw _ _ _ => true
  | .div _ _ _ => true
  | .divn _ _ _ => true
  | .rem _ _ _ => true
  | .remn _ _ _ => true
  | .divw _ _ _ => true
  | .remw _ _ _ => true
  | .divideDone _ => true
  | .clz _ _ => true
  | .ctz _ _ => true
  | .popc _ _ => true
  | .brev _ _ => true
  | .sextb _ _ => true
  | .sexth _ _ => true
  | .sextw _ _ => true
  | .zextb _ _ => true
  | .zexth _ _ => true
  | .zextw _ _ => true
  | .bfx _ _ _ => true
  | .bfi _ _ _ => true
  | .padd _ _ _ => true
  | .psub _ _ _ => true
  | .pfmt _ _ _ => true
  | .pmeta _ _ => true
  | .pclr _ _ => true
  | .pchk _ _ _ => true
  | .mfsr _ n => srAssigned n.toNat
  | .mtsr _ n => srAssigned n.toNat
  | .beq _ _ _ => true
  | .bne _ _ _ => true
  | .blt _ _ _ => true
  | .bge _ _ _ => true
  | .bltn _ _ _ => true
  | .bgen _ _ _ => true
  | .j _ => true
  | .jal _ => true
  | .jr _ => true
  | .jalr _ _ => true
  | .loop _ _ o => 1 ≤ o.toNat && o.toNat ≤ 32767
  | .ldb _ _ _ _ _ => true
  | .ldbn _ _ _ _ _ => true
  | .ldh _ _ _ _ _ => true
  | .ldhn _ _ _ _ _ => true
  | .ldw _ _ _ _ _ => true
  | .ldwn _ _ _ _ _ => true
  | .ldd _ _ _ _ _ => true
  | .stb _ _ _ _ _ => true
  | .sth _ _ _ _ _ => true
  | .stw _ _ _ _ _ => true
  | .std _ _ _ _ _ => true
  | .memoryReply _ => true
  | .ldo _ _ _ p c _ => p.toNat ≤ 1 && c.toNat ≤ 4
  | .sto _ _ _ p c _ => p.toNat % 2 == 0 && c.toNat ≤ 4
  | .amoadd _ _ _ _ _ c => c.toNat ≤ 4
  | .amoand _ _ _ _ _ c => c.toNat ≤ 4
  | .amoor _ _ _ _ _ c => c.toNat ≤ 4
  | .amoxor _ _ _ _ _ c => c.toNat ≤ 4
  | .amomin _ _ _ _ _ c => c.toNat ≤ 4
  | .amomax _ _ _ _ _ c => c.toNat ≤ 4
  | .amoswp _ _ _ _ _ c => c.toNat ≤ 4
  | .amocas _ _ _ _ _ c => c.toNat ≤ 4
  | .amowadd _ _ _ _ _ c => c.toNat ≤ 4
  | .amowand _ _ _ _ _ c => c.toNat ≤ 4
  | .amowor _ _ _ _ _ c => c.toNat ≤ 4
  | .amowxor _ _ _ _ _ c => c.toNat ≤ 4
  | .amowmin _ _ _ _ _ c => c.toNat ≤ 4
  | .amowmax _ _ _ _ _ c => c.toNat ≤ 4
  | .amowswp _ _ _ _ _ c => c.toNat ≤ 4
  | .amowcas _ _ _ _ _ c => c.toNat ≤ 4
  | .fence p c => p != 0 && c.toNat ≤ 4
  | .vaddF32 _ _ _ _ => true
  | .vsubF32 _ _ _ _ => true
  | .vmulF32 _ _ _ _ => true
  | .vfmaF32 _ _ _ _ => true
  | .vfmsF32 _ _ _ _ => true
  | .vminF32 _ _ _ _ => true
  | .vmaxF32 _ _ _ _ => true
  | .vabsF32 _ _ _ => true
  | .vnegF32 _ _ _ => true
  | .vdivF32 _ _ _ _ => true
  | .vsqrtF32 _ _ _ => true
  | .vsinF32 _ _ _ => true
  | .vcosF32 _ _ _ => true
  | .vexp2F32 _ _ _ => true
  | .vcmpeqF32 _ _ _ _ => true
  | .vcmpltF32 _ _ _ _ => true
  | .vcmpleF32 _ _ _ _ => true
  | .vcmpunF32 _ _ _ _ => true
  | .vselF32 _ _ _ _ => true
  | .vaddBf16 _ _ _ _ => true
  | .vsubBf16 _ _ _ _ => true
  | .vmulBf16 _ _ _ _ => true
  | .vfmaBf16 _ _ _ _ => true
  | .vfmsBf16 _ _ _ _ => true
  | .vminBf16 _ _ _ _ => true
  | .vmaxBf16 _ _ _ _ => true
  | .vabsBf16 _ _ _ => true
  | .vnegBf16 _ _ _ => true
  | .vdivBf16 _ _ _ _ => true
  | .vsqrtBf16 _ _ _ => true
  | .vsinBf16 _ _ _ => true
  | .vcosBf16 _ _ _ => true
  | .vexp2Bf16 _ _ _ => true
  | .vcmpeqBf16 _ _ _ _ => true
  | .vcmpltBf16 _ _ _ _ => true
  | .vcmpleBf16 _ _ _ _ => true
  | .vcmpunBf16 _ _ _ _ => true
  | .vselBf16 _ _ _ _ => true
  | .vaddF16 _ _ _ _ => true
  | .vsubF16 _ _ _ _ => true
  | .vmulF16 _ _ _ _ => true
  | .vfmaF16 _ _ _ _ => true
  | .vfmsF16 _ _ _ _ => true
  | .vminF16 _ _ _ _ => true
  | .vmaxF16 _ _ _ _ => true
  | .vabsF16 _ _ _ => true
  | .vnegF16 _ _ _ => true
  | .vdivF16 _ _ _ _ => true
  | .vsqrtF16 _ _ _ => true
  | .vsinF16 _ _ _ => true
  | .vcosF16 _ _ _ => true
  | .vexp2F16 _ _ _ => true
  | .vcmpeqF16 _ _ _ _ => true
  | .vcmpltF16 _ _ _ _ => true
  | .vcmpleF16 _ _ _ _ => true
  | .vcmpunF16 _ _ _ _ => true
  | .vselF16 _ _ _ _ => true
  | .vaddI32 _ _ _ _ => true
  | .vsubI32 _ _ _ _ => true
  | .vmulI32 _ _ _ _ => true
  | .vmulhI32 _ _ _ _ => true
  | .vminI32 _ _ _ _ => true
  | .vmaxI32 _ _ _ _ => true
  | .vminnI32 _ _ _ _ => true
  | .vmaxnI32 _ _ _ _ => true
  | .vandI32 _ _ _ _ => true
  | .vorI32 _ _ _ _ => true
  | .vxorI32 _ _ _ _ => true
  | .vshlI32 _ _ _ _ => true
  | .vshrI32 _ _ _ _ => true
  | .vsarI32 _ _ _ _ => true
  | .vcmpeqI32 _ _ _ _ => true
  | .vcmpltI32 _ _ _ _ => true
  | .vcmpltnI32 _ _ _ _ => true
  | .vselI32 _ _ _ _ => true
  | .vaddsI32 _ _ _ _ => true
  | .vsubsI32 _ _ _ _ => true
  | .vaddI16 _ _ _ _ => true
  | .vsubI16 _ _ _ _ => true
  | .vmulI16 _ _ _ _ => true
  | .vmulhI16 _ _ _ _ => true
  | .vminI16 _ _ _ _ => true
  | .vmaxI16 _ _ _ _ => true
  | .vminnI16 _ _ _ _ => true
  | .vmaxnI16 _ _ _ _ => true
  | .vandI16 _ _ _ _ => true
  | .vorI16 _ _ _ _ => true
  | .vxorI16 _ _ _ _ => true
  | .vshlI16 _ _ _ _ => true
  | .vshrI16 _ _ _ _ => true
  | .vsarI16 _ _ _ _ => true
  | .vcmpeqI16 _ _ _ _ => true
  | .vcmpltI16 _ _ _ _ => true
  | .vcmpltnI16 _ _ _ _ => true
  | .vselI16 _ _ _ _ => true
  | .vaddsI16 _ _ _ _ => true
  | .vsubsI16 _ _ _ _ => true
  | .vaddI8 _ _ _ _ => true
  | .vsubI8 _ _ _ _ => true
  | .vmulI8 _ _ _ _ => true
  | .vmulhI8 _ _ _ _ => true
  | .vminI8 _ _ _ _ => true
  | .vmaxI8 _ _ _ _ => true
  | .vminnI8 _ _ _ _ => true
  | .vmaxnI8 _ _ _ _ => true
  | .vandI8 _ _ _ _ => true
  | .vorI8 _ _ _ _ => true
  | .vxorI8 _ _ _ _ => true
  | .vshlI8 _ _ _ _ => true
  | .vshrI8 _ _ _ _ => true
  | .vsarI8 _ _ _ _ => true
  | .vcmpeqI8 _ _ _ _ => true
  | .vcmpltI8 _ _ _ _ => true
  | .vcmpltnI8 _ _ _ _ => true
  | .vselI8 _ _ _ _ => true
  | .vaddsI8 _ _ _ _ => true
  | .vsubsI8 _ _ _ _ => true
  | .vperm _ _ _ _ => true
  | .vslideup _ _ _ _ => true
  | .vslidedn _ _ _ _ => true
  | .vbcast _ _ _ => true
  | .vredsum _ _ _ _ => true
  | .vredmax _ _ _ _ => true
  | .vredmin _ _ _ _ => true
  | .vrediadd _ _ _ _ => true
  | .vinterl _ _ _ _ => true
  | .vdeint _ _ _ => true
  | .mand _ _ _ => true
  | .mor _ _ _ => true
  | .mxor _ _ _ => true
  | .mandn _ _ _ => true
  | .mnot _ _ => true
  | .mlow _ _ => true
  | .mbelow _ _ => true
  | .vtbl _ _ _ _ _ => true
  | .vnar _ _ _ _ _ => true
  | .vnars _ _ _ _ _ => true
  | .vwid _ _ _ _ _ => true
  | .vwidr _ _ _ => true
  | .vcvtf _ _ c => c.toNat ≤ 9
  | .vcvti _ _ _ => true
  | .vhad _ _ _ _ => true
  | .vhadi _ _ _ _ => true
  | .vld _ _ _ _ _ => true
  | .vst _ _ _ _ _ => true
  | .vlds _ _ _ _ _ => true
  | .vsts _ _ _ _ _ => true
  | .vldf _ _ _ _ => true
  | .vstf _ _ _ _ _ => true
  | .vldb _ _ _ _ _ => true
  | .vldm _ _ _ _ => true
  | .vstm _ _ _ _ => true
  | .vldx _ _ _ _ _ => true
  | .vstx _ _ _ _ _ => true
  | .vstxa _ _ _ _ _ => true
  | .vmovs _ _ _ => true
  | .vmovv _ _ _ => true
  | .vsetl _ _ => true
  | .vloop _ _ _ => true
  | .vbind _ => true
  | .vfree => true
  | .vtype _ => true
  | .gang => true
  | .ungang => true
  | .vwait => true
  | .vzero _ _ => true
  | .vpopm _ _ => true
  | .vmmovs _ _ _ => true
  | .vsmovm _ _ _ => true
  | .sequencerEntryPerform _ => true
  | .mset r _ => r.toNat ≤ 5 && r != 2
  | .msetMout _ _ _ => true
  | .mget r _ => r.toNat ≤ 5
  | .mma _ _ _ => true
  | .mmas _ _ _ => true
  | .mmr _ _ _ => true
  | .mzero _ => true
  | .matrixStart _ => true
  | .matrixComplete _ => true
  | .mmrNeighbourPush _ _ => true
  | .glset _ _ _ _ => true
  | .glget _ _ _ => true
  | .glpushv _ _ => true
  | .glpopd _ _ => true
  | .glhead _ _ => true
  | .gltagRead _ _ => true
  | .gltagWrite _ _ => true
  | .glflush _ => true
  | .galleySpaceFreed _ _ => true
  | .cpset r _ => 2 ≤ r.toNat && r.toNat ≤ 16
  | .cpsetEndpoint _ _ _ _ => true
  | .cpget r _ => r.toNat ≤ 16
  | .cplaunch _ => true
  | .cpwp _ _ => true
  | .cpstat _ _ => true
  | .cpcancel _ _ => true
  | .cpwaitid _ => true
  | .copyWrite _ _ => true
  | .copyTransferEnd _ _ => true
  | .completionInterrupt _ => true
  | .tbload _ _ _ _ => true
  | .tbinfo _ _ => true
  | .treg _ _ _ => true
  | .tfree _ => true
  | .tacqr _ _ _ => true
  | .tacqw _ _ => true
  | .trel _ => true
  | .tabnd _ => true
  | .tsplit _ _ => true
  | .tjoin _ => true
  | .trecl _ _ => true
  | .tstat _ _ => true
  | .tver _ => true
  | .tstv _ _ _ _ => true
  | .tldv _ _ _ _ => true
  | .tokenForward _ _ _ _ => true
  | .persistentRequest _ _ _ => true
  | .frameSlotFreed _ _ => true
  | .tspawn _ _ _ => true
  | .texit => true
  | .msend _ _ _ => true
  | .cntset _ _ => true
  | .cntget _ _ => true
  | .cntgetIn _ => true
  | .barr => true
  | .sqend _ => true
  | .gwq _ _ => true
  | .barq _ _ => true
  | .gwsend _ _ => true
  | .gcall _ _ => true
  | .gret => true
  | .gpub _ _ _ => true
  | .gwdr _ _ => true
  | .gstat _ _ => true
  | .gwin _ _ _ => true
  | .wait _ _ => true
  | .yield => true
  | .trap _ => true
  | .tret => true
  | .uiret => true
  | .halt => true
  | .flushl _ _ => true
  | .invl _ _ => true
  | .pginv e _ => e.toNat ≤ 2
  | .slotgo _ _ => true
  | .slotkill _ _ => true
  | .slotrd _ _ => true
  | .slotwr _ _ => true
  | .quoin _ _ => true
  | .wrevk _ _ => true
  | .cxsave _ _ => true
  | .cxrest _ _ => true
  | .keyld _ _ => true
  | .evsel _ _ => true
  | .svpost _ _ => true
  | .bankset _ _ => true
  | .bankSwitchPoint _ _ => true
  | .cleanupDeadline _ => true
  | .budgetExpiry _ => true
  | .revocationPoint _ _ => true
  | .revocationDrainDone _ _ => true
  | .appCoreInterrupt _ => true
  | .accept _ => true
  | .advance _ => true
  | .bind _ => true
  | .atomicStep _ => true
  | .fenceStep _ => true
  | .publish _ => true
  | .dequeStart _ => true
  | .stealVisit _ => true
  | .gangPlace _ => true
  | .gangStart _ => true
  | .inboxDeliver _ => true
  | .inboxHoldExpiry _ => true
  | .gvtSample _ => true
  | .gvtPublish _ => true
  | .launchFetch _ => true
  | .launchEligible _ => true
  | .colophonWrite _ => true
  | .faultRecordPost _ => true
  | .walkComplete _ _ => true
  | .wakePort _ => true
  | .accessCounterHalve => true
  | .tierDemote _ _ => true
  | .tierPromote _ _ => true
  | .flipToHost _ => true
  | .flipToDevice _ => true
  | .hostAccess _ _ _ _ => true
  | .submit _ => true
  | .cancel _ => true
  | .partitionCreate _ _ => true
  | .partitionTeardown _ => true
  | .claimSupervisor _ => true
  | .claimHost _ => true
  | .claimRelease _ => true
  | .claimEscalate _ => true
  | .eventDelivery _ => true
  | .admissionWrite _ => true
  | .scrub _ => true
  | .seal _ => true
  | .openPage _ => true
  | .pageKeyInvalidOp _ => true
  | .sessionOpen _ _ _ => true
  | .sessionComplete _ _ _ _ => true
  | .heartbeat _ _ => true
  | .sessionDeadline _ => true
  | .sessionGraceEnd _ => true
  | .flitRetransmit _ => true
  | .portDown _ => true
  | .linkRetrain _ => true
  | .remoteMessageArrival _ _ _ _ _ _ => true
  | .reductionBlockArrival _ _ => true
  | .deviceFault _ _ => true
  | .thresholdCrossing _ _ => true
  | .thermalThrottle _ _ => true
  | .voltageDroop _ => true
  | .moduleReset => true
  | .powerOff => true
  | .counterWindowSelect _ _ => true
  | .registerWrite _ _ => true
  | .waitTimerExpiry _ => true
  | .softError _ _ => true
  | .peerMemoryAccess _ _ _ _ _ => true
  | .cxlCacheSnoop _ _ _ _ => true
  | .voltageRecovery _ => true

/-- An instruction term that names an instruction. -/
abbrev Instr.WellFormed (i : Instr) : Prop := i.wf = true

end Sys2Proof
end

