-- ==== Sys2Proof/Decode.lean ====
section
/-! DEFINITION. Steps 1 to 3 of R107: from a 32-bit word to an instruction or a named rejection, by the formats of R94
and the opcode map of R102 and R103; and the encoder, from the same formats. A word is a Nat below 2^32, so a field
is a quotient and a remainder. No encoding falls through to a neighbour (R107). -/

namespace Sys2Proof

/-- Why a word is not an instruction (R107): the step that fails. -/
inductive Reject where
  /-- Step 1: the word is 0, or its major is not listed in R102. -/
  | major
  /-- Step 2: the minor, op, engine, command or code is not listed in R103. -/
  | minor
  /-- Step 3: a field breaks R95 to R101. -/
  | field
  deriving DecidableEq, Repr

/-- Bits lo + n - 1 : lo of a word, as a number. -/
def num (w lo n : Nat) : Nat := w / 2 ^ lo % 2 ^ n

/-- Bits lo + n - 1 : lo of a word, as a field. -/
def fld (w lo n : Nat) : BitVec n := BitVec.ofNat n (w / 2 ^ lo)

/-- Step 3 of R107 on the fields of an instruction. -/
def legal (i : Instr) : Except Reject Instr := if i.wf then .ok i else .error .field

/-- The instructions of major 0x1 (R103). -/
noncomputable def decodeAlu (w : Nat) : Except Reject Instr :=
  match num w 0 11 with
  | 0x0 => legal (Instr.add (fld w 21 5) (fld w 16 5) (fld w 11 5))
  | 0x1 => legal (Instr.sub (fld w 21 5) (fld w 16 5) (fld w 11 5))
  | 0x2 => legal (Instr.and (fld w 21 5) (fld w 16 5) (fld w 11 5))
  | 0x3 => legal (Instr.or (fld w 21 5) (fld w 16 5) (fld w 11 5))
  | 0x4 => legal (Instr.xor (fld w 21 5) (fld w 16 5) (fld w 11 5))
  | 0x5 => legal (Instr.andn (fld w 21 5) (fld w 16 5) (fld w 11 5))
  | 0x6 => legal (Instr.shl (fld w 21 5) (fld w 16 5) (fld w 11 5))
  | 0x7 => legal (Instr.shr (fld w 21 5) (fld w 16 5) (fld w 11 5))
  | 0x8 => legal (Instr.sar (fld w 21 5) (fld w 16 5) (fld w 11 5))
  | 0x9 => legal (Instr.rol (fld w 21 5) (fld w 16 5) (fld w 11 5))
  | 0xa => legal (Instr.min (fld w 21 5) (fld w 16 5) (fld w 11 5))
  | 0xb => legal (Instr.max (fld w 21 5) (fld w 16 5) (fld w 11 5))
  | 0xc => legal (Instr.minn (fld w 21 5) (fld w 16 5) (fld w 11 5))
  | 0xd => legal (Instr.maxn (fld w 21 5) (fld w 16 5) (fld w 11 5))
  | 0xe => legal (Instr.slt (fld w 21 5) (fld w 16 5) (fld w 11 5))
  | 0xf => legal (Instr.sltn (fld w 21 5) (fld w 16 5) (fld w 11 5))
  | 0x10 => legal (Instr.seq (fld w 21 5) (fld w 16 5) (fld w 11 5))
  | 0x11 => legal (Instr.sne (fld w 21 5) (fld w 16 5) (fld w 11 5))
  | 0x12 => legal (Instr.addw (fld w 21 5) (fld w 16 5) (fld w 11 5))
  | 0x13 => legal (Instr.subw (fld w 21 5) (fld w 16 5) (fld w 11 5))
  | _ => .error .minor

/-- The instructions of major 0x6 (R103). -/
noncomputable def decodeShi (w : Nat) : Except Reject Instr :=
  match num w 14 2 with
  | 0x0 => if num w 6 8 == 0 then legal (Instr.shli (fld w 21 5) (fld w 16 5) (fld w 0 6)) else .error .field
  | 0x1 => if num w 6 8 == 0 then legal (Instr.shri (fld w 21 5) (fld w 16 5) (fld w 0 6)) else .error .field
  | 0x2 => if num w 6 8 == 0 then legal (Instr.sari (fld w 21 5) (fld w 16 5) (fld w 0 6)) else .error .field
  | 0x3 => if num w 6 8 == 0 then legal (Instr.roli (fld w 21 5) (fld w 16 5) (fld w 0 6)) else .error .field
  | _ => .error .minor

/-- The instructions of major 0xb (R103). -/
noncomputable def decodeMulDiv (w : Nat) : Except Reject Instr :=
  match num w 0 11 with
  | 0x0 => legal (Instr.mul (fld w 21 5) (fld w 16 5) (fld w 11 5))
  | 0x1 => legal (Instr.mulh (fld w 21 5) (fld w 16 5) (fld w 11 5))
  | 0x2 => legal (Instr.mulhn (fld w 21 5) (fld w 16 5) (fld w 11 5))
  | 0x3 => legal (Instr.mulw (fld w 21 5) (fld w 16 5) (fld w 11 5))
  | 0x4 => legal (Instr.div (fld w 21 5) (fld w 16 5) (fld w 11 5))
  | 0x5 => legal (Instr.divn (fld w 21 5) (fld w 16 5) (fld w 11 5))
  | 0x6 => legal (Instr.rem (fld w 21 5) (fld w 16 5) (fld w 11 5))
  | 0x7 => legal (Instr.remn (fld w 21 5) (fld w 16 5) (fld w 11 5))
  | 0x8 => legal (Instr.divw (fld w 21 5) (fld w 16 5) (fld w 11 5))
  | 0x9 => legal (Instr.remw (fld w 21 5) (fld w 16 5) (fld w 11 5))
  | _ => .error .minor

/-- The instructions of major 0xc (R103). -/
noncomputable def decodeBits (w : Nat) : Except Reject Instr :=
  match num w 0 11 with
  | 0x0 => if num w 11 5 == 0 then legal (Instr.clz (fld w 21 5) (fld w 16 5)) else .error .field
  | 0x1 => if num w 11 5 == 0 then legal (Instr.ctz (fld w 21 5) (fld w 16 5)) else .error .field
  | 0x2 => if num w 11 5 == 0 then legal (Instr.popc (fld w 21 5) (fld w 16 5)) else .error .field
  | 0x3 => if num w 11 5 == 0 then legal (Instr.brev (fld w 21 5) (fld w 16 5)) else .error .field
  | 0x4 => if num w 11 5 == 0 then legal (Instr.sextb (fld w 21 5) (fld w 16 5)) else .error .field
  | 0x5 => if num w 11 5 == 0 then legal (Instr.sexth (fld w 21 5) (fld w 16 5)) else .error .field
  | 0x6 => if num w 11 5 == 0 then legal (Instr.sextw (fld w 21 5) (fld w 16 5)) else .error .field
  | 0x7 => if num w 11 5 == 0 then legal (Instr.zextb (fld w 21 5) (fld w 16 5)) else .error .field
  | 0x8 => if num w 11 5 == 0 then legal (Instr.zexth (fld w 21 5) (fld w 16 5)) else .error .field
  | 0x9 => if num w 11 5 == 0 then legal (Instr.zextw (fld w 21 5) (fld w 16 5)) else .error .field
  | 0xa => legal (Instr.bfx (fld w 21 5) (fld w 16 5) (fld w 11 5))
  | 0xb => legal (Instr.bfi (fld w 21 5) (fld w 16 5) (fld w 11 5))
  | _ => .error .minor

/-- The instructions of major 0xd (R103). -/
noncomputable def decodePtr (w : Nat) : Except Reject Instr :=
  match num w 0 11 with
  | 0x0 => legal (Instr.padd (fld w 21 5) (fld w 16 5) (fld w 11 5))
  | 0x1 => legal (Instr.psub (fld w 21 5) (fld w 16 5) (fld w 11 5))
  | 0x2 => legal (Instr.pfmt (fld w 21 5) (fld w 16 5) (fld w 11 5))
  | 0x3 => if num w 11 5 == 0 then legal (Instr.pmeta (fld w 21 5) (fld w 16 5)) else .error .field
  | 0x4 => if num w 11 5 == 0 then legal (Instr.pclr (fld w 21 5) (fld w 16 5)) else .error .field
  | 0x5 => if num w 14 2 == 0 then legal (Instr.pchk (fld w 21 5) (fld w 16 5) (fld w 11 3)) else .error .field
  | _ => .error .minor

/-- The instructions of major 0x18 (R103). -/
noncomputable def decodeJrGroup (w : Nat) : Except Reject Instr :=
  match num w 0 11 with
  | 0x0 => if num w 11 5 == 0 && num w 21 5 == 0 then legal (Instr.jr (fld w 16 5)) else .error .field
  | 0x1 => if num w 11 5 == 0 then legal (Instr.jalr (fld w 21 5) (fld w 16 5)) else .error .field
  | _ => .error .minor

/-- The instructions of major 0x2d (R103). -/
noncomputable def decodeAmo (w : Nat) : Except Reject Instr :=
  match num w 0 3 with
  | 0x0 => legal (Instr.amoadd (fld w 21 5) (fld w 16 5) (fld w 11 5) (fld w 8 3) (fld w 6 2) (fld w 3 3))
  | 0x1 => legal (Instr.amoand (fld w 21 5) (fld w 16 5) (fld w 11 5) (fld w 8 3) (fld w 6 2) (fld w 3 3))
  | 0x2 => legal (Instr.amoor (fld w 21 5) (fld w 16 5) (fld w 11 5) (fld w 8 3) (fld w 6 2) (fld w 3 3))
  | 0x3 => legal (Instr.amoxor (fld w 21 5) (fld w 16 5) (fld w 11 5) (fld w 8 3) (fld w 6 2) (fld w 3 3))
  | 0x4 => legal (Instr.amomin (fld w 21 5) (fld w 16 5) (fld w 11 5) (fld w 8 3) (fld w 6 2) (fld w 3 3))
  | 0x5 => legal (Instr.amomax (fld w 21 5) (fld w 16 5) (fld w 11 5) (fld w 8 3) (fld w 6 2) (fld w 3 3))
  | 0x6 => legal (Instr.amoswp (fld w 21 5) (fld w 16 5) (fld w 11 5) (fld w 8 3) (fld w 6 2) (fld w 3 3))
  | 0x7 => legal (Instr.amocas (fld w 21 5) (fld w 16 5) (fld w 11 5) (fld w 8 3) (fld w 6 2) (fld w 3 3))
  | _ => .error .minor

/-- The instructions of major 0x2e (R103). -/
noncomputable def decodeAmow (w : Nat) : Except Reject Instr :=
  match num w 0 3 with
  | 0x0 => legal (Instr.amowadd (fld w 21 5) (fld w 16 5) (fld w 11 5) (fld w 8 3) (fld w 6 2) (fld w 3 3))
  | 0x1 => legal (Instr.amowand (fld w 21 5) (fld w 16 5) (fld w 11 5) (fld w 8 3) (fld w 6 2) (fld w 3 3))
  | 0x2 => legal (Instr.amowor (fld w 21 5) (fld w 16 5) (fld w 11 5) (fld w 8 3) (fld w 6 2) (fld w 3 3))
  | 0x3 => legal (Instr.amowxor (fld w 21 5) (fld w 16 5) (fld w 11 5) (fld w 8 3) (fld w 6 2) (fld w 3 3))
  | 0x4 => legal (Instr.amowmin (fld w 21 5) (fld w 16 5) (fld w 11 5) (fld w 8 3) (fld w 6 2) (fld w 3 3))
  | 0x5 => legal (Instr.amowmax (fld w 21 5) (fld w 16 5) (fld w 11 5) (fld w 8 3) (fld w 6 2) (fld w 3 3))
  | 0x6 => legal (Instr.amowswp (fld w 21 5) (fld w 16 5) (fld w 11 5) (fld w 8 3) (fld w 6 2) (fld w 3 3))
  | 0x7 => legal (Instr.amowcas (fld w 21 5) (fld w 16 5) (fld w 11 5) (fld w 8 3) (fld w 6 2) (fld w 3 3))
  | _ => .error .minor

/-- The instructions of major 0x30 (R103). -/
noncomputable def decodeVF32 (w : Nat) : Except Reject Instr :=
  match num w 0 5 with
  | 0x0 => legal (Instr.vaddF32 (fld w 20 6) (fld w 14 6) (fld w 8 6) (fld w 5 3))
  | 0x1 => legal (Instr.vsubF32 (fld w 20 6) (fld w 14 6) (fld w 8 6) (fld w 5 3))
  | 0x2 => legal (Instr.vmulF32 (fld w 20 6) (fld w 14 6) (fld w 8 6) (fld w 5 3))
  | 0x3 => legal (Instr.vfmaF32 (fld w 20 6) (fld w 14 6) (fld w 8 6) (fld w 5 3))
  | 0x4 => legal (Instr.vfmsF32 (fld w 20 6) (fld w 14 6) (fld w 8 6) (fld w 5 3))
  | 0x5 => legal (Instr.vminF32 (fld w 20 6) (fld w 14 6) (fld w 8 6) (fld w 5 3))
  | 0x6 => legal (Instr.vmaxF32 (fld w 20 6) (fld w 14 6) (fld w 8 6) (fld w 5 3))
  | 0x7 => if num w 8 6 == 0 then legal (Instr.vabsF32 (fld w 20 6) (fld w 14 6) (fld w 5 3)) else .error .field
  | 0x8 => if num w 8 6 == 0 then legal (Instr.vnegF32 (fld w 20 6) (fld w 14 6) (fld w 5 3)) else .error .field
  | 0x9 => legal (Instr.vdivF32 (fld w 20 6) (fld w 14 6) (fld w 8 6) (fld w 5 3))
  | 0xa => if num w 8 6 == 0 then legal (Instr.vsqrtF32 (fld w 20 6) (fld w 14 6) (fld w 5 3)) else .error .field
  | 0xb => if num w 8 6 == 0 then legal (Instr.vsinF32 (fld w 20 6) (fld w 14 6) (fld w 5 3)) else .error .field
  | 0xc => if num w 8 6 == 0 then legal (Instr.vcosF32 (fld w 20 6) (fld w 14 6) (fld w 5 3)) else .error .field
  | 0xd => if num w 8 6 == 0 then legal (Instr.vexp2F32 (fld w 20 6) (fld w 14 6) (fld w 5 3)) else .error .field
  | 0xe => if num w 23 3 == 0 then legal (Instr.vcmpeqF32 (fld w 20 3) (fld w 14 6) (fld w 8 6) (fld w 5 3)) else .error .field
  | 0xf => if num w 23 3 == 0 then legal (Instr.vcmpltF32 (fld w 20 3) (fld w 14 6) (fld w 8 6) (fld w 5 3)) else .error .field
  | 0x10 => if num w 23 3 == 0 then legal (Instr.vcmpleF32 (fld w 20 3) (fld w 14 6) (fld w 8 6) (fld w 5 3)) else .error .field
  | 0x11 => if num w 23 3 == 0 then legal (Instr.vcmpunF32 (fld w 20 3) (fld w 14 6) (fld w 8 6) (fld w 5 3)) else .error .field
  | 0x12 => legal (Instr.vselF32 (fld w 20 6) (fld w 14 6) (fld w 8 6) (fld w 5 3))
  | _ => .error .minor

/-- The instructions of major 0x31 (R103). -/
noncomputable def decodeVBF16 (w : Nat) : Except Reject Instr :=
  match num w 0 5 with
  | 0x0 => legal (Instr.vaddBf16 (fld w 20 6) (fld w 14 6) (fld w 8 6) (fld w 5 3))
  | 0x1 => legal (Instr.vsubBf16 (fld w 20 6) (fld w 14 6) (fld w 8 6) (fld w 5 3))
  | 0x2 => legal (Instr.vmulBf16 (fld w 20 6) (fld w 14 6) (fld w 8 6) (fld w 5 3))
  | 0x3 => legal (Instr.vfmaBf16 (fld w 20 6) (fld w 14 6) (fld w 8 6) (fld w 5 3))
  | 0x4 => legal (Instr.vfmsBf16 (fld w 20 6) (fld w 14 6) (fld w 8 6) (fld w 5 3))
  | 0x5 => legal (Instr.vminBf16 (fld w 20 6) (fld w 14 6) (fld w 8 6) (fld w 5 3))
  | 0x6 => legal (Instr.vmaxBf16 (fld w 20 6) (fld w 14 6) (fld w 8 6) (fld w 5 3))
  | 0x7 => if num w 8 6 == 0 then legal (Instr.vabsBf16 (fld w 20 6) (fld w 14 6) (fld w 5 3)) else .error .field
  | 0x8 => if num w 8 6 == 0 then legal (Instr.vnegBf16 (fld w 20 6) (fld w 14 6) (fld w 5 3)) else .error .field
  | 0x9 => legal (Instr.vdivBf16 (fld w 20 6) (fld w 14 6) (fld w 8 6) (fld w 5 3))
  | 0xa => if num w 8 6 == 0 then legal (Instr.vsqrtBf16 (fld w 20 6) (fld w 14 6) (fld w 5 3)) else .error .field
  | 0xb => if num w 8 6 == 0 then legal (Instr.vsinBf16 (fld w 20 6) (fld w 14 6) (fld w 5 3)) else .error .field
  | 0xc => if num w 8 6 == 0 then legal (Instr.vcosBf16 (fld w 20 6) (fld w 14 6) (fld w 5 3)) else .error .field
  | 0xd => if num w 8 6 == 0 then legal (Instr.vexp2Bf16 (fld w 20 6) (fld w 14 6) (fld w 5 3)) else .error .field
  | 0xe => if num w 23 3 == 0 then legal (Instr.vcmpeqBf16 (fld w 20 3) (fld w 14 6) (fld w 8 6) (fld w 5 3)) else .error .field
  | 0xf => if num w 23 3 == 0 then legal (Instr.vcmpltBf16 (fld w 20 3) (fld w 14 6) (fld w 8 6) (fld w 5 3)) else .error .field
  | 0x10 => if num w 23 3 == 0 then legal (Instr.vcmpleBf16 (fld w 20 3) (fld w 14 6) (fld w 8 6) (fld w 5 3)) else .error .field
  | 0x11 => if num w 23 3 == 0 then legal (Instr.vcmpunBf16 (fld w 20 3) (fld w 14 6) (fld w 8 6) (fld w 5 3)) else .error .field
  | 0x12 => legal (Instr.vselBf16 (fld w 20 6) (fld w 14 6) (fld w 8 6) (fld w 5 3))
  | _ => .error .minor

/-- The instructions of major 0x32 (R103). -/
noncomputable def decodeVF16 (w : Nat) : Except Reject Instr :=
  match num w 0 5 with
  | 0x0 => legal (Instr.vaddF16 (fld w 20 6) (fld w 14 6) (fld w 8 6) (fld w 5 3))
  | 0x1 => legal (Instr.vsubF16 (fld w 20 6) (fld w 14 6) (fld w 8 6) (fld w 5 3))
  | 0x2 => legal (Instr.vmulF16 (fld w 20 6) (fld w 14 6) (fld w 8 6) (fld w 5 3))
  | 0x3 => legal (Instr.vfmaF16 (fld w 20 6) (fld w 14 6) (fld w 8 6) (fld w 5 3))
  | 0x4 => legal (Instr.vfmsF16 (fld w 20 6) (fld w 14 6) (fld w 8 6) (fld w 5 3))
  | 0x5 => legal (Instr.vminF16 (fld w 20 6) (fld w 14 6) (fld w 8 6) (fld w 5 3))
  | 0x6 => legal (Instr.vmaxF16 (fld w 20 6) (fld w 14 6) (fld w 8 6) (fld w 5 3))
  | 0x7 => if num w 8 6 == 0 then legal (Instr.vabsF16 (fld w 20 6) (fld w 14 6) (fld w 5 3)) else .error .field
  | 0x8 => if num w 8 6 == 0 then legal (Instr.vnegF16 (fld w 20 6) (fld w 14 6) (fld w 5 3)) else .error .field
  | 0x9 => legal (Instr.vdivF16 (fld w 20 6) (fld w 14 6) (fld w 8 6) (fld w 5 3))
  | 0xa => if num w 8 6 == 0 then legal (Instr.vsqrtF16 (fld w 20 6) (fld w 14 6) (fld w 5 3)) else .error .field
  | 0xb => if num w 8 6 == 0 then legal (Instr.vsinF16 (fld w 20 6) (fld w 14 6) (fld w 5 3)) else .error .field
  | 0xc => if num w 8 6 == 0 then legal (Instr.vcosF16 (fld w 20 6) (fld w 14 6) (fld w 5 3)) else .error .field
  | 0xd => if num w 8 6 == 0 then legal (Instr.vexp2F16 (fld w 20 6) (fld w 14 6) (fld w 5 3)) else .error .field
  | 0xe => if num w 23 3 == 0 then legal (Instr.vcmpeqF16 (fld w 20 3) (fld w 14 6) (fld w 8 6) (fld w 5 3)) else .error .field
  | 0xf => if num w 23 3 == 0 then legal (Instr.vcmpltF16 (fld w 20 3) (fld w 14 6) (fld w 8 6) (fld w 5 3)) else .error .field
  | 0x10 => if num w 23 3 == 0 then legal (Instr.vcmpleF16 (fld w 20 3) (fld w 14 6) (fld w 8 6) (fld w 5 3)) else .error .field
  | 0x11 => if num w 23 3 == 0 then legal (Instr.vcmpunF16 (fld w 20 3) (fld w 14 6) (fld w 8 6) (fld w 5 3)) else .error .field
  | 0x12 => legal (Instr.vselF16 (fld w 20 6) (fld w 14 6) (fld w 8 6) (fld w 5 3))
  | _ => .error .minor

/-- The instructions of major 0x33 (R103). -/
noncomputable def decodeVI32 (w : Nat) : Except Reject Instr :=
  match num w 0 5 with
  | 0x0 => legal (Instr.vaddI32 (fld w 20 6) (fld w 14 6) (fld w 8 6) (fld w 5 3))
  | 0x1 => legal (Instr.vsubI32 (fld w 20 6) (fld w 14 6) (fld w 8 6) (fld w 5 3))
  | 0x2 => legal (Instr.vmulI32 (fld w 20 6) (fld w 14 6) (fld w 8 6) (fld w 5 3))
  | 0x3 => legal (Instr.vmulhI32 (fld w 20 6) (fld w 14 6) (fld w 8 6) (fld w 5 3))
  | 0x4 => legal (Instr.vminI32 (fld w 20 6) (fld w 14 6) (fld w 8 6) (fld w 5 3))
  | 0x5 => legal (Instr.vmaxI32 (fld w 20 6) (fld w 14 6) (fld w 8 6) (fld w 5 3))
  | 0x6 => legal (Instr.vminnI32 (fld w 20 6) (fld w 14 6) (fld w 8 6) (fld w 5 3))
  | 0x7 => legal (Instr.vmaxnI32 (fld w 20 6) (fld w 14 6) (fld w 8 6) (fld w 5 3))
  | 0x8 => legal (Instr.vandI32 (fld w 20 6) (fld w 14 6) (fld w 8 6) (fld w 5 3))
  | 0x9 => legal (Instr.vorI32 (fld w 20 6) (fld w 14 6) (fld w 8 6) (fld w 5 3))
  | 0xa => legal (Instr.vxorI32 (fld w 20 6) (fld w 14 6) (fld w 8 6) (fld w 5 3))
  | 0xb => legal (Instr.vshlI32 (fld w 20 6) (fld w 14 6) (fld w 8 6) (fld w 5 3))
  | 0xc => legal (Instr.vshrI32 (fld w 20 6) (fld w 14 6) (fld w 8 6) (fld w 5 3))
  | 0xd => legal (Instr.vsarI32 (fld w 20 6) (fld w 14 6) (fld w 8 6) (fld w 5 3))
  | 0xe => if num w 23 3 == 0 then legal (Instr.vcmpeqI32 (fld w 20 3) (fld w 14 6) (fld w 8 6) (fld w 5 3)) else .error .field
  | 0xf => if num w 23 3 == 0 then legal (Instr.vcmpltI32 (fld w 20 3) (fld w 14 6) (fld w 8 6) (fld w 5 3)) else .error .field
  | 0x10 => if num w 23 3 == 0 then legal (Instr.vcmpltnI32 (fld w 20 3) (fld w 14 6) (fld w 8 6) (fld w 5 3)) else .error .field
  | 0x11 => legal (Instr.vselI32 (fld w 20 6) (fld w 14 6) (fld w 8 6) (fld w 5 3))
  | 0x12 => legal (Instr.vaddsI32 (fld w 20 6) (fld w 14 6) (fld w 8 6) (fld w 5 3))
  | 0x13 => legal (Instr.vsubsI32 (fld w 20 6) (fld w 14 6) (fld w 8 6) (fld w 5 3))
  | _ => .error .minor

/-- The instructions of major 0x34 (R103). -/
noncomputable def decodeVI16 (w : Nat) : Except Reject Instr :=
  match num w 0 5 with
  | 0x0 => legal (Instr.vaddI16 (fld w 20 6) (fld w 14 6) (fld w 8 6) (fld w 5 3))
  | 0x1 => legal (Instr.vsubI16 (fld w 20 6) (fld w 14 6) (fld w 8 6) (fld w 5 3))
  | 0x2 => legal (Instr.vmulI16 (fld w 20 6) (fld w 14 6) (fld w 8 6) (fld w 5 3))
  | 0x3 => legal (Instr.vmulhI16 (fld w 20 6) (fld w 14 6) (fld w 8 6) (fld w 5 3))
  | 0x4 => legal (Instr.vminI16 (fld w 20 6) (fld w 14 6) (fld w 8 6) (fld w 5 3))
  | 0x5 => legal (Instr.vmaxI16 (fld w 20 6) (fld w 14 6) (fld w 8 6) (fld w 5 3))
  | 0x6 => legal (Instr.vminnI16 (fld w 20 6) (fld w 14 6) (fld w 8 6) (fld w 5 3))
  | 0x7 => legal (Instr.vmaxnI16 (fld w 20 6) (fld w 14 6) (fld w 8 6) (fld w 5 3))
  | 0x8 => legal (Instr.vandI16 (fld w 20 6) (fld w 14 6) (fld w 8 6) (fld w 5 3))
  | 0x9 => legal (Instr.vorI16 (fld w 20 6) (fld w 14 6) (fld w 8 6) (fld w 5 3))
  | 0xa => legal (Instr.vxorI16 (fld w 20 6) (fld w 14 6) (fld w 8 6) (fld w 5 3))
  | 0xb => legal (Instr.vshlI16 (fld w 20 6) (fld w 14 6) (fld w 8 6) (fld w 5 3))
  | 0xc => legal (Instr.vshrI16 (fld w 20 6) (fld w 14 6) (fld w 8 6) (fld w 5 3))
  | 0xd => legal (Instr.vsarI16 (fld w 20 6) (fld w 14 6) (fld w 8 6) (fld w 5 3))
  | 0xe => if num w 23 3 == 0 then legal (Instr.vcmpeqI16 (fld w 20 3) (fld w 14 6) (fld w 8 6) (fld w 5 3)) else .error .field
  | 0xf => if num w 23 3 == 0 then legal (Instr.vcmpltI16 (fld w 20 3) (fld w 14 6) (fld w 8 6) (fld w 5 3)) else .error .field
  | 0x10 => if num w 23 3 == 0 then legal (Instr.vcmpltnI16 (fld w 20 3) (fld w 14 6) (fld w 8 6) (fld w 5 3)) else .error .field
  | 0x11 => legal (Instr.vselI16 (fld w 20 6) (fld w 14 6) (fld w 8 6) (fld w 5 3))
  | 0x12 => legal (Instr.vaddsI16 (fld w 20 6) (fld w 14 6) (fld w 8 6) (fld w 5 3))
  | 0x13 => legal (Instr.vsubsI16 (fld w 20 6) (fld w 14 6) (fld w 8 6) (fld w 5 3))
  | _ => .error .minor

/-- The instructions of major 0x35 (R103). -/
noncomputable def decodeVI8 (w : Nat) : Except Reject Instr :=
  match num w 0 5 with
  | 0x0 => legal (Instr.vaddI8 (fld w 20 6) (fld w 14 6) (fld w 8 6) (fld w 5 3))
  | 0x1 => legal (Instr.vsubI8 (fld w 20 6) (fld w 14 6) (fld w 8 6) (fld w 5 3))
  | 0x2 => legal (Instr.vmulI8 (fld w 20 6) (fld w 14 6) (fld w 8 6) (fld w 5 3))
  | 0x3 => legal (Instr.vmulhI8 (fld w 20 6) (fld w 14 6) (fld w 8 6) (fld w 5 3))
  | 0x4 => legal (Instr.vminI8 (fld w 20 6) (fld w 14 6) (fld w 8 6) (fld w 5 3))
  | 0x5 => legal (Instr.vmaxI8 (fld w 20 6) (fld w 14 6) (fld w 8 6) (fld w 5 3))
  | 0x6 => legal (Instr.vminnI8 (fld w 20 6) (fld w 14 6) (fld w 8 6) (fld w 5 3))
  | 0x7 => legal (Instr.vmaxnI8 (fld w 20 6) (fld w 14 6) (fld w 8 6) (fld w 5 3))
  | 0x8 => legal (Instr.vandI8 (fld w 20 6) (fld w 14 6) (fld w 8 6) (fld w 5 3))
  | 0x9 => legal (Instr.vorI8 (fld w 20 6) (fld w 14 6) (fld w 8 6) (fld w 5 3))
  | 0xa => legal (Instr.vxorI8 (fld w 20 6) (fld w 14 6) (fld w 8 6) (fld w 5 3))
  | 0xb => legal (Instr.vshlI8 (fld w 20 6) (fld w 14 6) (fld w 8 6) (fld w 5 3))
  | 0xc => legal (Instr.vshrI8 (fld w 20 6) (fld w 14 6) (fld w 8 6) (fld w 5 3))
  | 0xd => legal (Instr.vsarI8 (fld w 20 6) (fld w 14 6) (fld w 8 6) (fld w 5 3))
  | 0xe => if num w 23 3 == 0 then legal (Instr.vcmpeqI8 (fld w 20 3) (fld w 14 6) (fld w 8 6) (fld w 5 3)) else .error .field
  | 0xf => if num w 23 3 == 0 then legal (Instr.vcmpltI8 (fld w 20 3) (fld w 14 6) (fld w 8 6) (fld w 5 3)) else .error .field
  | 0x10 => if num w 23 3 == 0 then legal (Instr.vcmpltnI8 (fld w 20 3) (fld w 14 6) (fld w 8 6) (fld w 5 3)) else .error .field
  | 0x11 => legal (Instr.vselI8 (fld w 20 6) (fld w 14 6) (fld w 8 6) (fld w 5 3))
  | 0x12 => legal (Instr.vaddsI8 (fld w 20 6) (fld w 14 6) (fld w 8 6) (fld w 5 3))
  | 0x13 => legal (Instr.vsubsI8 (fld w 20 6) (fld w 14 6) (fld w 8 6) (fld w 5 3))
  | _ => .error .minor

/-- The instructions of major 0x36 (R103). -/
noncomputable def decodeVxl (w : Nat) : Except Reject Instr :=
  match num w 0 5 with
  | 0x0 => legal (Instr.vperm (fld w 20 6) (fld w 14 6) (fld w 8 6) (fld w 5 3))
  | 0x1 => if num w 13 1 == 0 then legal (Instr.vslideup (fld w 20 6) (fld w 14 6) (fld w 8 5) (fld w 5 3)) else .error .field
  | 0x2 => if num w 13 1 == 0 then legal (Instr.vslidedn (fld w 20 6) (fld w 14 6) (fld w 8 5) (fld w 5 3)) else .error .field
  | 0x3 => if num w 8 6 == 0 && num w 19 1 == 0 then legal (Instr.vbcast (fld w 20 6) (fld w 14 5) (fld w 5 3)) else .error .field
  | 0x4 => if num w 10 4 == 0 then legal (Instr.vredsum (fld w 20 6) (fld w 14 6) (fld w 8 2) (fld w 5 3)) else .error .field
  | 0x5 => if num w 10 4 == 0 then legal (Instr.vredmax (fld w 20 6) (fld w 14 6) (fld w 8 2) (fld w 5 3)) else .error .field
  | 0x6 => if num w 10 4 == 0 then legal (Instr.vredmin (fld w 20 6) (fld w 14 6) (fld w 8 2) (fld w 5 3)) else .error .field
  | 0x7 => if num w 10 4 == 0 then legal (Instr.vrediadd (fld w 20 6) (fld w 14 6) (fld w 8 2) (fld w 5 3)) else .error .field
  | 0x8 => legal (Instr.vinterl (fld w 20 6) (fld w 14 6) (fld w 8 6) (fld w 5 3))
  | 0x9 => if num w 8 6 == 0 then legal (Instr.vdeint (fld w 20 6) (fld w 14 6) (fld w 5 3)) else .error .field
  | 0xa => if num w 5 9 == 4 && num w 17 3 == 0 && num w 23 3 == 0 then legal (Instr.mnot (fld w 20 3) (fld w 14 3)) else if num w 5 9 == 5 && num w 17 3 == 0 && num w 23 3 == 0 then legal (Instr.mlow (fld w 20 3) (fld w 14 3)) else if num w 5 9 == 6 && num w 17 3 == 0 && num w 23 3 == 0 then legal (Instr.mbelow (fld w 20 3) (fld w 14 3)) else if num w 5 3 == 0 && num w 11 3 == 0 && num w 17 3 == 0 && num w 23 3 == 0 then legal (Instr.mand (fld w 20 3) (fld w 14 3) (fld w 8 3)) else if num w 5 3 == 1 && num w 11 3 == 0 && num w 17 3 == 0 && num w 23 3 == 0 then legal (Instr.mor (fld w 20 3) (fld w 14 3) (fld w 8 3)) else if num w 5 3 == 2 && num w 11 3 == 0 && num w 17 3 == 0 && num w 23 3 == 0 then legal (Instr.mxor (fld w 20 3) (fld w 14 3) (fld w 8 3)) else if num w 5 3 == 3 && num w 11 3 == 0 && num w 17 3 == 0 && num w 23 3 == 0 then legal (Instr.mandn (fld w 20 3) (fld w 14 3) (fld w 8 3)) else .error .field
  | 0xb => if num w 12 2 == 0 then legal (Instr.vtbl (fld w 20 6) (fld w 14 6) (fld w 10 2) (fld w 8 2) (fld w 5 3)) else .error .field
  | _ => .error .minor

/-- The instructions of major 0x37 (R103). -/
noncomputable def decodeVcv (w : Nat) : Except Reject Instr :=
  match num w 0 5 with
  | 0x0 => legal (Instr.vnar (fld w 20 6) (fld w 14 6) (fld w 11 3) (fld w 9 2) (fld w 5 4))
  | 0x1 => legal (Instr.vnars (fld w 20 6) (fld w 14 6) (fld w 11 3) (fld w 9 2) (fld w 5 4))
  | 0x2 => legal (Instr.vwid (fld w 20 6) (fld w 14 6) (fld w 11 3) (fld w 9 2) (fld w 5 4))
  | 0x3 => if num w 9 5 == 0 then legal (Instr.vwidr (fld w 20 6) (fld w 14 6) (fld w 5 4)) else .error .field
  | 0x4 => if num w 9 5 == 0 then legal (Instr.vcvtf (fld w 20 6) (fld w 14 6) (fld w 5 4)) else .error .field
  | 0x5 => if num w 9 5 == 0 then legal (Instr.vcvti (fld w 20 6) (fld w 14 6) (fld w 5 4)) else .error .field
  | 0x6 => if num w 5 4 == 0 then legal (Instr.vhad (fld w 20 6) (fld w 14 6) (fld w 11 3) (fld w 9 2)) else .error .field
  | 0x7 => if num w 5 4 == 0 then legal (Instr.vhadi (fld w 20 6) (fld w 14 6) (fld w 11 3) (fld w 9 2)) else .error .field
  | _ => .error .minor

/-- The instructions of major 0x38 (R103). -/
noncomputable def decodeVm (w : Nat) : Except Reject Instr :=
  match num w 0 4 with
  | 0x0 => legal (Instr.vld (fld w 20 6) (fld w 15 5) (fld w 10 5) (fld w 7 3) (fld w 4 3))
  | 0x1 => legal (Instr.vst (fld w 20 6) (fld w 15 5) (fld w 10 5) (fld w 7 3) (fld w 4 3))
  | 0x2 => legal (Instr.vlds (fld w 20 6) (fld w 15 5) (fld w 10 5) (fld w 7 3) (fld w 4 3))
  | 0x3 => legal (Instr.vsts (fld w 20 6) (fld w 15 5) (fld w 10 5) (fld w 7 3) (fld w 4 3))
  | 0x4 => if num w 4 3 == 0 then legal (Instr.vldf (fld w 20 6) (fld w 15 5) (fld w 10 5) (fld w 7 3)) else .error .field
  | 0x5 => if num w 4 3 == 0 then legal (Instr.vstf (fld w 20 6) (fld w 15 5) (fld w 13 2) (fld w 10 3) (fld w 7 3)) else .error .field
  | 0x6 => legal (Instr.vldb (fld w 20 6) (fld w 15 5) (fld w 10 5) (fld w 7 3) (fld w 4 3))
  | 0x7 => if num w 4 3 == 0 && num w 23 3 == 0 then legal (Instr.vldm (fld w 20 3) (fld w 15 5) (fld w 10 5) (fld w 7 3)) else .error .field
  | 0x8 => if num w 4 3 == 0 && num w 23 3 == 0 then legal (Instr.vstm (fld w 20 3) (fld w 15 5) (fld w 10 5) (fld w 7 3)) else .error .field
  | _ => .error .minor

/-- The instructions of major 0x39 (R103). -/
noncomputable def decodeVx (w : Nat) : Except Reject Instr :=
  match num w 0 3 with
  | 0x0 => legal (Instr.vldx (fld w 20 6) (fld w 15 5) (fld w 9 6) (fld w 6 3) (fld w 3 3))
  | 0x1 => legal (Instr.vstx (fld w 20 6) (fld w 15 5) (fld w 9 6) (fld w 6 3) (fld w 3 3))
  | 0x2 => legal (Instr.vstxa (fld w 20 6) (fld w 15 5) (fld w 9 6) (fld w 6 3) (fld w 3 3))
  | _ => .error .minor

/-- The instructions of major 0x3a (R103). -/
noncomputable def decodeVsq (w : Nat) : Except Reject Instr :=
  match num w 0 5 with
  | 0x0 => if num w 5 3 == 0 && num w 13 1 == 0 && num w 25 1 == 0 then legal (Instr.vmovs (fld w 20 5) (fld w 14 6) (fld w 8 5)) else .error .field
  | 0x1 => if num w 5 3 == 0 && num w 13 1 == 0 && num w 19 1 == 0 then legal (Instr.vmovv (fld w 20 6) (fld w 14 5) (fld w 8 5)) else .error .field
  | 0x2 => if num w 5 9 == 0 && num w 19 1 == 0 && num w 23 3 == 0 then legal (Instr.vsetl (fld w 20 3) (fld w 14 5)) else .error .field
  | 0x3 => if num w 5 3 == 0 && num w 19 1 == 0 then legal (Instr.vloop (fld w 20 6) (fld w 14 5) (fld w 8 6)) else .error .field
  | 0x4 => if num w 5 15 == 0 && num w 25 1 == 0 then legal (Instr.vbind (fld w 20 5)) else .error .field
  | 0x5 => if num w 5 21 == 0 then legal (Instr.vfree) else .error .field
  | 0x6 => if num w 5 15 == 0 && num w 22 4 == 0 then legal (Instr.vtype (fld w 20 2)) else .error .field
  | 0x7 => if num w 5 21 == 0 then legal (Instr.gang) else .error .field
  | 0x8 => if num w 5 21 == 0 then legal (Instr.ungang) else .error .field
  | 0x9 => if num w 5 21 == 0 then legal (Instr.vwait) else .error .field
  | 0xa => if num w 8 12 == 0 then legal (Instr.vzero (fld w 20 6) (fld w 5 3)) else .error .field
  | 0xb => if num w 5 9 == 0 && num w 17 3 == 0 && num w 25 1 == 0 then legal (Instr.vpopm (fld w 20 5) (fld w 14 3)) else .error .field
  | 0xc => if num w 5 3 == 0 && num w 9 5 == 0 && num w 17 3 == 0 && num w 25 1 == 0 then legal (Instr.vmmovs (fld w 20 5) (fld w 14 3) (fld w 8 1)) else .error .field
  | 0xd => if num w 5 3 == 0 && num w 9 5 == 0 && num w 19 1 == 0 && num w 23 3 == 0 then legal (Instr.vsmovm (fld w 20 3) (fld w 14 5) (fld w 8 1)) else .error .field
  | _ => .error .minor

/-- The instructions of major 0x3c (R103). -/
noncomputable def decodeXe (w : Nat) : Except Reject Instr :=
  match num w 18 8 with
  | 0x0 => if num w 13 5 == 2 then legal (Instr.msetMout (fld w 10 3) (fld w 5 5) (fld w 0 5)) else if num w 0 5 == 0 && num w 10 3 == 0 then legal (Instr.mset (fld w 13 5) (fld w 5 5)) else .error .field
  | 0x1 => if num w 0 5 == 0 && num w 10 3 == 0 then legal (Instr.mget (fld w 13 5) (fld w 5 5)) else .error .field
  | 0x2 => if num w 0 10 == 0 && num w 13 5 == 0 then legal (Instr.mma (fld w 12 1) (fld w 11 1) (fld w 10 1)) else .error .field
  | 0x3 => if num w 0 10 == 0 && num w 13 5 == 0 then legal (Instr.mmas (fld w 12 1) (fld w 11 1) (fld w 10 1)) else .error .field
  | 0x4 => if num w 0 10 == 0 && num w 13 5 == 0 then legal (Instr.mmr (fld w 12 1) (fld w 11 1) (fld w 10 1)) else .error .field
  | 0x5 => if num w 0 10 == 0 && num w 11 7 == 0 then legal (Instr.mzero (fld w 10 1)) else .error .field
  | 0x10 => if num w 13 2 == 0 then legal (Instr.glset (fld w 15 3) (fld w 10 3) (fld w 5 5) (fld w 0 5)) else .error .field
  | 0x11 => if num w 0 5 == 0 && num w 12 3 == 0 then legal (Instr.glget (fld w 15 3) (fld w 10 2) (fld w 5 5)) else .error .field
  | 0x12 => if num w 0 4 == 0 && num w 10 5 == 0 then legal (Instr.glpushv (fld w 15 3) (fld w 4 6)) else .error .field
  | 0x13 => if num w 0 5 == 0 && num w 10 5 == 0 then legal (Instr.glpopd (fld w 15 3) (fld w 5 5)) else .error .field
  | 0x14 => if num w 0 5 == 0 && num w 10 5 == 0 then legal (Instr.glhead (fld w 15 3) (fld w 5 5)) else .error .field
  | 0x15 => if num w 0 5 == 0 && num w 10 5 == 0 then legal (Instr.gltagRead (fld w 15 3) (fld w 5 5)) else if num w 0 5 == 0 && num w 10 5 == 16 then legal (Instr.gltagWrite (fld w 15 3) (fld w 5 5)) else .error .field
  | 0x16 => if num w 0 15 == 0 then legal (Instr.glflush (fld w 15 3)) else .error .field
  | 0x20 => if num w 14 4 == 0 then legal (Instr.cpsetEndpoint (fld w 13 1) (fld w 10 3) (fld w 5 5) (fld w 0 5)) else if num w 0 5 == 0 && num w 10 3 == 0 then legal (Instr.cpset (fld w 13 5) (fld w 5 5)) else .error .field
  | 0x21 => if num w 0 5 == 0 && num w 10 3 == 0 then legal (Instr.cpget (fld w 13 5) (fld w 5 5)) else .error .field
  | 0x22 => if num w 0 5 == 0 && num w 10 8 == 0 then legal (Instr.cplaunch (fld w 5 5)) else .error .field
  | 0x23 => if num w 10 8 == 0 then legal (Instr.cpwp (fld w 5 5) (fld w 0 5)) else .error .field
  | 0x24 => if num w 10 8 == 0 then legal (Instr.cpstat (fld w 5 5) (fld w 0 5)) else .error .field
  | 0x25 => if num w 10 8 == 0 then legal (Instr.cpcancel (fld w 5 5) (fld w 0 5)) else .error .field
  | 0x26 => if num w 0 5 == 0 && num w 10 8 == 0 then legal (Instr.cpwaitid (fld w 5 5)) else .error .field
  | 0x30 => if num w 15 3 == 0 then legal (Instr.tbload (fld w 13 2) (fld w 10 3) (fld w 5 5) (fld w 0 5)) else .error .field
  | 0x31 => if num w 0 5 == 0 && num w 10 3 == 0 && num w 15 3 == 0 then legal (Instr.tbinfo (fld w 13 2) (fld w 5 5)) else .error .field
  | 0x50 => if num w 13 5 == 0 then legal (Instr.treg (fld w 10 3) (fld w 5 5) (fld w 0 5)) else .error .field
  | 0x51 => if num w 0 5 == 0 && num w 10 8 == 0 then legal (Instr.tfree (fld w 5 5)) else .error .field
  | 0x52 => if num w 11 7 == 0 then legal (Instr.tacqr (fld w 10 1) (fld w 5 5) (fld w 0 5)) else .error .field
  | 0x53 => if num w 0 5 == 0 && num w 11 7 == 0 then legal (Instr.tacqw (fld w 10 1) (fld w 5 5)) else .error .field
  | 0x54 => if num w 0 5 == 0 && num w 10 8 == 0 then legal (Instr.trel (fld w 5 5)) else .error .field
  | 0x55 => if num w 0 5 == 0 && num w 10 8 == 0 then legal (Instr.tabnd (fld w 5 5)) else .error .field
  | 0x56 => if num w 10 8 == 0 then legal (Instr.tsplit (fld w 5 5) (fld w 0 5)) else .error .field
  | 0x57 => if num w 0 5 == 0 && num w 10 8 == 0 then legal (Instr.tjoin (fld w 5 5)) else .error .field
  | 0x58 => if num w 10 8 == 0 then legal (Instr.trecl (fld w 5 5) (fld w 0 5)) else .error .field
  | 0x59 => if num w 10 8 == 0 then legal (Instr.tstat (fld w 5 5) (fld w 0 5)) else .error .field
  | 0x5a => if num w 0 5 == 0 && num w 10 8 == 0 then legal (Instr.tver (fld w 5 5)) else .error .field
  | 0x5b => legal (Instr.tstv (fld w 13 5) (fld w 10 3) (fld w 5 5) (fld w 0 5))
  | 0x5c => legal (Instr.tldv (fld w 13 5) (fld w 10 3) (fld w 5 5) (fld w 0 5))
  | 0x60 => if num w 13 5 == 0 then legal (Instr.tspawn (fld w 10 3) (fld w 5 5) (fld w 0 5)) else .error .field
  | 0x61 => if num w 0 18 == 0 then legal (Instr.texit) else .error .field
  | 0x62 => if num w 11 7 == 0 then legal (Instr.msend (fld w 10 1) (fld w 5 5) (fld w 0 5)) else .error .field
  | 0x63 => if num w 10 8 == 0 then legal (Instr.cntset (fld w 5 5) (fld w 0 5)) else .error .field
  | 0x64 => if num w 0 5 == 0 && num w 10 8 == 1 then legal (Instr.cntgetIn (fld w 5 5)) else if num w 10 8 == 0 then legal (Instr.cntget (fld w 5 5) (fld w 0 5)) else .error .field
  | 0x65 => if num w 0 18 == 0 then legal (Instr.barr) else .error .field
  | 0x66 => if num w 0 5 == 0 && num w 10 8 == 0 then legal (Instr.sqend (fld w 5 5)) else .error .field
  | 0x70 => if num w 10 8 == 0 then legal (Instr.gwq (fld w 5 5) (fld w 0 5)) else .error .field
  | 0x71 => if num w 10 8 == 0 then legal (Instr.barq (fld w 5 5) (fld w 0 5)) else .error .field
  | 0x72 => if num w 10 8 == 0 then legal (Instr.gwsend (fld w 5 5) (fld w 0 5)) else .error .field
  | _ => .error .minor

/-- The instructions of major 0x3d (R103). -/
noncomputable def decodeGate (w : Nat) : Except Reject Instr :=
  match num w 0 11 with
  | 0x0 => if num w 21 5 == 0 then legal (Instr.gcall (fld w 16 5) (fld w 11 5)) else .error .field
  | 0x1 => if num w 11 15 == 0 then legal (Instr.gret) else .error .field
  | 0x2 => if num w 14 2 == 0 then legal (Instr.gpub (fld w 21 5) (fld w 16 5) (fld w 11 3)) else .error .field
  | 0x3 => if num w 11 5 == 0 then legal (Instr.gwdr (fld w 21 5) (fld w 16 5)) else .error .field
  | 0x4 => if num w 11 5 == 0 then legal (Instr.gstat (fld w 21 5) (fld w 16 5)) else .error .field
  | 0x5 => legal (Instr.gwin (fld w 21 5) (fld w 16 5) (fld w 11 5))
  | _ => .error .minor

/-- The instructions of major 0x3e (R103). -/
noncomputable def decodeSys (w : Nat) : Except Reject Instr :=
  match num w 0 16 with
  | 0x0 => legal (Instr.wait (fld w 21 5) (fld w 16 5))
  | 0x1 => if num w 16 10 == 0 then legal (Instr.yield) else .error .field
  | 0x2 => if num w 21 5 == 0 then legal (Instr.trap (fld w 16 5)) else .error .field
  | 0x3 => if num w 16 10 == 0 then legal (Instr.tret) else .error .field
  | 0x4 => if num w 16 10 == 0 then legal (Instr.uiret) else .error .field
  | 0x5 => if num w 16 10 == 0 then legal (Instr.halt) else .error .field
  | 0x6 => if num w 24 2 == 0 then legal (Instr.flushl (fld w 21 3) (fld w 16 5)) else .error .field
  | 0x7 => if num w 24 2 == 0 then legal (Instr.invl (fld w 21 3) (fld w 16 5)) else .error .field
  | 0x8 => if num w 23 3 == 0 then legal (Instr.pginv (fld w 21 2) (fld w 16 5)) else .error .field
  | 0x9 => legal (Instr.slotgo (fld w 21 5) (fld w 16 5))
  | 0xa => legal (Instr.slotkill (fld w 21 5) (fld w 16 5))
  | 0xb => legal (Instr.slotrd (fld w 21 5) (fld w 16 5))
  | 0xc => legal (Instr.slotwr (fld w 21 5) (fld w 16 5))
  | 0xd => legal (Instr.quoin (fld w 21 5) (fld w 16 5))
  | 0xe => legal (Instr.wrevk (fld w 21 5) (fld w 16 5))
  | 0xf => legal (Instr.cxsave (fld w 21 5) (fld w 16 5))
  | 0x10 => legal (Instr.cxrest (fld w 21 5) (fld w 16 5))
  | 0x11 => legal (Instr.keyld (fld w 21 5) (fld w 16 5))
  | 0x12 => legal (Instr.evsel (fld w 21 5) (fld w 16 5))
  | 0x13 => legal (Instr.svpost (fld w 21 5) (fld w 16 5))
  | 0x14 => legal (Instr.bankset (fld w 21 5) (fld w 16 5))
  | _ => .error .minor

/-- The decoder of a barrel-core slot, on any number read as a 32-bit word (R93, R102, R107). -/
noncomputable def decode (w : Nat) : Except Reject Instr :=
  match num w 26 6 with
  | 0x1 => decodeAlu w
  | 0x2 => legal (Instr.addi (fld w 21 5) (fld w 16 5) (fld w 0 16))
  | 0x3 => legal (Instr.andi (fld w 21 5) (fld w 16 5) (fld w 0 16))
  | 0x4 => legal (Instr.ori (fld w 21 5) (fld w 16 5) (fld w 0 16))
  | 0x5 => legal (Instr.xori (fld w 21 5) (fld w 16 5) (fld w 0 16))
  | 0x6 => decodeShi w
  | 0x7 => if num w 16 5 == 0 then legal (Instr.movi (fld w 21 5) (fld w 0 16)) else .error .field
  | 0x8 => if num w 18 3 == 0 then legal (Instr.lit (fld w 21 5) (fld w 16 2) (fld w 0 16)) else .error .field
  | 0x9 => legal (Instr.slti (fld w 21 5) (fld w 16 5) (fld w 0 16))
  | 0xa => legal (Instr.sltni (fld w 21 5) (fld w 16 5) (fld w 0 16))
  | 0xb => decodeMulDiv w
  | 0xc => decodeBits w
  | 0xd => decodePtr w
  | 0xe => if num w 16 5 == 0 then legal (Instr.mfsr (fld w 21 5) (fld w 0 16)) else .error .field
  | 0xf => if num w 21 5 == 0 then legal (Instr.mtsr (fld w 16 5) (fld w 0 16)) else .error .field
  | 0x10 => legal (Instr.beq (fld w 21 5) (fld w 16 5) (fld w 0 16))
  | 0x11 => legal (Instr.bne (fld w 21 5) (fld w 16 5) (fld w 0 16))
  | 0x12 => legal (Instr.blt (fld w 21 5) (fld w 16 5) (fld w 0 16))
  | 0x13 => legal (Instr.bge (fld w 21 5) (fld w 16 5) (fld w 0 16))
  | 0x14 => legal (Instr.bltn (fld w 21 5) (fld w 16 5) (fld w 0 16))
  | 0x15 => legal (Instr.bgen (fld w 21 5) (fld w 16 5) (fld w 0 16))
  | 0x16 => legal (Instr.j (fld w 0 26))
  | 0x17 => legal (Instr.jal (fld w 0 26))
  | 0x18 => decodeJrGroup w
  | 0x19 => if num w 17 4 == 0 then legal (Instr.loop (fld w 21 5) (fld w 16 1) (fld w 0 16)) else .error .field
  | 0x20 => legal (Instr.ldb (fld w 21 5) (fld w 16 5) (fld w 13 3) (fld w 11 2) (fld w 0 11))
  | 0x21 => legal (Instr.ldbn (fld w 21 5) (fld w 16 5) (fld w 13 3) (fld w 11 2) (fld w 0 11))
  | 0x22 => legal (Instr.ldh (fld w 21 5) (fld w 16 5) (fld w 13 3) (fld w 11 2) (fld w 0 11))
  | 0x23 => legal (Instr.ldhn (fld w 21 5) (fld w 16 5) (fld w 13 3) (fld w 11 2) (fld w 0 11))
  | 0x24 => legal (Instr.ldw (fld w 21 5) (fld w 16 5) (fld w 13 3) (fld w 11 2) (fld w 0 11))
  | 0x25 => legal (Instr.ldwn (fld w 21 5) (fld w 16 5) (fld w 13 3) (fld w 11 2) (fld w 0 11))
  | 0x26 => legal (Instr.ldd (fld w 21 5) (fld w 16 5) (fld w 13 3) (fld w 11 2) (fld w 0 11))
  | 0x27 => legal (Instr.stb (fld w 21 5) (fld w 16 5) (fld w 13 3) (fld w 11 2) (fld w 0 11))
  | 0x28 => legal (Instr.sth (fld w 21 5) (fld w 16 5) (fld w 13 3) (fld w 11 2) (fld w 0 11))
  | 0x29 => legal (Instr.stw (fld w 21 5) (fld w 16 5) (fld w 13 3) (fld w 11 2) (fld w 0 11))
  | 0x2a => legal (Instr.std (fld w 21 5) (fld w 16 5) (fld w 13 3) (fld w 11 2) (fld w 0 11))
  | 0x2b => if num w 2 1 == 0 && num w 11 5 == 0 then legal (Instr.ldo (fld w 21 5) (fld w 16 5) (fld w 8 3) (fld w 6 2) (fld w 3 3) (fld w 0 2)) else .error .field
  | 0x2c => if num w 2 1 == 0 && num w 11 5 == 0 then legal (Instr.sto (fld w 21 5) (fld w 16 5) (fld w 8 3) (fld w 6 2) (fld w 3 3) (fld w 0 2)) else .error .field
  | 0x2d => decodeAmo w
  | 0x2e => decodeAmow w
  | 0x2f => if num w 0 3 == 0 && num w 8 18 == 0 then legal (Instr.fence (fld w 6 2) (fld w 3 3)) else .error .field
  | 0x30 => decodeVF32 w
  | 0x31 => decodeVBF16 w
  | 0x32 => decodeVF16 w
  | 0x33 => decodeVI32 w
  | 0x34 => decodeVI16 w
  | 0x35 => decodeVI8 w
  | 0x36 => decodeVxl w
  | 0x37 => decodeVcv w
  | 0x38 => decodeVm w
  | 0x39 => decodeVx w
  | 0x3a => decodeVsq w
  | 0x3c => decodeXe w
  | 0x3d => decodeGate w
  | 0x3e => decodeSys w
  | _ => .error .major

/-- The word of an instruction with no field (R94). -/
def word0 (base : Nat) : Option Nat := some base

/-- The word of an instruction with 1 field: its fixed bits and each field at its lowest bit (R94). -/
def word1 {n1 : Nat} (base : Nat) (x1 : BitVec n1) (l1 : Nat) : Option Nat :=
  some (base + x1.toNat * 2 ^ l1)

/-- The word of an instruction with 2 fields: its fixed bits and each field at its lowest bit (R94). -/
def word2 {n1 n2 : Nat} (base : Nat) (x1 : BitVec n1) (l1 : Nat) (x2 : BitVec n2) (l2 : Nat) : Option Nat :=
  some (base + x1.toNat * 2 ^ l1 + x2.toNat * 2 ^ l2)

/-- The word of an instruction with 3 fields: its fixed bits and each field at its lowest bit (R94). -/
def word3 {n1 n2 n3 : Nat} (base : Nat) (x1 : BitVec n1) (l1 : Nat) (x2 : BitVec n2) (l2 : Nat) (x3 : BitVec n3) (l3 : Nat) : Option Nat :=
  some (base + x1.toNat * 2 ^ l1 + x2.toNat * 2 ^ l2 + x3.toNat * 2 ^ l3)

/-- The word of an instruction with 4 fields: its fixed bits and each field at its lowest bit (R94). -/
def word4 {n1 n2 n3 n4 : Nat} (base : Nat) (x1 : BitVec n1) (l1 : Nat) (x2 : BitVec n2) (l2 : Nat) (x3 : BitVec n3) (l3 : Nat) (x4 : BitVec n4) (l4 : Nat) : Option Nat :=
  some (base + x1.toNat * 2 ^ l1 + x2.toNat * 2 ^ l2 + x3.toNat * 2 ^ l3 + x4.toNat * 2 ^ l4)

/-- The word of an instruction with 5 fields: its fixed bits and each field at its lowest bit (R94). -/
def word5 {n1 n2 n3 n4 n5 : Nat} (base : Nat) (x1 : BitVec n1) (l1 : Nat) (x2 : BitVec n2) (l2 : Nat) (x3 : BitVec n3) (l3 : Nat) (x4 : BitVec n4) (l4 : Nat) (x5 : BitVec n5) (l5 : Nat) : Option Nat :=
  some (base + x1.toNat * 2 ^ l1 + x2.toNat * 2 ^ l2 + x3.toNat * 2 ^ l3 + x4.toNat * 2 ^ l4 + x5.toNat * 2 ^ l5)

/-- The word of an instruction with 6 fields: its fixed bits and each field at its lowest bit (R94). -/
def word6 {n1 n2 n3 n4 n5 n6 : Nat} (base : Nat) (x1 : BitVec n1) (l1 : Nat) (x2 : BitVec n2) (l2 : Nat) (x3 : BitVec n3) (l3 : Nat) (x4 : BitVec n4) (l4 : Nat) (x5 : BitVec n5) (l5 : Nat) (x6 : BitVec n6) (l6 : Nat) : Option Nat :=
  some (base + x1.toNat * 2 ^ l1 + x2.toNat * 2 ^ l2 + x3.toNat * 2 ^ l3 + x4.toNat * 2 ^ l4 + x5.toNat * 2 ^ l5 + x6.toNat * 2 ^ l6)

/-- The word of an instruction (R94): its fixed bits and each field at its place. An event has no word. -/
def encode : Instr → Option Nat
  | .add d a b => word3 0x04000000 d 21 a 16 b 11
  | .sub d a b => word3 0x04000001 d 21 a 16 b 11
  | .and d a b => word3 0x04000002 d 21 a 16 b 11
  | .or d a b => word3 0x04000003 d 21 a 16 b 11
  | .xor d a b => word3 0x04000004 d 21 a 16 b 11
  | .andn d a b => word3 0x04000005 d 21 a 16 b 11
  | .shl d a b => word3 0x04000006 d 21 a 16 b 11
  | .shr d a b => word3 0x04000007 d 21 a 16 b 11
  | .sar d a b => word3 0x04000008 d 21 a 16 b 11
  | .rol d a b => word3 0x04000009 d 21 a 16 b 11
  | .min d a b => word3 0x0400000A d 21 a 16 b 11
  | .max d a b => word3 0x0400000B d 21 a 16 b 11
  | .minn d a b => word3 0x0400000C d 21 a 16 b 11
  | .maxn d a b => word3 0x0400000D d 21 a 16 b 11
  | .slt d a b => word3 0x0400000E d 21 a 16 b 11
  | .sltn d a b => word3 0x0400000F d 21 a 16 b 11
  | .seq d a b => word3 0x04000010 d 21 a 16 b 11
  | .sne d a b => word3 0x04000011 d 21 a 16 b 11
  | .addw d a b => word3 0x04000012 d 21 a 16 b 11
  | .subw d a b => word3 0x04000013 d 21 a 16 b 11
  | .addi d a i => word3 0x08000000 d 21 a 16 i 0
  | .andi d a i => word3 0x0C000000 d 21 a 16 i 0
  | .ori d a i => word3 0x10000000 d 21 a 16 i 0
  | .xori d a i => word3 0x14000000 d 21 a 16 i 0
  | .shli d a n => word3 0x18000000 d 21 a 16 n 0
  | .shri d a n => word3 0x18004000 d 21 a 16 n 0
  | .sari d a n => word3 0x18008000 d 21 a 16 n 0
  | .roli d a n => word3 0x1800C000 d 21 a 16 n 0
  | .movi d i => word2 0x1C000000 d 21 i 0
  | .lit d k i => word3 0x20000000 d 21 k 16 i 0
  | .slti d a i => word3 0x24000000 d 21 a 16 i 0
  | .sltni d a i => word3 0x28000000 d 21 a 16 i 0
  | .mul d a b => word3 0x2C000000 d 21 a 16 b 11
  | .mulh d a b => word3 0x2C000001 d 21 a 16 b 11
  | .mulhn d a b => word3 0x2C000002 d 21 a 16 b 11
  | .mulw d a b => word3 0x2C000003 d 21 a 16 b 11
  | .div d a b => word3 0x2C000004 d 21 a 16 b 11
  | .divn d a b => word3 0x2C000005 d 21 a 16 b 11
  | .rem d a b => word3 0x2C000006 d 21 a 16 b 11
  | .remn d a b => word3 0x2C000007 d 21 a 16 b 11
  | .divw d a b => word3 0x2C000008 d 21 a 16 b 11
  | .remw d a b => word3 0x2C000009 d 21 a 16 b 11
  | .divideDone _ => none
  | .clz d a => word2 0x30000000 d 21 a 16
  | .ctz d a => word2 0x30000001 d 21 a 16
  | .popc d a => word2 0x30000002 d 21 a 16
  | .brev d a => word2 0x30000003 d 21 a 16
  | .sextb d a => word2 0x30000004 d 21 a 16
  | .sexth d a => word2 0x30000005 d 21 a 16
  | .sextw d a => word2 0x30000006 d 21 a 16
  | .zextb d a => word2 0x30000007 d 21 a 16
  | .zexth d a => word2 0x30000008 d 21 a 16
  | .zextw d a => word2 0x30000009 d 21 a 16
  | .bfx d a b => word3 0x3000000A d 21 a 16 b 11
  | .bfi d a b => word3 0x3000000B d 21 a 16 b 11
  | .padd d a b => word3 0x34000000 d 21 a 16 b 11
  | .psub d a b => word3 0x34000001 d 21 a 16 b 11
  | .pfmt d a b => word3 0x34000002 d 21 a 16 b 11
  | .pmeta d a => word2 0x34000003 d 21 a 16
  | .pclr d a => word2 0x34000004 d 21 a 16
  | .pchk d a k => word3 0x34000005 d 21 a 16 k 11
  | .mfsr d n => word2 0x38000000 d 21 n 0
  | .mtsr a n => word2 0x3C000000 a 16 n 0
  | .beq a b o => word3 0x40000000 a 21 b 16 o 0
  | .bne a b o => word3 0x44000000 a 21 b 16 o 0
  | .blt a b o => word3 0x48000000 a 21 b 16 o 0
  | .bge a b o => word3 0x4C000000 a 21 b 16 o 0
  | .bltn a b o => word3 0x50000000 a 21 b 16 o 0
  | .bgen a b o => word3 0x54000000 a 21 b 16 o 0
  | .j o => word1 0x58000000 o 0
  | .jal o => word1 0x5C000000 o 0
  | .jr a => word1 0x60000000 a 16
  | .jalr d a => word2 0x60000001 d 21 a 16
  | .loop a n o => word3 0x64000000 a 21 n 16 o 0
  | .ldb d a s h o => word5 0x80000000 d 21 a 16 s 13 h 11 o 0
  | .ldbn d a s h o => word5 0x84000000 d 21 a 16 s 13 h 11 o 0
  | .ldh d a s h o => word5 0x88000000 d 21 a 16 s 13 h 11 o 0
  | .ldhn d a s h o => word5 0x8C000000 d 21 a 16 s 13 h 11 o 0
  | .ldw d a s h o => word5 0x90000000 d 21 a 16 s 13 h 11 o 0
  | .ldwn d a s h o => word5 0x94000000 d 21 a 16 s 13 h 11 o 0
  | .ldd d a s h o => word5 0x98000000 d 21 a 16 s 13 h 11 o 0
  | .stb d a s h o => word5 0x9C000000 d 21 a 16 s 13 h 11 o 0
  | .sth d a s h o => word5 0xA0000000 d 21 a 16 s 13 h 11 o 0
  | .stw d a s h o => word5 0xA4000000 d 21 a 16 s 13 h 11 o 0
  | .std d a s h o => word5 0xA8000000 d 21 a 16 s 13 h 11 o 0
  | .memoryReply _ => none
  | .ldo d a g p c w => word6 0xAC000000 d 21 a 16 g 8 p 6 c 3 w 0
  | .sto d a g p c w => word6 0xB0000000 d 21 a 16 g 8 p 6 c 3 w 0
  | .amoadd d a b g p c => word6 0xB4000000 d 21 a 16 b 11 g 8 p 6 c 3
  | .amoand d a b g p c => word6 0xB4000001 d 21 a 16 b 11 g 8 p 6 c 3
  | .amoor d a b g p c => word6 0xB4000002 d 21 a 16 b 11 g 8 p 6 c 3
  | .amoxor d a b g p c => word6 0xB4000003 d 21 a 16 b 11 g 8 p 6 c 3
  | .amomin d a b g p c => word6 0xB4000004 d 21 a 16 b 11 g 8 p 6 c 3
  | .amomax d a b g p c => word6 0xB4000005 d 21 a 16 b 11 g 8 p 6 c 3
  | .amoswp d a b g p c => word6 0xB4000006 d 21 a 16 b 11 g 8 p 6 c 3
  | .amocas d a b g p c => word6 0xB4000007 d 21 a 16 b 11 g 8 p 6 c 3
  | .amowadd d a b g p c => word6 0xB8000000 d 21 a 16 b 11 g 8 p 6 c 3
  | .amowand d a b g p c => word6 0xB8000001 d 21 a 16 b 11 g 8 p 6 c 3
  | .amowor d a b g p c => word6 0xB8000002 d 21 a 16 b 11 g 8 p 6 c 3
  | .amowxor d a b g p c => word6 0xB8000003 d 21 a 16 b 11 g 8 p 6 c 3
  | .amowmin d a b g p c => word6 0xB8000004 d 21 a 16 b 11 g 8 p 6 c 3
  | .amowmax d a b g p c => word6 0xB8000005 d 21 a 16 b 11 g 8 p 6 c 3
  | .amowswp d a b g p c => word6 0xB8000006 d 21 a 16 b 11 g 8 p 6 c 3
  | .amowcas d a b g p c => word6 0xB8000007 d 21 a 16 b 11 g 8 p 6 c 3
  | .fence p c => word2 0xBC000000 p 6 c 3
  | .vaddF32 d a b m => word4 0xC0000000 d 20 a 14 b 8 m 5
  | .vsubF32 d a b m => word4 0xC0000001 d 20 a 14 b 8 m 5
  | .vmulF32 d a b m => word4 0xC0000002 d 20 a 14 b 8 m 5
  | .vfmaF32 d a b m => word4 0xC0000003 d 20 a 14 b 8 m 5
  | .vfmsF32 d a b m => word4 0xC0000004 d 20 a 14 b 8 m 5
  | .vminF32 d a b m => word4 0xC0000005 d 20 a 14 b 8 m 5
  | .vmaxF32 d a b m => word4 0xC0000006 d 20 a 14 b 8 m 5
  | .vabsF32 d a m => word3 0xC0000007 d 20 a 14 m 5
  | .vnegF32 d a m => word3 0xC0000008 d 20 a 14 m 5
  | .vdivF32 d a b m => word4 0xC0000009 d 20 a 14 b 8 m 5
  | .vsqrtF32 d a m => word3 0xC000000A d 20 a 14 m 5
  | .vsinF32 d a m => word3 0xC000000B d 20 a 14 m 5
  | .vcosF32 d a m => word3 0xC000000C d 20 a 14 m 5
  | .vexp2F32 d a m => word3 0xC000000D d 20 a 14 m 5
  | .vcmpeqF32 d a b m => word4 0xC000000E d 20 a 14 b 8 m 5
  | .vcmpltF32 d a b m => word4 0xC000000F d 20 a 14 b 8 m 5
  | .vcmpleF32 d a b m => word4 0xC0000010 d 20 a 14 b 8 m 5
  | .vcmpunF32 d a b m => word4 0xC0000011 d 20 a 14 b 8 m 5
  | .vselF32 d a b m => word4 0xC0000012 d 20 a 14 b 8 m 5
  | .vaddBf16 d a b m => word4 0xC4000000 d 20 a 14 b 8 m 5
  | .vsubBf16 d a b m => word4 0xC4000001 d 20 a 14 b 8 m 5
  | .vmulBf16 d a b m => word4 0xC4000002 d 20 a 14 b 8 m 5
  | .vfmaBf16 d a b m => word4 0xC4000003 d 20 a 14 b 8 m 5
  | .vfmsBf16 d a b m => word4 0xC4000004 d 20 a 14 b 8 m 5
  | .vminBf16 d a b m => word4 0xC4000005 d 20 a 14 b 8 m 5
  | .vmaxBf16 d a b m => word4 0xC4000006 d 20 a 14 b 8 m 5
  | .vabsBf16 d a m => word3 0xC4000007 d 20 a 14 m 5
  | .vnegBf16 d a m => word3 0xC4000008 d 20 a 14 m 5
  | .vdivBf16 d a b m => word4 0xC4000009 d 20 a 14 b 8 m 5
  | .vsqrtBf16 d a m => word3 0xC400000A d 20 a 14 m 5
  | .vsinBf16 d a m => word3 0xC400000B d 20 a 14 m 5
  | .vcosBf16 d a m => word3 0xC400000C d 20 a 14 m 5
  | .vexp2Bf16 d a m => word3 0xC400000D d 20 a 14 m 5
  | .vcmpeqBf16 d a b m => word4 0xC400000E d 20 a 14 b 8 m 5
  | .vcmpltBf16 d a b m => word4 0xC400000F d 20 a 14 b 8 m 5
  | .vcmpleBf16 d a b m => word4 0xC4000010 d 20 a 14 b 8 m 5
  | .vcmpunBf16 d a b m => word4 0xC4000011 d 20 a 14 b 8 m 5
  | .vselBf16 d a b m => word4 0xC4000012 d 20 a 14 b 8 m 5
  | .vaddF16 d a b m => word4 0xC8000000 d 20 a 14 b 8 m 5
  | .vsubF16 d a b m => word4 0xC8000001 d 20 a 14 b 8 m 5
  | .vmulF16 d a b m => word4 0xC8000002 d 20 a 14 b 8 m 5
  | .vfmaF16 d a b m => word4 0xC8000003 d 20 a 14 b 8 m 5
  | .vfmsF16 d a b m => word4 0xC8000004 d 20 a 14 b 8 m 5
  | .vminF16 d a b m => word4 0xC8000005 d 20 a 14 b 8 m 5
  | .vmaxF16 d a b m => word4 0xC8000006 d 20 a 14 b 8 m 5
  | .vabsF16 d a m => word3 0xC8000007 d 20 a 14 m 5
  | .vnegF16 d a m => word3 0xC8000008 d 20 a 14 m 5
  | .vdivF16 d a b m => word4 0xC8000009 d 20 a 14 b 8 m 5
  | .vsqrtF16 d a m => word3 0xC800000A d 20 a 14 m 5
  | .vsinF16 d a m => word3 0xC800000B d 20 a 14 m 5
  | .vcosF16 d a m => word3 0xC800000C d 20 a 14 m 5
  | .vexp2F16 d a m => word3 0xC800000D d 20 a 14 m 5
  | .vcmpeqF16 d a b m => word4 0xC800000E d 20 a 14 b 8 m 5
  | .vcmpltF16 d a b m => word4 0xC800000F d 20 a 14 b 8 m 5
  | .vcmpleF16 d a b m => word4 0xC8000010 d 20 a 14 b 8 m 5
  | .vcmpunF16 d a b m => word4 0xC8000011 d 20 a 14 b 8 m 5
  | .vselF16 d a b m => word4 0xC8000012 d 20 a 14 b 8 m 5
  | .vaddI32 d a b m => word4 0xCC000000 d 20 a 14 b 8 m 5
  | .vsubI32 d a b m => word4 0xCC000001 d 20 a 14 b 8 m 5
  | .vmulI32 d a b m => word4 0xCC000002 d 20 a 14 b 8 m 5
  | .vmulhI32 d a b m => word4 0xCC000003 d 20 a 14 b 8 m 5
  | .vminI32 d a b m => word4 0xCC000004 d 20 a 14 b 8 m 5
  | .vmaxI32 d a b m => word4 0xCC000005 d 20 a 14 b 8 m 5
  | .vminnI32 d a b m => word4 0xCC000006 d 20 a 14 b 8 m 5
  | .vmaxnI32 d a b m => word4 0xCC000007 d 20 a 14 b 8 m 5
  | .vandI32 d a b m => word4 0xCC000008 d 20 a 14 b 8 m 5
  | .vorI32 d a b m => word4 0xCC000009 d 20 a 14 b 8 m 5
  | .vxorI32 d a b m => word4 0xCC00000A d 20 a 14 b 8 m 5
  | .vshlI32 d a b m => word4 0xCC00000B d 20 a 14 b 8 m 5
  | .vshrI32 d a b m => word4 0xCC00000C d 20 a 14 b 8 m 5
  | .vsarI32 d a b m => word4 0xCC00000D d 20 a 14 b 8 m 5
  | .vcmpeqI32 d a b m => word4 0xCC00000E d 20 a 14 b 8 m 5
  | .vcmpltI32 d a b m => word4 0xCC00000F d 20 a 14 b 8 m 5
  | .vcmpltnI32 d a b m => word4 0xCC000010 d 20 a 14 b 8 m 5
  | .vselI32 d a b m => word4 0xCC000011 d 20 a 14 b 8 m 5
  | .vaddsI32 d a b m => word4 0xCC000012 d 20 a 14 b 8 m 5
  | .vsubsI32 d a b m => word4 0xCC000013 d 20 a 14 b 8 m 5
  | .vaddI16 d a b m => word4 0xD0000000 d 20 a 14 b 8 m 5
  | .vsubI16 d a b m => word4 0xD0000001 d 20 a 14 b 8 m 5
  | .vmulI16 d a b m => word4 0xD0000002 d 20 a 14 b 8 m 5
  | .vmulhI16 d a b m => word4 0xD0000003 d 20 a 14 b 8 m 5
  | .vminI16 d a b m => word4 0xD0000004 d 20 a 14 b 8 m 5
  | .vmaxI16 d a b m => word4 0xD0000005 d 20 a 14 b 8 m 5
  | .vminnI16 d a b m => word4 0xD0000006 d 20 a 14 b 8 m 5
  | .vmaxnI16 d a b m => word4 0xD0000007 d 20 a 14 b 8 m 5
  | .vandI16 d a b m => word4 0xD0000008 d 20 a 14 b 8 m 5
  | .vorI16 d a b m => word4 0xD0000009 d 20 a 14 b 8 m 5
  | .vxorI16 d a b m => word4 0xD000000A d 20 a 14 b 8 m 5
  | .vshlI16 d a b m => word4 0xD000000B d 20 a 14 b 8 m 5
  | .vshrI16 d a b m => word4 0xD000000C d 20 a 14 b 8 m 5
  | .vsarI16 d a b m => word4 0xD000000D d 20 a 14 b 8 m 5
  | .vcmpeqI16 d a b m => word4 0xD000000E d 20 a 14 b 8 m 5
  | .vcmpltI16 d a b m => word4 0xD000000F d 20 a 14 b 8 m 5
  | .vcmpltnI16 d a b m => word4 0xD0000010 d 20 a 14 b 8 m 5
  | .vselI16 d a b m => word4 0xD0000011 d 20 a 14 b 8 m 5
  | .vaddsI16 d a b m => word4 0xD0000012 d 20 a 14 b 8 m 5
  | .vsubsI16 d a b m => word4 0xD0000013 d 20 a 14 b 8 m 5
  | .vaddI8 d a b m => word4 0xD4000000 d 20 a 14 b 8 m 5
  | .vsubI8 d a b m => word4 0xD4000001 d 20 a 14 b 8 m 5
  | .vmulI8 d a b m => word4 0xD4000002 d 20 a 14 b 8 m 5
  | .vmulhI8 d a b m => word4 0xD4000003 d 20 a 14 b 8 m 5
  | .vminI8 d a b m => word4 0xD4000004 d 20 a 14 b 8 m 5
  | .vmaxI8 d a b m => word4 0xD4000005 d 20 a 14 b 8 m 5
  | .vminnI8 d a b m => word4 0xD4000006 d 20 a 14 b 8 m 5
  | .vmaxnI8 d a b m => word4 0xD4000007 d 20 a 14 b 8 m 5
  | .vandI8 d a b m => word4 0xD4000008 d 20 a 14 b 8 m 5
  | .vorI8 d a b m => word4 0xD4000009 d 20 a 14 b 8 m 5
  | .vxorI8 d a b m => word4 0xD400000A d 20 a 14 b 8 m 5
  | .vshlI8 d a b m => word4 0xD400000B d 20 a 14 b 8 m 5
  | .vshrI8 d a b m => word4 0xD400000C d 20 a 14 b 8 m 5
  | .vsarI8 d a b m => word4 0xD400000D d 20 a 14 b 8 m 5
  | .vcmpeqI8 d a b m => word4 0xD400000E d 20 a 14 b 8 m 5
  | .vcmpltI8 d a b m => word4 0xD400000F d 20 a 14 b 8 m 5
  | .vcmpltnI8 d a b m => word4 0xD4000010 d 20 a 14 b 8 m 5
  | .vselI8 d a b m => word4 0xD4000011 d 20 a 14 b 8 m 5
  | .vaddsI8 d a b m => word4 0xD4000012 d 20 a 14 b 8 m 5
  | .vsubsI8 d a b m => word4 0xD4000013 d 20 a 14 b 8 m 5
  | .vperm d a b m => word4 0xD8000000 d 20 a 14 b 8 m 5
  | .vslideup d a b m => word4 0xD8000001 d 20 a 14 b 8 m 5
  | .vslidedn d a b m => word4 0xD8000002 d 20 a 14 b 8 m 5
  | .vbcast d a m => word3 0xD8000003 d 20 a 14 m 5
  | .vredsum d a t m => word4 0xD8000004 d 20 a 14 t 8 m 5
  | .vredmax d a t m => word4 0xD8000005 d 20 a 14 t 8 m 5
  | .vredmin d a t m => word4 0xD8000006 d 20 a 14 t 8 m 5
  | .vrediadd d a t m => word4 0xD8000007 d 20 a 14 t 8 m 5
  | .vinterl d a b m => word4 0xD8000008 d 20 a 14 b 8 m 5
  | .vdeint d a m => word3 0xD8000009 d 20 a 14 m 5
  | .mand d a b => word3 0xD800000A d 20 a 14 b 8
  | .mor d a b => word3 0xD800002A d 20 a 14 b 8
  | .mxor d a b => word3 0xD800004A d 20 a 14 b 8
  | .mandn d a b => word3 0xD800006A d 20 a 14 b 8
  | .mnot d a => word2 0xD800008A d 20 a 14
  | .mlow d a => word2 0xD80000AA d 20 a 14
  | .mbelow d a => word2 0xD80000CA d 20 a 14
  | .vtbl d a t k m => word5 0xD800000B d 20 a 14 t 10 k 8 m 5
  | .vnar d a s k c => word5 0xDC000000 d 20 a 14 s 11 k 9 c 5
  | .vnars d a s k c => word5 0xDC000001 d 20 a 14 s 11 k 9 c 5
  | .vwid d a s k c => word5 0xDC000002 d 20 a 14 s 11 k 9 c 5
  | .vwidr d a c => word3 0xDC000003 d 20 a 14 c 5
  | .vcvtf d a c => word3 0xDC000004 d 20 a 14 c 5
  | .vcvti d a c => word3 0xDC000005 d 20 a 14 c 5
  | .vhad d a s k => word4 0xDC000006 d 20 a 14 s 11 k 9
  | .vhadi d a s k => word4 0xDC000007 d 20 a 14 s 11 k 9
  | .vld v a b g m => word5 0xE0000000 v 20 a 15 b 10 g 7 m 4
  | .vst v a b g m => word5 0xE0000001 v 20 a 15 b 10 g 7 m 4
  | .vlds v a b g m => word5 0xE0000002 v 20 a 15 b 10 g 7 m 4
  | .vsts v a b g m => word5 0xE0000003 v 20 a 15 b 10 g 7 m 4
  | .vldf v a b g => word4 0xE0000004 v 20 a 15 b 10 g 7
  | .vstf v a k s g => word5 0xE0000005 v 20 a 15 k 13 s 10 g 7
  | .vldb v a b g m => word5 0xE0000006 v 20 a 15 b 10 g 7 m 4
  | .vldm v a b g => word4 0xE0000007 v 20 a 15 b 10 g 7
  | .vstm v a b g => word4 0xE0000008 v 20 a 15 b 10 g 7
  | .vldx v a i g m => word5 0xE4000000 v 20 a 15 i 9 g 6 m 3
  | .vstx v a i g m => word5 0xE4000001 v 20 a 15 i 9 g 6 m 3
  | .vstxa v a i g m => word5 0xE4000002 v 20 a 15 i 9 g 6 m 3
  | .vmovs d a b => word3 0xE8000000 d 20 a 14 b 8
  | .vmovv v a b => word3 0xE8000001 v 20 a 14 b 8
  | .vsetl d a => word2 0xE8000002 d 20 a 14
  | .vloop n a s => word3 0xE8000003 n 20 a 14 s 8
  | .vbind d => word1 0xE8000004 d 20
  | .vfree => word0 0xE8000005
  | .vtype c => word1 0xE8000006 c 20
  | .gang => word0 0xE8000007
  | .ungang => word0 0xE8000008
  | .vwait => word0 0xE8000009
  | .vzero v m => word2 0xE800000A v 20 m 5
  | .vpopm d a => word2 0xE800000B d 20 a 14
  | .vmmovs d a h => word3 0xE800000C d 20 a 14 h 8
  | .vsmovm d a h => word3 0xE800000D d 20 a 14 h 8
  | .sequencerEntryPerform _ => none
  | .mset r a => word2 0xF0000000 r 13 a 5
  | .msetMout g a b => word3 0xF0004000 g 10 a 5 b 0
  | .mget r a => word2 0xF0040000 r 13 a 5
  | .mma o c t => word3 0xF0080000 o 12 c 11 t 10
  | .mmas o c t => word3 0xF00C0000 o 12 c 11 t 10
  | .mmr o c t => word3 0xF0100000 o 12 c 11 t 10
  | .mzero t => word1 0xF0140000 t 10
  | .matrixStart _ => none
  | .matrixComplete _ => none
  | .mmrNeighbourPush _ _ => none
  | .glset n g a b => word4 0xF0400000 n 15 g 10 a 5 b 0
  | .glget n w a => word3 0xF0440000 n 15 w 10 a 5
  | .glpushv n v => word2 0xF0480000 n 15 v 4
  | .glpopd n a => word2 0xF04C0000 n 15 a 5
  | .glhead n a => word2 0xF0500000 n 15 a 5
  | .gltagRead n a => word2 0xF0540000 n 15 a 5
  | .gltagWrite n a => word2 0xF0544000 n 15 a 5
  | .glflush n => word1 0xF0580000 n 15
  | .galleySpaceFreed _ _ => none
  | .cpset r a => word2 0xF0800000 r 13 a 5
  | .cpsetEndpoint r g a b => word4 0xF0800000 r 13 g 10 a 5 b 0
  | .cpget r a => word2 0xF0840000 r 13 a 5
  | .cplaunch a => word1 0xF0880000 a 5
  | .cpwp a b => word2 0xF08C0000 a 5 b 0
  | .cpstat a b => word2 0xF0900000 a 5 b 0
  | .cpcancel a b => word2 0xF0940000 a 5 b 0
  | .cpwaitid a => word1 0xF0980000 a 5
  | .copyWrite _ _ => none
  | .copyTransferEnd _ _ => none
  | .completionInterrupt _ => none
  | .tbload k g a b => word4 0xF0C00000 k 13 g 10 a 5 b 0
  | .tbinfo k a => word2 0xF0C40000 k 13 a 5
  | .treg g a b => word3 0xF1400000 g 10 a 5 b 0
  | .tfree a => word1 0xF1440000 a 5
  | .tacqr w a b => word3 0xF1480000 w 10 a 5 b 0
  | .tacqw w a => word2 0xF14C0000 w 10 a 5
  | .trel a => word1 0xF1500000 a 5
  | .tabnd a => word1 0xF1540000 a 5
  | .tsplit a b => word2 0xF1580000 a 5 b 0
  | .tjoin a => word1 0xF15C0000 a 5
  | .trecl a b => word2 0xF1600000 a 5 b 0
  | .tstat a b => word2 0xF1640000 a 5 b 0
  | .tver a => word1 0xF1680000 a 5
  | .tstv v g a b => word4 0xF16C0000 v 13 g 10 a 5 b 0
  | .tldv v g a b => word4 0xF1700000 v 13 g 10 a 5 b 0
  | .tokenForward _ _ _ _ => none
  | .persistentRequest _ _ _ => none
  | .frameSlotFreed _ _ => none
  | .tspawn g a b => word3 0xF1800000 g 10 a 5 b 0
  | .texit => word0 0xF1840000
  | .msend k a b => word3 0xF1880000 k 10 a 5 b 0
  | .cntset a b => word2 0xF18C0000 a 5 b 0
  | .cntget a b => word2 0xF1900000 a 5 b 0
  | .cntgetIn a => word1 0xF1900400 a 5
  | .barr => word0 0xF1940000
  | .sqend a => word1 0xF1980000 a 5
  | .gwq a b => word2 0xF1C00000 a 5 b 0
  | .barq a b => word2 0xF1C40000 a 5 b 0
  | .gwsend a b => word2 0xF1C80000 a 5 b 0
  | .gcall a b => word2 0xF4000000 a 16 b 11
  | .gret => word0 0xF4000001
  | .gpub d a k => word3 0xF4000002 d 21 a 16 k 11
  | .gwdr d a => word2 0xF4000003 d 21 a 16
  | .gstat d a => word2 0xF4000004 d 21 a 16
  | .gwin d a b => word3 0xF4000005 d 21 a 16 b 11
  | .wait d a => word2 0xF8000000 d 21 a 16
  | .yield => word0 0xF8000001
  | .trap a => word1 0xF8000002 a 16
  | .tret => word0 0xF8000003
  | .uiret => word0 0xF8000004
  | .halt => word0 0xF8000005
  | .flushl k a => word2 0xF8000006 k 21 a 16
  | .invl k a => word2 0xF8000007 k 21 a 16
  | .pginv e a => word2 0xF8000008 e 21 a 16
  | .slotgo d a => word2 0xF8000009 d 21 a 16
  | .slotkill d a => word2 0xF800000A d 21 a 16
  | .slotrd d a => word2 0xF800000B d 21 a 16
  | .slotwr d a => word2 0xF800000C d 21 a 16
  | .quoin d a => word2 0xF800000D d 21 a 16
  | .wrevk d a => word2 0xF800000E d 21 a 16
  | .cxsave d a => word2 0xF800000F d 21 a 16
  | .cxrest d a => word2 0xF8000010 d 21 a 16
  | .keyld d a => word2 0xF8000011 d 21 a 16
  | .evsel d a => word2 0xF8000012 d 21 a 16
  | .svpost d a => word2 0xF8000013 d 21 a 16
  | .bankset d a => word2 0xF8000014 d 21 a 16
  | .bankSwitchPoint _ _ => none
  | .cleanupDeadline _ => none
  | .budgetExpiry _ => none
  | .revocationPoint _ _ => none
  | .revocationDrainDone _ _ => none
  | .appCoreInterrupt _ => none
  | .accept _ => none
  | .advance _ => none
  | .bind _ => none
  | .atomicStep _ => none
  | .fenceStep _ => none
  | .publish _ => none
  | .dequeStart _ => none
  | .stealVisit _ => none
  | .gangPlace _ => none
  | .gangStart _ => none
  | .inboxDeliver _ => none
  | .inboxHoldExpiry _ => none
  | .gvtSample _ => none
  | .gvtPublish _ => none
  | .launchFetch _ => none
  | .launchEligible _ => none
  | .colophonWrite _ => none
  | .faultRecordPost _ => none
  | .walkComplete _ _ => none
  | .wakePort _ => none
  | .accessCounterHalve => none
  | .tierDemote _ _ => none
  | .tierPromote _ _ => none
  | .flipToHost _ => none
  | .flipToDevice _ => none
  | .hostAccess _ _ _ _ => none
  | .submit _ => none
  | .cancel _ => none
  | .partitionCreate _ _ => none
  | .partitionTeardown _ => none
  | .claimSupervisor _ => none
  | .claimHost _ => none
  | .claimRelease _ => none
  | .claimEscalate _ => none
  | .eventDelivery _ => none
  | .admissionWrite _ => none
  | .scrub _ => none
  | .seal _ => none
  | .openPage _ => none
  | .pageKeyInvalidOp _ => none
  | .sessionOpen _ _ _ => none
  | .sessionComplete _ _ _ _ => none
  | .heartbeat _ _ => none
  | .sessionDeadline _ => none
  | .sessionGraceEnd _ => none
  | .flitRetransmit _ => none
  | .portDown _ => none
  | .linkRetrain _ => none
  | .remoteMessageArrival _ _ _ _ _ _ => none
  | .reductionBlockArrival _ _ => none
  | .deviceFault _ _ => none
  | .thresholdCrossing _ _ => none
  | .thermalThrottle _ _ => none
  | .voltageDroop _ => none
  | .moduleReset => none
  | .powerOff => none
  | .counterWindowSelect _ _ => none
  | .registerWrite _ _ => none
  | .waitTimerExpiry _ => none
  | .softError _ _ => none
  | .peerMemoryAccess _ _ _ _ _ => none
  | .cxlCacheSnoop _ _ _ _ => none
  | .voltageRecovery _ => none

/-- The little-endian value of the bytes of a word (R93). -/
def wordOfBytes : List (BitVec 8) → Nat
  | [] => 0
  | b :: bs => b.toNat + 256 * wordOfBytes bs

/-- The n bytes of a number, least significant first (R6). -/
def bytesOfNat : Nat → Nat → List (BitVec 8)
  | 0, _ => []
  | n + 1, v => BitVec.ofNat 8 v :: bytesOfNat n (v / 256)

/-- What the decoder reads from the bytes of a word as memory holds them. -/
noncomputable def decodeBytes (bs : List (BitVec 8)) : Except Reject Instr := decode (wordOfBytes bs)

/-- The instruction the decoder reads from the opcode table's numbering of a row's bits: one word, its bytes laid out
little-endian (R93). Every word of this hardware is 32 bits wide. -/
noncomputable def decodeTableWord (nbits w : Nat) : Option Instr :=
  if nbits ≤ 32 then (decodeBytes (bytesOfNat 4 (w % 2 ^ nbits))).toOption else none

end Sys2Proof
end

