-- ==== Sys2Proof/Machine/Contexts.lean ====
section
/-! DEFINITION. Stops and revocation (R296, R305, R306, R385), and context images: CXSAVE and CXREST (R227, R319 to R322, R404). -/

namespace Sys2Proof.Machine

/-! ### Carrying out stops -/

/-- A revocation with affected frame a goes before the unwind under way: its frame is lower, or it is the same and only a budget or a trap
names it (R306). -/
def goesFirst (a : Nat) : Option Unwind → Bool
  | none => true
  | some u => decide (a < u.affected) || (a == u.affected && decide (1 < u.rank))

/-- A cleanup of a world that has been revoked ends (R308). -/
def stopCleanup (s : State) (k : Nat) : State :=
  let x := slotAt s k
  match x.frames with
  | f :: _ => if inCleanup x && frameRevoked s f && canStop s k && !restoring x then endCleanup (abandonPark s k) k else s
  | [] => s

/-- Revocation reaches a slot that can stop: its task is killed when its own world is revoked, else the frames of revoked
callees are unwound (R296, R309). TL2 code runs to its TRET first, but for a kill (R306). -/
def carryRevoked (s : State) (k : Nat) : State :=
  let x := slotAt s k
  let killed := match x.unwind with | some u => u.kill.isSome | none => false
  if x.state = .empty then s
  else if slotNo k ≠ 15 && taskRevoked s x && !killed && canStopAll s k then
    killSlot s k (match (worldOf s x.task.world).session with
      | some i => (match lookup s.mod.sessions i with | some y => if y.state == .lost then 6 else 5 | none => 5)
      | none => 5) 0 x.sc.pc
  else match revokedDepth s x with
    | some a =>
      let w := ((frameAt x a).map (·.callee)).getD 0
      let u := if x.unwind.isNone then (standingCause s x).getD (revokeCause x a w) else revokeCause x a w
      stopCleanup (if goesFirst a x.unwind && x.tr.tl != 2 && canStop s k && !restoring x then startUnwind (abandonPark s k) k u
        else s) k
    | none => s

/-- A CXSAVE of a task of the gang is under way. -/
def gangSaving (s : State) (launch gang : Nat) : Bool :=
  let of := fun (j : Nat) => let t := (slotAt s j).task; t.launch == launch && t.gang == gang && decide (1 < t.gangSize)
  s.slots.any (fun e => match e.2.park with | some { cont := .cxsave _ j _, .. } => of j | _ => false) ||
  s.apps.any fun e => match e.2.park with | some { cont := .cxsave _ j _, .. } => of j | _ => false

/-- A saved context of the gang exists. -/
def gangSaved (s : State) (launch gang : Nat) : Bool :=
  s.parts.any fun p => p.2.saves.any fun c => c.slots.any fun x =>
    x.slot.task.launch == launch && x.slot.task.gang == gang && decide (1 < x.slot.task.gangSize)

/-- The slot is held with its gang, and waits for nothing else (R319, R320). -/
def heldOnly (x : SlotSt) : Bool := match x.park with | some { cont := .restore [] [] true, .. } => true | _ => false

/-- A task of a gang that is to be saved parks with its gang; a gang that is whole again in one cluster goes on (R319, R320). -/
def carryGang (s : State) (k : Nat) : State :=
  let x := slotAt s k
  let t := x.task
  if heldOnly x then
    let l := gangSlots s t.launch t.gang
    let whole := l.all fun j => clusterOfSlot j == clusterOfSlot k && (heldOnly (slotAt s j) || (slotAt s j).state == .splitWait ||
      ((slotAt s j).ganged && j % 2 == 1))
    if whole && !gangSaving s t.launch t.gang && !gangSaved s t.launch t.gang then
      (l.filter fun j => heldOnly (slotAt s j)).foldl (fun u j => awaitMatrix (readyOf u (.slot j)) j) s
    else s
  else if x.stopSave && decide (1 < t.gangSize) && x.tr.tl != 2 && x.unwind.isNone && canStop s k && !(x.ganged && k % 2 == 1) then
    parkOf (modSlot (abandonPark s k) k fun y => { y with stopSave := false }) (.slot k) .barrier false (.restore [] [] true)
  else s

/-- What a slot has been asked to stop for is done as soon as it can stop. -/
def carrySlot (s : State) (k : Nat) : State :=
  let s1 := match (slotAt s k).stopKill with
    | some (kind, cause, _) => if canStopAll s k then killSlot s k kind cause (slotAt s k).sc.pc else s
    | none => s
  carryGang (carryRevoked s1 k) k
def carryStops (s : State) : State := s.slots.foldl (fun t e => carrySlot t e.1) s

/-! ### WREVK (R224, R296, R385) -/

/-- The partition that a privileged instruction of the executor acts on; an application core belongs to none, and one of the
partitions is taken (log entry 13). -/
def actingPart (s : State) : State × Option Nat :=
  match s.cur with
  | .slot k => (s, partOfSlot s k)
  | .app _ =>
    let (s1, i) := choose s s.parts.length
    (s1, (s.parts[i]?).map (·.1))

/-- Start a revocation; its slots stop from now on. -/
def startRevocation (s : State) (id : Nat) (destroy : Bool) : State :=
  modWorld s id fun w => { w with revoking := some (destroy, false) }

def execWrevk (d a : BitVec 5) (s : State) : Out :=
  Run.out do
    needPrivilege s
    let w := (rd s a).toNat % 64
    if w = 0 then return writeRetire s d 2
    let (s1, p) := actingPart s
    match p with
    | none => return writeRetire s1 d 1
    | some p =>
      let x := worldOf s1 (worldId p w)
      if x.revoked || x.revoking.isSome then return writeRetire s1 d 1
      let s2 := startRevocation s1 (worldId p w) (bits (rd s a).toNat 8 8 == 1)
      return parkOf s2 s2.cur .memory false (.revoke d p w)

/-- The slot runs a task of the world, or its halyard holds a frame of it. -/
def concerns (id : Nat) (x : SlotSt) : Bool := x.state != .empty && (x.task.world == id || x.frames.any fun f => f.callee == id)

/-- The slot has stopped, as far as the revocation of a world asks. -/
def stoppedFor (s : State) (k : Nat) (x : SlotSt) : Bool :=
  canStop s k || x.state == .splitWait || x.tr.tl == 2 || (match x.park with | some { cont := .revoke _ _ _, .. } => true | _ => false)

/-- The galleys of a world are unconfigured. -/
def dropGalleys (s : State) (p id : Nat) : State :=
  { s with cores := s.cores.map fun e =>
    if partOfCore s e.1 = some p then (e.1, { e.2 with galleys := e.2.galleys.filter fun g => !(g.2.world == id) }) else e }

/-- REVOCATION_POINT: every slot of the world has stopped; its gates, galleys and counters go, its frames are unwound and its
tasks killed (R224, R296). -/
def execRevocationPoint (part world : Nat) (s : State) : Out :=
  let id := worldId part world
  match (worldOf s id).revoking with
  | some (m, false) =>
    if s.slots.all fun e => !concerns id e.2 || stoppedFor s e.1 e.2 then
      let s1 := modWorld s id fun w => { w with revoked := true, live := false, gates := [], epoch := w.epoch + 1, revoking := some (m, true) }
      .next (carryStops (freeCounters (dropGalleys s1 part id) part fun c => c.world == id))
    else .next s
  | _ => .next s

/-- Move the pins, the shadows, the transfers and the waiting events of one owner to another. -/
def renameOwner (s : State) (p k j : Nat) (ts : List Tenure) : State :=
  let one := fun (t : Tile) (e : Tenure) =>
    if e.write then { t with shadow := t.shadow.map fun h => if h.slot = k then { h with slot := j } else h }
    else { t with pins := if t.pins.contains (k, e.version) then (j, e.version) :: t.pins.erase (k, e.version) else t.pins }
  let s1 := ts.foldl (fun u e => modTile u p (e.handle % 2 ^ 20) fun t => one t e) s
  let mv := fun (e : MemEv) => if e.thread = k then { e with thread := j } else e
  renameTransfers { s1 with iq := s1.iq.map mv, bound := s1.bound.map mv } k j

/-- A saved context ends without being restored: what it held is released. -/
def dropSaved (s : State) (p : Nat) (c : SaveCounter) : State :=
  let one := fun (k : Nat) (u : State) (e : Tenure) =>
    if !e.granted then u
    else if e.write then serve (discardShadow (cancelTileTransfers u p e.handle) p (e.handle % 2 ^ 20)) p (e.handle % 2 ^ 20)
    else modTile u p (e.handle % 2 ^ 20) fun t => { t with pins := t.pins.erase (k, e.version) }
  let slot := fun (u : State) (q : Nat × SavedSlot) =>
    let k := savedKey c.world c.context q.1
    q.2.slot.eng.tenures.foldl (one k) (discardEvents (cancelTransfers u k none) k)
  let s1 := (c.slots.mapIdx fun i v => (i, v)).foldl slot s
  let clear := fun (x : SaveCounter) => if x.world = c.world ∧ x.context = c.context then
    { x with slots := [], scratch := [], pending := 0, pendingInfo := [] } else x
  modPart s1 p fun x => { x with saves := x.saves.map clear }
def dropSavedWhere (s : State) (p : Nat) (f : SaveCounter → Bool) : State :=
  match partAt s p with
  | some x => (x.saves.filter f).foldl (fun u c => dropSaved u p c) s
  | none => s

/-- The 32 bytes of a key, and its fingerprint (R384). -/
def fingerprint (k : BitVec 256) : BitVec 256 := BitVec.ofNat 256 (leNat (shake256 (keyBytes k) 32))

/-- Nothing of the world is under way: no frame, no task, and every write of its domain is home (R385). -/
def worldQuiet (s : State) (id : Nat) : Bool :=
  s.slots.all (fun e => !concerns id e.2) && s.transit.all (fun e => e.dom != some id) &&
  s.iq.all fun e => e.dom != some id || e.kind == .read

/-- No cache holds a line of a domain any more (R385, steps 2 and 3). Writes go to memory as they reach their homes, so none of the lines is
dirty. -/
def dropLines (s : State) (id : Nat) : State :=
  let of := fun (line : Nat) => isDm line && !(pageAt s line).opened && (pageAt s line).dom == id
  { s with llc := s.llc.filter fun e => !of e.1,
           cores := s.cores.map fun e => (e.1, { e.2 with l1d := e.2.l1d.filter fun a => !of (64 * a) }) }

/-- The key slot is zeroised and, in destroy mode, its key's fingerprint kept; the world's save counters are freed. -/
def eraseKey (s : State) (part world : Nat) (destroy : Bool) : State :=
  let id := worldId part world
  let x := worldOf s id
  let s1 := dropSavedWhere s part fun c => c.world == id
  let s2 := modPart s1 part fun p =>
    { p with saves := p.saves.filter fun c => !(c.world == id),
             destroyed := match x.key with
               | some k => if destroy then (p.destroyed ++ [fingerprint k]).take 4096 else p.destroyed
               | none => p.destroyed }
  let s3 := match x.session with
    | some i => modMod s2 fun m => match lookup m.sessions i with
      | some y => { m with sessions := insert m.sessions i { y with worlds := y.worlds.filter fun w => !(w == id) } }
      | none => m
    | none => s2
  modWorld (dropLines s3 id) id fun w => { w with key := none, session := none, revoking := none }

/-- A WREVK whose drain is done writes its status (R224). -/
def wakeRevokers (s : State) (part world : Nat) : State :=
  let done := fun (t : State) (ag : Agent) => match parkOfAg t ag with
    | some { cont := .revoke d p w, .. } => if p = part ∧ w = world then completeOf (setRegOf t ag d 0) ag else t
    | _ => t
  let s1 := s.slots.foldl (fun t e => done t (.slot e.1)) s
  s1.apps.foldl (fun t e => done t (.app e.1)) s1

/-- The tiles that a world owns are freed, whoever holds tenure on them (R260). -/
def freeOwned (s : State) (p id : Nat) : State :=
  match partAt s p with
  | some x => x.tiles.foldl (fun t e => match e.2.tile with | some y => if y.owner = id then freeTile t p e.1 else t | none => t) s
  | none => s

/-- REVOCATION_DRAIN_DONE: the unwinds and the kills are over, the tiles of the world are freed (R260), and the steps of R385 are done. -/
def execRevocationDrainDone (part world : Nat) (s : State) : Out :=
  match (worldOf s (worldId part world)).revoking with
  | some (m, true) =>
    if worldQuiet s (worldId part world) then
      .next (wakeRevokers (eraseKey (freeOwned s part (worldId part world)) part world m) part world)
    else .next s
  | _ => .next s

/-! ### Context images (R321, R404) -/

def fit (n : Nat) (l : List Byte) : List Byte := l.take n ++ List.replicate (n - l.length) 0

/-- LEFT of a depth, 6 bytes. -/
def leftBytes (s : State) (d : Option Nat) : List Byte :=
  leBytes 6 (match d with | none => 2 ^ 48 - 1 | some c => min (c - s.cycle) (2 ^ 48 - 1))
/-- The deadline of depth i (R305). -/
def deadlineAt (x : SlotSt) (i : Nat) : Option Nat :=
  if i = x.frames.length then x.deadline else ((frameAt x (i + 1)).map (·.mark)).getD none

def pairCode (x : SlotSt) : Nat := if x.ganged then 1 else if x.state = .splitWait then 2 else 0

/-- Bytes 0x0380 to 0x03FF. -/
def stateBytesOf (s : State) (x : SlotSt) : List Byte :=
  let word := stateWord s x
  let state := word.toNat % 4096 + (if x.park.isSome then 2 ^ 12 else 0) + (if x.vec.bank.isSome then 2 ^ 13 else 0) + pairCode x * 2 ^ 16
  let queue := (List.range 4).flatMap fun i => leBytes 4 (match x.eng.queue[i]? with | some e => e.xfer + 2 ^ 31 | none => 0)
  let unwind := match x.unwind with
    | some u => 1 + flag u.cleanup.isSome * 2 + x.frames.length * 4
    | none => 0
  leBytes 8 x.sc.pc.toNat ++ leBytes 8 x.sc.staging.toNat ++ leBytes 8 state ++
  leBytes 8 (loopStart x.sc.lc0) ++ leBytes 8 (x.sc.lc0.stop.toNat % 2 ^ 48) ++
  leBytes 8 (loopStart x.sc.lc1) ++ leBytes 8 (x.sc.lc1.stop.toNat % 2 ^ 48) ++
  ((List.range 8).flatMap fun i => leftBytes s (if i + 1 ≤ x.frames.length then deadlineAt x (i + 1) else none)) ++ queue ++
  leBytes 2 x.eng.pending.toNat ++ leBytes 1 unwind ++
  leBytes 1 ((x.unwind.map (·.status)).getD 0) ++ leBytes 1 ((x.unwind.map (·.affected)).getD 0) ++ leBytes 1 0 ++
  leBytes 1 (if x.vec.frozen then min x.vec.seq.length 16 else 0)

/-- A sequencer entry in 32 bytes: word, class, captured scalars, seed (log entry 18). -/
def entryImage (e : SeqEntry) : List Byte :=
  match e.body[e.at_]? with
  | some h => fit 32 (leBytes 4 ((encode h.instr).getD 0) ++ leBytes 4 h.cls ++ leBytes 8 h.sa.toNat ++ leBytes 8 h.sb.toNat ++
      leBytes 4 h.seed.toNat)
  | none => List.replicate 32 0

def endpointBytes (e : Endpoint) : List Byte := leBytes 8 e.ptr.toNat ++ leBytes 8 (e.seg.toNat + intBits 16 e.disp * 2 ^ 16)
/-- Bytes 0x0600 to 0x06FF. -/
def engineBytes (x : SlotSt) : List Byte :=
  leBytes 8 x.vec.mkReg.toNat ++ leBytes 8 x.vec.mgal.toNat ++ endpointBytes x.vec.mout ++ leBytes 8 x.vec.mostr.toNat ++
  leBytes 8 x.vec.mofmt.toNat ++ leBytes 8 x.vec.motile.toNat ++ endpointBytes x.eng.cpsrc ++ endpointBytes x.eng.cpdst ++
  (x.eng.cp.toList.drop 2).flatMap fun w => leBytes 8 w.toNat

/-- A tenure entry in 16 bytes: handle, kind, version. -/
def tenureBytes (e : Tenure) : List Byte :=
  leBytes 4 e.handle ++ leBytes 4 (tenureCode (some e)) ++ leBytes 4 e.version ++ leBytes 4 0

/-- The bank of an image: the bound one, or the innermost that a callee hides (log entry 18). -/
def imageBank (x : SlotSt) : Option Nat := x.vec.bank.or (x.frames.findSome? fun f => f.bank)
/-- The contents of a bank of a slot by its number; a number from 16 on is one that a restore has not bound yet (R320). -/
def slotBank (s : State) (k b : Nat) : Bank :=
  if b < 16 then getBank (coreAt s (coreOfSlot k)) b else lookupD (pendingBanks s k) (b - 16) Bank.zero
/-- The bytes of the masks; m0 reads as all ones (R34, R321). -/
def maskBytes (b : Bank) : List Byte := List.replicate 16 0xFF ++ (b.m.toList.drop 1).flatMap fun v => leBytes 16 v.toNat

/-- The frames of a slot, a spilled one as memory holds it (R301, R321); one that cannot be read stays as it was spilled. -/
def heldFrames (s : State) (k : Nat) : List Frame :=
  let x := slotAt s k
  x.frames.mapIdx fun i f =>
    let d := x.frames.length - i
    if i < 4 then f else
    match (partOfSlot s k).bind fun p => devReadAs s (some (worldId p 0)) p (spillAt x.hspill d) 512 with
    | some bs => frameOfBytes bs f
    | none => f

/-- The 16 KiB slot record. -/
def slotRecord (s : State) (k : Nat) : List Byte :=
  let x := slotAt s k
  let b := match imageBank x with | some i => slotBank s k i | none => Bank.zero
  fit 16384 (x.sc.s.toList.flatMap (fun w => leBytes 8 w.toNat) ++
    ((List.range 64).flatMap fun n => leBytes 8 (srReadSlot s k n).toNat) ++
    x.sc.g.toList.flatMap segBytes ++ fit 128 (stateBytesOf s x) ++
    fit 512 (x.vec.seq.flatMap entryImage) ++ fit 256 (engineBytes x) ++ fit 256 (x.eng.tenures.flatMap tenureBytes) ++
    fit 4096 ((heldFrames s k).reverse.flatMap frameBytes) ++
    b.v.toList.flatMap (fun v => leBytes 128 v.toNat) ++ maskBytes b)

def windowBytes (s : State) (k : Nat) : List Byte :=
  let x := slotAt s k
  memReadBytes s.mem (flatLocal (coreOfSlot k) (winBase x)) (winLen x)

/-- What a context image describes: its slots, even first, and its scratchpad region. -/
structure ImageOf where
  slots : List Nat
  scratchAt : Nat
  scratchLen : Nat
  context : Nat
  counter : Nat
  deriving DecidableEq, Repr

def imageLen (s : State) (m : ImageOf) : Nat :=
  64 + 16384 * m.slots.length + (m.slots.map fun k => winLen (slotAt s k)).sum + m.scratchLen + 16

def imageHeader (s : State) (m : ImageOf) : List Byte :=
  let x := slotAt s (m.slots.getD 0 0)
  let t := x.task
  fit 64 (leBytes 4 0x4B584349 ++ leBytes 2 1 ++
    leBytes 2 (flag (m.slots.length == 2) + 2 * flag (decide (1 < t.gangSize)) + 4 * flag (m.scratchLen != 0)) ++
    leBytes 2 t.world ++ leBytes 2 0 ++ leBytes 4 (imageLen s m) ++ leBytes 8 m.counter ++ leBytes 8 m.context ++
    leBytes 4 t.launch ++ leBytes 4 t.gang ++ leBytes 2 t.gangIndex ++ leBytes 2 t.gangSize ++
    leBytes 4 m.scratchAt ++ leBytes 4 m.scratchLen)

def imageBody (s : State) (m : ImageOf) (cl : Nat) : List Byte :=
  m.slots.flatMap (slotRecord s) ++ m.slots.flatMap (windowBytes s) ++
  memReadBytes s.mem (flatScratch cl m.scratchAt) m.scratchLen

/-- The keys of an image (R322). -/
def imageKeys (key : BitVec 256) (context : Nat) : List Byte := kmac256 (keyBytes key) (leBytes 8 context) 96 "CXS"

/-- The sealed image (R322). -/
def sealImage (keys header body : List Byte) (counter : Nat) : List Byte :=
  let units := chunksOf 4096 body.length body
  let enc := (units.mapIdx fun i u => xtsEncrypt (keys.take 64) (i + counter * 2 ^ 64) u).flatten
  header ++ enc ++ kmac256 (keys.drop 64) (header ++ enc) 16 "CXT"

/-! ### CXSAVE -/

def saveCounter (s : State) (p world context : Nat) : Option SaveCounter :=
  (partAt s p).bind fun x => x.saves.find? fun c => c.world == world && c.context == context
def putCounter (s : State) (p : Nat) (c : SaveCounter) : State :=
  modPart s p fun x => { x with saves := x.saves.filter (fun y => !(y.world == c.world && y.context == c.context)) ++ [c] }

/-- The fields of a descriptor: image offset, segment, scratchpad offset and length, context id (R227). -/
def descFields (bs : List Byte) : List Nat := [dword bs 0, recField bs 8 1, recField bs 16 4, recField bs 20 4, dword bs 24]
def descOk (bs : List Byte) : Bool := decide (recField bs 8 1 < 8) && recField bs 9 3 == 0
/-- The scratchpad length of a descriptor, which CXREST does not use. -/
def descLenOk (bs : List Byte) : Bool := recField bs 20 4 % 64 == 0 && decide (recField bs 20 4 ≤ 0x200000)

/-- A scratchpad region lies in banks in SCRATCH mode. -/
def scratchOk (s : State) (cl at_ n : Nat) : Bool := n == 0 || (decide (at_ + n ≤ 0x200000) && ringScratch s cl at_ n)

/-- A target that CXSAVE and CXREST may name: within reach, not slot 15, not the executor itself. -/
def cxTarget (s : State) (a : BitVec 5) : Option Nat :=
  match target s (rd s a).toNat with
  | some k => if slotNo k = 15 ∨ s.cur = .slot k then none else some k
  | none => none

/-- Read the descriptor at a g1 offset with a right set. -/
def readDesc (s : State) (d : BitVec 5) (need : Nat) : Run (State × List Byte) := do
  let (s1, l) ← access s 1 (rd s d) 0 32 32 need 0
  holdForVector s1 (l.map (·.addrs)).flatten
  if l.any (placeDown s1) then trapFree s1 0x16
  return (l.foldl notePlace s1, (l.map fun pl => threadBytes s1 (threadOf s.cur) pl.ty pl.addrs).flatten)

/-- An access of n bytes of an image. One that parks is the instruction's: it issues again (R29, R315). Any other failure is answered by a
status (R400). -/
def imageAccess (s : State) (k : BitVec 3) (off n need : Nat) : Run (Option (State × List Place)) :=
  match access s k (w64 off) 0 n 1 need 0 with
  | .ok x => .ok (some x)
  | .error t => match parkOfAg t s.cur with
    | some { reason := .notPresent, .. } => .error t
    | _ => .ok none

/-- Read n bytes of an image, after the executor's own vector accesses of them (R249, R400). -/
def readImage (s : State) (k : BitVec 3) (off n : Nat) : Run (Option (State × List Byte)) := do
  match ← imageAccess s k off n rR with
  | none => return none
  | some (s1, l) =>
    holdForVector s1 (l.map (·.addrs)).flatten
    if l.any (placeDown s1) then return none
    return some (l.foldl notePlace s1, (l.map fun pl => threadBytes s1 (threadOf s.cur) pl.ty pl.addrs).flatten)

/-- The field of a descriptor that names the segment of its image. -/
def descSeg (f : List Nat) : BitVec 3 := BitVec.ofNat 3 (f.getD 1 0)

def execCxsave (d a : BitVec 5) (s : State) : Out :=
  Run.out do
    needPrivilege s
    let (s1, bs) ← readDesc s d (rR + rW)
    match cxTarget s1 a with
    | none => return writeRetire s1 d 2
    | some k =>
      if (slotAt s1 k).state = .empty then return writeRetire s1 d 1
      let f := descFields bs
      if !descOk bs || !descLenOk bs || !scratchOk s1 (clusterOfSlot k) (f.getD 2 0) (f.getD 3 0) then return writeRetire s1 d 2
      if (worldKey s1 (slotAt s1 k).task.world).isNone then return writeRetire s1 d 2
      match ← imageAccess s1 (descSeg f) (f.getD 0 0) 64 rW with
      | none => return writeRetire s1 d 2
      | some _ => pure ()
      let s2 := (stopsFor s1 k).foldl (fun u j => modSlot u j fun x => { x with stopSave := true }) s1
      return parkOf s2 s2.cur .memory false (.cxsave d k (f ++ [(rd s d).toNat]))

/-- Nothing of a slot is under way but frozen or unstarted entries, and its writes are home (R254, R319). -/
def saveReady (s : State) (k : Nat) : Bool :=
  let x := slotAt s k
  x.tr.tl != 2 && (canStop s k || x.state == .splitWait) && !matrixHeld s k &&
  (x.vec.seq.isEmpty || x.vec.frozen || (match x.vec.seq with | e :: _ => e.body.any fun h => isMatrix h.instr | [] => true)) &&
  s.transit.all (fun e => !(e.thread == k)) && s.iq.all fun e => !(e.thread == k && isReadyWrite e)

/-- The banks a slot holds. -/
def banksOf (x : SlotSt) : List Nat := x.vec.bank.toList ++ x.frames.filterMap fun f => f.bank

/-- The standing `.nw` requests of a slot, by tile. -/
def standingReqs (s : State) (k : Nat) : List (Nat × TReq) :=
  match (partOfSlot s k).bind (partAt s) with
  | some x => x.tiles.flatMap fun e => match e.2.tile with
    | some t => (t.requests.filter fun r => r.slot == k && r.noWait).map fun r => (e.1, r)
    | none => []
  | none => []

/-- What is kept of a slot, as it stands when its image is written: banks marked by 16 (those not bound since the last restore come after
the four of the core), deadlines as LEFT. A matrix instruction that does not hold its entries starts afresh at its PC (R182). -/
def savedSlot (s : State) (k : Nat) : SavedSlot :=
  let x := slotAt (abandonPark s k) k
  let left := fun (d : Option Nat) => d.map fun c => c - s.cycle
  let mark := fun (b : Option Nat) => b.map fun n => if n < 16 then 16 + n else n + 4
  { slot := { x with park := none, stopSave := false, deadline := left x.deadline,
                     vec := { x.vec with bank := mark x.vec.bank },
                     frames := (heldFrames s k).map fun f => { f with mark := left f.mark, bank := mark f.bank },
                     unwind := x.unwind.map fun u => { u with cleanup := left u.cleanup } },
    banks := (banksOf x).map fun b => (if b < 16 then b else b - 12, slotBank s k b), waits := standingReqs s k,
    window := windowBytes s k, core := coreOfSlot k, vtime := (coreAt s (coreOfSlot k)).vtime }

/-- The slot is emptied as R50 gives, but its task has not ended (R319). -/
def emptySaved (s : State) (k : Nat) : State :=
  let core := coreOfSlot k
  let x := slotAt s k
  let s1 := abandonPark s k
  let s2 := (banksOf x).foldl (fun u b => modCore u core fun c => setHolder (setBank c b Bank.zero) b none) (dropMatrix s1 k)
  let s3 := clearLocal s2 core (winBase x) (winLen x)
  let s4 := match partOfSlot s k with
    | some p => (standingReqs s k).foldl (fun u q => withdraw u p q.1 k) s3
    | none => s3
  serveBank (modSlot s4 k SlotSt.emptied) core

/-- Complete a CXSAVE of an agent with a status. -/
def endSave (s : State) (ag : Agent) (d : BitVec 5) (v : Nat) : State := completeOf (setRegOf s ag d (w64 v)) ag

/-- The slots that the CXSAVEs under way ask to stop. -/
def savesUnderWay (s : State) : List Nat :=
  let of := fun (p : Option Park) => match p with | some { cont := .cxsave _ k _, .. } => stopsFor s k | _ => []
  (s.slots.flatMap fun e => of e.2.park) ++ s.apps.flatMap fun e => of e.2.park

/-- The slots that no CXSAVE under way asks to stop go on. -/
def letGo (s : State) : State :=
  let keep := savesUnderWay s
  { s with slots := s.slots.map fun e => (e.1, { e.2 with stopSave := e.2.stopSave && keep.contains e.1 }) }
/-- A CXSAVE ends and saves nothing: its target, and the gang, go on. -/
def failSave (s : State) (ag : Agent) (d : BitVec 5) (v : Nat) : State := letGo (endSave s ag d v)

/-- Earlier vector accesses of an agent that touch the bytes of some places. -/
def agentBlocks (s : State) (ag : Agent) (l : List Place) : List Nat :=
  match ag with
  | .app _ => []
  | .slot k => vectorBlocks s k (l.map (·.addrs)).flatten

/-- The image is written, the counter raised, the slots emptied (R319, R322). DESIGN CHOICE (log entry 88): where the image beyond its header
fails R114 the status is 2. -/
def writeImage (s : State) (ag : Agent) (d : BitVec 5) (k : Nat) (f : List Nat) : State :=
  let p := (partOfSlot s k).getD 64
  let ks := savedSlots s k
  let world := (slotAt s k).task.world
  let ctx := f.getD 4 0
  let old := saveCounter s p world ctx
  let full := decide (4096 ≤ ((partAt s p).map fun x => x.saves.length).getD 0)
  match worldKey s world with
  | none => failSave s ag d 2
  | some key =>
    if old.isNone && full then failSave s ag d 2 else
    let n := (match old with | some c => c.counter | none => 0) + 1
    let m : ImageOf := { slots := ks, scratchAt := f.getD 2 0, scratchLen := f.getD 3 0, context := ctx, counter := n }
    let body := imageBody s m (clusterOfSlot k)
    let image := sealImage (imageKeys key ctx) (imageHeader s m) body n
    let at_ := { s with cur := ag }
    match (do
      match ← imageAccess at_ (descSeg f) (f.getD 0 0) image.length rW with
      | none => return none
      | some (t, l) => match ← imageAccess t 1 (f.getD 5 0 + 12) 4 rW with
        | none => return none
        | some (u, q) => return some (u, l, q) : Run (Option (State × List Place × List Place))) with
    | .error t => letGo { t with cur := s.cur }
    | .ok none => failSave s ag d 2
    | .ok (some (t, l, q)) =>
      if !(agentBlocks s ag (l ++ q)).isEmpty then s else
      let c : SaveCounter := { world := world, context := ctx, counter := n, pending := 0, pendingInfo := [],
                               slots := ks.map (savedSlot s), scratch := memReadBytes s.mem (flatScratch (clusterOfSlot k) m.scratchAt) m.scratchLen }
      let t1 := writePlaces (writePlaces t l image) q (leBytes 4 image.length)
      let s1 := (ks.mapIdx fun i j => (i, j)).foldl (fun u e => renameOwner (emptySaved u e.2) p e.2 (savedKey world ctx e.1) (slotAt s e.2).eng.tenures)
        (putCounter { t1 with cur := s.cur } p c)
      endSave s1 ag d 0

/-- A CXSAVE goes on when its target has stopped (R319). -/
def saveStep (s : State) (ag : Agent) (d : BitVec 5) (k : Nat) (f : List Nat) : State :=
  if (slotAt s k).state = .empty then failSave s ag d 1
  else if !scratchOk s (clusterOfSlot k) (f.getD 2 0) (f.getD 3 0) then failSave s ag d 2
  else if (savedSlots s k).all (saveReady s) && (stopsFor s k).all (fun j => canStop s j || (slotAt s j).state == .splitWait) then
    writeImage s ag d k f
  else s

/-! ### CXREST (R320, R322) -/

/-- A segment of kind 2 moves with its window. -/
def rebase (delta : Int) (g : Seg) : Seg := if g.kind = 2 then { g with w0 := g.w0 + ofInt delta } else g

/-- The ends of transfers of the i-th slot that came while the context was saved, by channel. -/
def endedOf (c : SaveCounter) (i : Nat) : Assoc Completion :=
  c.pendingInfo.filterMap fun e => if e.1 / 16 = i then some (e.1 % 16, e.2) else none
/-- The same as bits of a pending word (R319, R320). -/
def endedBits (c : SaveCounter) (i : Nat) : BitVec 16 := (endedOf c i).foldl (fun b e => b ||| (1#16 <<< e.1)) 0

/-- The i-th slot as it goes on: its window is the target's, its deadlines count from now. -/
def restoredSlot (s : State) (k i : Nat) (c : SaveCounter) (v : SavedSlot) : SlotSt :=
  let y := slotAt s k
  let x := v.slot
  let delta : Int := (winBase y : Int) - winBase x
  let due := fun (d : Option Nat) => d.map (· + s.cycle)
  let eng := { x.eng with pending := x.eng.pending ||| endedBits c i, pendingInfo := x.eng.pendingInfo ++ endedOf c i,
                          pend := if endedBits c i = 0 then x.eng.pend else x.eng.pend ||| 18 }
  { x with last := y.last, rdy := s.cycle, lmbase := y.lmbase, lmbound := y.lmbound, quoin := y.quoin,
           sc := { x.sc with g := x.sc.g.map (rebase delta) },
           tr := { x.tr with heldG := x.tr.heldG.map (rebase delta) },
           eng := refillQueue (refillQueue (refillQueue (refillQueue eng))),
           deadline := due x.deadline, unwind := x.unwind.map fun u => { u with cleanup := due u.cleanup },
           frames := x.frames.map fun f => { f with g := f.g.map (rebase delta), lmbase := f.lmbase + ofInt delta, mark := due f.mark } }

/-- Where a byte that a frozen access of a saved slot reaches lies for the restored slot: local memory moves with the window, and the
scratchpad is that of the new cluster. -/
def movedAddr (v : SavedSlot) (s : State) (k : Nat) (ty : Space) (a : Nat) : Nat :=
  match ty with
  | .lm => a - flatLocal v.core 0 - winBase v.slot + winBase (slotAt s k) + flatLocal (coreOfSlot k) 0
  | .sp => a - flatScratch (clusterOfCore v.core) 0 + flatScratch (clusterOfSlot k) 0
  | _ => a

/-- The events of a restored slot take their paths and their near addresses from its new core (R231, R244). -/
def repath (s : State) (k : Nat) (v : SavedSlot) : State :=
  let f := fun (e : MemEv) => if e.thread = k then
    let addrs := e.addrs.map (movedAddr v s k e.space)
    let node := nodeOf (addrs.getD 0 0)
    { e with addrs := addrs, path := if e.kind == .write then pathOf s k e.space node else viewPath s k e.space node }
    else e
  { s with iq := s.iq.map f }

/-- The write tenures of a restored slot whose tokens are on another cluster (R320). -/
def farTokens (s : State) (p k : Nat) (x : SlotSt) : List Nat :=
  (x.eng.tenures.filter fun e => e.write && e.granted && (match tileAt s p (e.handle % 2 ^ 20) with
    | some t => lookupD t.tokens (clusterOfSlot k) 0 != 64
    | none => false)).map (·.handle)

/-- The spilled frames of a restored slot stand in its spill area again, with their deadlines (R301, R305). -/
def respill (s : State) (p k : Nat) : State :=
  let x := slotAt s k
  (List.range (x.frames.length - 4)).foldl (fun t i => match frameAt x (i + 1) with
    | some f => devWriteAs t (some (worldId p 0)) p (spillAt x.hspill (i + 1)) (frameBytes f)
    | none => t) s

/-- The pages of the spill areas that a restore writes: one that is not present parks the CXREST with reason 1. -/
def spillPages (s : State) (p : Nat) : List SavedSlot → Run State
  | [] => .ok s
  | v :: rest => do
    let n := v.slot.frames.length - 4
    let (s1, _) ← placeParts s rW 4 (some (worldId p 0)) p (pageParts (spillAt v.slot.hspill 1) (512 * n + 1) (512 * n))
    spillPages s1 p rest

/-- The standing requests of a restored slot are made again (log entry 91). -/
def renewReqs (s : State) (p k : Nat) (v : SavedSlot) : State :=
  let live := fun (i : Nat) => v.slot.eng.tenures.any fun e => e.handle == tileHandle s p i && !e.granted
  (v.waits.filter fun q => live q.1).foldl (fun u q =>
    serve (modTile u p q.1 fun t =>
      { t with requests := t.requests ++ [{ q.2 with slot := k, cluster := clusterOfSlot k, since := none, persistent := none }] }) p q.1) s

/-- Put the i-th slot of a context back. -/
def restoreSlot (s : State) (p k i : Nat) (c : SaveCounter) (v : SavedSlot) : State :=
  let s0 := renameOwner (setSlot s k (restoredSlot s k i c v)) p (savedKey c.world c.context i) k v.slot.eng.tenures
  let s1 := renewReqs s0 p k v
  let x := slotAt s1 k
  let s2 := repath { s1 with mem := memWriteBytes s1.mem (flatLocal (coreOfSlot k) (winBase x)) v.window } k v
  respill (noteStart (raiseVtime s2 (coreOfSlot k) v.vtime) x.task.launch (coreOfSlot k)) p k

/-- The placement of an image on a target (R320). -/
def placeOk (s : State) (k : Nat) (c : SaveCounter) (at_ : Nat) : Bool :=
  let ks := if c.slots.length = 2 then [k, k + 1] else [k]
  (c.slots.length == 1 || (c.slots.length == 2 && k % 2 == 0 && slotNo k != 14)) &&
  (ks.all fun j => (slotAt s j).state == .empty) &&
  ((ks.zip c.slots).all fun q => winLen (slotAt s q.1) == winLen q.2.slot) &&
  scratchOk s (clusterOfSlot k) at_ c.scratch.length

/-- Place a context: its slots, its scratchpad region; then it waits for what it still needs (R320). -/
def placeContext (s : State) (p k : Nat) (c : SaveCounter) (at_ : Nat) : State :=
  let ks := if c.slots.length = 2 then [k, k + 1] else [k]
  let s1 := (ks.zip c.slots).foldl (fun u q => restoreSlot u p q.1 (if q.1 = k then 0 else 1) c q.2) s
  let s2 := { s1 with mem := memWriteBytes s1.mem (flatScratch (clusterOfSlot k) at_) c.scratch }
  let banks := (ks.zip c.slots).flatMap fun q => q.2.banks.map fun b => (q.1, b.1, b.2)
  let toks := ks.flatMap fun j => farTokens s2 p j (slotAt s2 j)
  let gang := decide (1 < (slotAt s2 k).task.gangSize)
  let s3 := restoreWait s2 k banks toks gang
  let s4 := if c.slots.length = 2 && !(slotAt s3 k).ganged && gang && (slotAt s3 (k + 1)).state == .ready then
      restoreWait s3 (k + 1) [] [] true else s3
  if banks.isEmpty then s4
  else serveBank (modCore s4 (coreOfSlot k) fun x => { x with bankQueue := x.bankQueue ++ [k] }) (coreOfSlot k)

/-- CXREST's status after the checks of R322, in their order, and the context to place (log entry 88). -/
def restCheck (s : State) (p k : Nat) (f : List Nat) : Run (State × Nat × Option SaveCounter) := do
  match ← readImage s (descSeg f) (f.getD 0 0) 64 with
  | none => return (s, 2, none)
  | some (s1, h) =>
    if recField h 0 4 ≠ 0x4B584349 ∨ recField h 4 2 ≠ 1 then return (s1, 5, none)
    let world := recField h 8 2
    match (if partOfWorld world = p then worldKey s1 world else none) with
    | none => return (s1, 4, none)
    | some key =>
      -- A key seen for the first time starts at 0 (R322).
      let c := saveCounter s1 p world (f.getD 4 0)
      if (c.map (·.counter)).getD 0 ≠ dword h 16 then return (s1, 3, none)
      let n := recField h 12 4
      match ← readImage s1 (descSeg f) (f.getD 0 0) n with
      | none => return (s1, 2, none)
      | some (s2, img) =>
        let keys := imageKeys key (f.getD 4 0)
        if n < 80 ∨ img.drop (n - 16) ≠ kmac256 (keys.drop 64) (img.take (n - 16)) 16 "CXT" then return (s2, 4, none)
        match c with
        | some c => if placeOk s2 k c (f.getD 2 0) then return (s2, 0, some c) else return (s2, 2, none)
        | none => return (s2, 2, none)

def execCxrest (d a : BitVec 5) (s : State) : Out :=
  Run.out do
    needPrivilege s
    let (s1, bs) ← readDesc s d rR
    match cxTarget s1 a with
    | none => return writeRetire s1 d 2
    | some k =>
      if (slotAt s1 k).state ≠ .empty then return writeRetire s1 d 1
      if !descOk bs then return writeRetire s1 d 2
      let p := (partOfSlot s1 k).getD 64
      match ← restCheck s1 p k (descFields bs) with
      | (s1, 0, some c) =>
        let s2 ← spillPages s1 p c.slots
        let done := { c with counter := c.counter + 1, pending := 0, pendingInfo := [], slots := [], scratch := [] }
        let s3 := carryStops (placeContext (putCounter s2 p done) p k c ((descFields bs).getD 2 0))
        return parkOf s3 s.cur .memory false (.reply d 0)
      | (s1, v, _) => return writeRetire s1 d (w64 v)

/-! ### Replies -/

/-- MEMORY_REPLY: what a park with reason 0 waits for has come (R29, R133). slot is a thread number. -/
def execMemoryReply (slot : Nat) (s : State) : Out :=
  let ag := agentOfThread slot
  match parkOfAg s ag with
  | some { cont := .flush pages, .. } => if pagesQuiet s pages then .next (completeOf s ag) else .next s
  | some { cont := .cxsave d k f, .. } => .next (saveStep s ag d k f)
  | some { cont := .call id wd b, .. } => .next (finishGcall s (keyOf ag) id wd b)
  | some { cont := .ret, .. } => .next (finishGret s (keyOf ag))
  | _ => replyAccess slot s

end Sys2Proof.Machine
end

