-- ==== Sys2Proof/Machine/Control.lean ====
section
/-! DEFINITION. Pointer instructions (R124, R125), branches and jumps (R127, R128), and the zero-overhead loop (R130). -/

namespace Sys2Proof.Machine

/-! ### Pointers -/

/-- A fat pointer with an offset moved by a signed amount (R124). -/
def padd (a : Word) (delta : Int) : Word :=
  let off : Int := (ptrOff a : Int) + delta
  if 0 ≤ off ∧ off < 2 ^ 48 then w64 (bits a.toNat 63 48 * 2 ^ 48 + off.toNat)
  else w64 (bits a.toNat 63 56 * 2 ^ 56 + 0xFF * 2 ^ 48 + (off % 2 ^ 48).toNat)

def execPadd (d a b : BitVec 5) (s : State) : Out := setReg s d (padd (rd s a) (rd s b).toInt)
def execPsub (d a b : BitVec 5) (s : State) : Out := setReg s d (padd (rd s a) (-(rd s b).toInt))
def execPfmt (d a b : BitVec 5) (s : State) : Out :=
  setReg s d (w64 ((rd s b).toNat % 256 * 2 ^ 56 + (rd s a).toNat % 2 ^ 56))
def execPmeta (d a : BitVec 5) (s : State) : Out := setReg s d (w64 ((rd s a).toNat / 2 ^ 56))
def execPclr (d a : BitVec 5) (s : State) : Out := setReg s d (w64 (ptrOff (rd s a)))

/-- PCHK's status: the first failing cause of a one-byte access, or 0 (R125). -/
def pchkStatus (p : Word) (g : Seg) : Word :=
  if !ptrOk p then 0x05 else if g.isVoid then 0x04 else if g.limit < ptrOff p then 0x03 else 0
def execPchk (d a : BitVec 5) (k : BitVec 3) (s : State) : Out := setReg s d (pchkStatus (rd s a) (segOf s s.cur k))

/-! ### Branches and jumps -/

/-- Go to a computed target; one below 0 traps at the branch (R128). -/
def jumpTo (s : State) (target : Int) : Run State :=
  if target < 0 then trap s 0x03 (ofInt target) else .ok (setPcOf s s.cur (ofInt target))

/-- A conditional branch (R127). -/
def branch (s : State) (taken : Bool) (o : BitVec 16) : Out :=
  if taken then (jumpTo s ((pc s).toNat + 4 * o.toInt)).out else .next (retire s)

def execBeq (a b : BitVec 5) (o : BitVec 16) (s : State) : Out := branch s (rd s a == rd s b) o
def execBne (a b : BitVec 5) (o : BitVec 16) (s : State) : Out := branch s (rd s a != rd s b) o
def execBlt (a b : BitVec 5) (o : BitVec 16) (s : State) : Out := branch s ((rd s a).slt (rd s b)) o
def execBge (a b : BitVec 5) (o : BitVec 16) (s : State) : Out := branch s (!(rd s a).slt (rd s b)) o
def execBltn (a b : BitVec 5) (o : BitVec 16) (s : State) : Out := branch s ((rd s a).ult (rd s b)) o
def execBgen (a b : BitVec 5) (o : BitVec 16) (s : State) : Out := branch s (!(rd s a).ult (rd s b)) o

def execJ (o : BitVec 26) (s : State) : Out := (jumpTo s ((pc s).toNat + 4 * o.toInt)).out

/-- JAL writes the link only when the jump is taken (R24, R128). -/
def execJal (o : BitVec 26) (s : State) : Out :=
  match jumpTo s ((pc s).toNat + 4 * o.toInt) with
  | .error t => .next t
  | .ok _ => (jumpTo (wr s 1 (pc s + 4)) ((pc s).toNat + 4 * o.toInt)).out

/-- The checks of JR and JALR: alignment, then the sign of the target (R128). -/
def jumpReg (s : State) (t : Word) : Run Unit :=
  if t.toNat % 4 ≠ 0 then trap s 0x06 t else if t.msb then trap s 0x03 t else .ok ()

def execJr (a : BitVec 5) (s : State) : Out :=
  match jumpReg s (rd s a) with
  | .error t => .next t
  | .ok _ => .next (setPcOf s s.cur (rd s a))

def execJalr (d a : BitVec 5) (s : State) : Out :=
  match jumpReg s (rd s a) with
  | .error t => .next t
  | .ok _ => .next (setPcOf (wr s d (pc s + 4)) s.cur (rd s a))

/-! ### LOOP -/

def setLoop (x : ScalarSt) (n : BitVec 1) (l : Loop) : ScalarSt := if n = 0 then { x with lc0 := l } else { x with lc1 := l }
def getLoop (x : ScalarSt) (n : BitVec 1) : Loop := if n = 0 then x.lc0 else x.lc1

/-- LOOP sets up a counter, or skips the body when the count is 0 (R130). -/
def execLoop (a : BitVec 5) (n : BitVec 1) (o : BitVec 16) (s : State) : Out :=
  if tl s ≠ 0 then (illegal (α := State) s).out
  else
    let c := rd s a
    let p := pc s
    let l := getLoop (scOf s s.cur) n
    if c = 0 then
      .next (setPcOf (modScOf s s.cur fun x => setLoop x n { l with count := 0, active := false }) s.cur
        (p + w64 (4 * o.toNat) + 4))
    else
      .next (retire (bumpId (modScOf s s.cur fun x =>
        setLoop x n { count := c, start := p + 4, stop := p + w64 (4 * o.toNat), active := true, order := s.nextId })))

end Sys2Proof.Machine
end

