-- ==== Sys2Proof/Machine/Gateway.lean ====
section
/-! DEFINITION. Gateway cores: the block queue of a port (R371, R373) and the commands of engine 7 (R219, R374, R375). -/

namespace Sys2Proof.Machine

def portAt (s : State) (p : Nat) : Port := lookupD s.mod.ports p Port.reset
def modPort (s : State) (p : Nat) (f : Port → Port) : State :=
  modMod s fun m => { m with ports := insert m.ports p (f (lookupD m.ports p Port.reset)) }

/-- Engine 7 exists on gateway cores only (R219). -/
def needGateway (s : State) : Run Unit := do
  needSlot s
  if !isGateway (myCore s) then illegal s else pure ()

/-- The port that a register names, when its partition is the executor's. -/
def myPort (s : State) (b : BitVec 5) : Option Nat :=
  let p := (rd s b).toNat % 64
  if p < 36 ∧ partOfPort s p = myPart s ∧ (myPart s).isSome then some p else none

/-! ### Block slots -/

/-- The lowest free block slot of a port. -/
def freeBlock (x : Port) : Option Nat := (List.range 16).find? fun i => !x.used.contains i

/-- Write a block into a slot and queue it (R373). -/
def placeBlock (s : State) (p i : Nat) (block : List Byte) : State :=
  let s1 := reachHome s (slotKey (2048 + p) 15) (seqNat (flatLocal (2048 + p) (2048 * i)) (block.take 2048).length) (block.take 2048)
  modPort s1 p fun x => { x with used := x.used ++ [i], queue := x.queue ++ [i] }

/-- Free a block slot; a block that the port holds back takes it. -/
def freeSlot (s : State) (p i : Nat) : State :=
  if !(portAt s p).used.contains i then s else
  let s1 := modPort s p fun x => { x with used := x.used.filter fun j => !(j == i) }
  match (portAt s1 p).waiting with
  | blk :: rest => placeBlock (modPort s1 p fun x => { x with waiting := rest }) p i blk
  | [] => s1

/-- REDUCTION_BLOCK_ARRIVAL: a block takes a free slot, or waits for one; a port that no partition holds whole drops it
(R371, R373). -/
def execReductionBlockArrival (port : Nat) (block : List (BitVec 8)) (s : State) : Out :=
  if (partOfPort s port).isNone ∨ 36 ≤ port then .next (countDie s 4 12 none 1)
  else match freeBlock (portAt s port) with
    | some i => .next (placeBlock s port i block)
    | none => .next (modPort s port fun x => { x with waiting := x.waiting ++ [block] })

/-- GWQ: the next block index, all ones when the queue is empty; with s[b] bit 63 it frees slot s[a] instead. DESIGN CHOICE (log entry 94): a
port of another partition answers all ones. -/
def execGwq (a b : BitVec 5) (s : State) : Out :=
  Run.out do
    needGateway s
    match myPort s b with
    | none => return writeRetire s a (BitVec.allOnes 64)
    | some p =>
      if (rd s b).msb then
        return writeRetire (freeSlot (bumpFree s) p ((rd s a).toNat % 16)) a (Config.freeWord s.free)
      match (portAt s p).queue with
      | [] => return writeRetire s a (BitVec.allOnes 64)
      | i :: rest => return writeRetire (modPort s p fun x => { x with queue := rest }) a (w64 i)

/-! ### Reduction blocks -/

/-- The header of a block (R219). -/
structure BlockHead where
  tag : Nat
  fmt : Nat
  blen : Nat
  count : Nat
  deriving DecidableEq, Repr

def headOfBlock (bs : List Byte) : BlockHead :=
  { tag := dword bs 0 % 2 ^ 36, fmt := recField bs 8 1, blen := recField bs 9 1, count := recField bs 10 2 }
def BlockHead.elemBytes (h : BlockHead) : Nat := (h.count * elemWidth h.fmt + 7) / 8
def BlockHead.scaleBytes (h : BlockHead) : Nat := if isMx h.fmt then (h.count + blockLen h.blen - 1) / blockLen h.blen else 0
def BlockHead.size (h : BlockHead) : Nat := 64 + h.elemBytes + h.scaleBytes
/-- A format that BARQ adds: one of the table of R53, or INT8. -/
def BlockHead.adds (h : BlockHead) : Bool := (h.fmt == 1 || (decide (15 ≤ h.fmt) && decide (h.fmt ≤ 21))) && fmtOk h.fmt h.blen

/-- The element codes and scale bytes of a block. -/
def blockCodes (h : BlockHead) (bs : List Byte) : List Nat :=
  let v := leNat ((bs.drop 64).take h.elemBytes)
  let w := elemWidth h.fmt
  (List.range h.count).map fun i => v / 2 ^ (w * i) % 2 ^ w
def blockScales (h : BlockHead) (bs : List Byte) : List Nat := ((bs.drop (64 + h.elemBytes)).take h.scaleBytes).map (·.toNat)

/-- The codes of requantised sums: a sum that is exactly -0 keeps its sign in a format that has one (R56). -/
def signZeros (h : BlockHead) (sums : List FVal) (r : Narrowed) : List Nat :=
  (sums.zip r.codes).mapIdx fun i p =>
    if p.1.isZero && p.1.neg? && (floatFmt (elemCode h.fmt)).isSome && r.scales.getD (i / blockLen h.blen) 0 != 0xFF
    then 2 ^ (elemWidth h.fmt - 1) else p.2

/-- The sum of two blocks: exact sums, requantised once (R66, R67, R69, R374). -/
def sumBlocks (h : BlockHead) (x y : List Byte) : List Byte × FFlags :=
  let w := elemWidth h.fmt
  if h.fmt = 1 then
    let rs := ((blockCodes h x).zip (blockCodes h y)).map fun p => satInt 1 (sx p.1 8 + sx p.2 8)
    (lanesBytes w (rs.map (·.1)), rs.foldl (fun f r => f ||| r.2) 0)
  else
    let vx := decodeRun h.fmt (blockLen h.blen) (blockCodes h x) (blockScales h x)
    let vy := decodeRun h.fmt (blockLen h.blen) (blockCodes h y) (blockScales h y)
    let sums := (vx.zip vy).map fun p => addF .rne p.1.1 p.2.1
    let r := finalScaled h.fmt (blockLen h.blen) (sums.map fun v => if v.isFin then some v.dy else none)
    (lanesBytes w (signZeros h sums r) ++ r.scales.map (BitVec.ofNat 8), (vx ++ vy).foldl (fun f v => f ||| v.2) r.flags)

/-- The bytes of a block at an offset in g3, with the places of the whole block; earlier vector accesses to it come first (R142). -/
def readBlock (s : State) (a : BitVec 5) (need : Nat) : Run (State × BlockHead × List Place × List Byte) := do
  let (s1, l0) ← access s 3 (rd s a) 0 64 1 need 0
  let h := headOfBlock (l0.map fun pl => threadBytes s1 (threadOf s.cur) pl.ty pl.addrs).flatten
  let (s2, l) ← access s1 3 (rd s a) 0 h.size 1 need 0
  holdForVector s2 (l.map (·.addrs)).flatten
  if l.any (placeDown s2) then trapFree s2 0x16
  return (l.foldl notePlace s2, h, l, (l.map fun pl => threadBytes s2 (threadOf s.cur) pl.ty pl.addrs).flatten)

/-- BARQ: adds block s[b] into block s[a]. An enabled flag traps with nothing written (R60). -/
def execBarq (a b : BitVec 5) (s : State) : Out :=
  Run.out do
    needGateway s
    let (s1, h, l, x) ← readBlock s a (rR + rW)
    let (s2, h', _, y) ← readBlock s1 b rR
    if h ≠ h' ∨ !h.adds then return writeRetire s2 a 1
    let r := sumBlocks h x y
    let k := myKey s
    if r.2 &&& enabledFlags s2 k ≠ 0 then trapFree s2 (0x08 + r.2.toNat * 512)
    return writeRetire (raiseFlags (writePlaces s2 l (x.take 64 ++ r.1)) k r.2) a 0

/-- GWSEND: the block leaves on the port, and the slot parks until the port has taken it; the block slot that it names is freed (R373,
R375). A port that no partition holds whole drops it, and that is counted (R371). DESIGN CHOICE (log entry 94): that, a port of another
partition and a port that is down answer 1. -/
def execGwsend (a b : BitVec 5) (s : State) : Out :=
  Run.out do
    needGateway s
    let (s1, _, l, x) ← readBlock s a rR
    let port := (rd s1 b).toNat % 64
    match myPort s1 b with
    | none => return writeRetire (if port < 36 ∧ (partOfPort s1 port).isNone then countDie s1 4 12 (myPart s1) 1 else s1) a 1
    | some p =>
      if !(portAt s1 p).up then return writeRetire s1 a 1
      let s2 := modPort s1 p fun q => { q with sent := q.sent ++ [x], retries := 0 }
      let core := myCore s
      let at_ := ((l.map (·.addrs)).flatten).getD 0 0
      let off := at_ - flatLocal core 0
      let own := decide (flatLocal core 0 ≤ at_) && decide (off < 0x8000) && off % 2048 == 0
      return parkOf (if own then freeSlot s2 (core - 2048) (off / 2048) else s2) s2.cur .memory false (.reply a 0)

end Sys2Proof.Machine
end

