-- ==== Sys2Proof/Machine/Launch.lean ====
section
/-! DEFINITION. Launches and sequences (R323 to R332, R218): fetching and accepting records, eligibility and batches, the
colophon, the sequence table, SQEND, the publish of gvt, and the admission port. -/

namespace Sys2Proof.Machine

def ifaceAt (s : State) (i : Nat) : Iface := lookupD s.mod.ifaces i Iface.reset
def modIface (s : State) (i : Nat) (f : Iface → Iface) : State :=
  modMod s fun m => { m with ifaces := insert m.ifaces i (f (ifaceAt s i)) }

/-- Bytes of device memory that the module reads for itself: none when a line does not open without a key. -/
def dpaRead (s : State) (a n : Nat) : Option (List Byte) :=
  (seqNat a n).mapM fun x => if isDpa x && lineOpens s none x then some (memRead s.mem x) else none

/-! ### Queue interfaces (R363, R364) -/

def Iface.part (f : Iface) : Nat := f.config1.toNat % 64
/-- The VALID entry of a PASID, on an enabled interface. -/
def pasidEntry (s : State) (f : Iface) (pasid : Nat) : Option Nat :=
  if f.config1.msb then
    match dpaRead s (f.config0.toNat % 2 ^ 48) 512 with
    | some bs => ((List.range 64).map fun i => dword bs (8 * i)).find? fun e => 2 ^ 63 ≤ e && e % 2 ^ 20 == pasid
    | none => none
  else none
def entryWorld (e : Nat) : Nat := bits e 25 20
def entryRevoked (e : Nat) : Bool := bits e 62 62 == 1

/-! ### Records (R323 to R325) -/

/-- FLAGS of a layout as those of layout 3. -/
def transFlags (lay fl : Nat) : Nat :=
  if lay = 1 then fl % 2 + fl / 2048 * 2048 + 4 * 256
  else if lay = 2 then fl - bits fl 2 1 * 2
  else fl
/-- WAITCNT (at 12) or SIGCNT (at 14) of a layout as in layout 3. -/
def transCnt (bs : List Byte) (o : Nat) : Nat := if recField bs 0 2 = 1 then 0 else recField bs o 2

def recFlags (bs : List Byte) : Nat := transFlags (recField bs 0 2) (recField bs 2 2)
def recGang (bs : List Byte) : List Nat := (List.range 3).map fun i => recField bs (5 + i) 1
def recGrid (bs : List Byte) : List Nat := (List.range 3).map fun i => recField bs (48 + 2 * i) 2

/-- The layout or MAP check of R326. -/
def layoutOk (bs : List Byte) : Bool :=
  decide (1 ≤ recField bs 0 2) && decide (recField bs 0 2 ≤ 3) && bits (recFlags bs) 3 3 == 0

/-- No field breaks R323. -/
def fieldsOk (bs : List Byte) : Bool :=
  let fl := recFlags bs
  let g := recGang bs
  let cnt := fun (x : Nat) => bits x 14 12 == 0
  let image := fun (x : Nat) => x / 2 ^ 57 == 0 && x % 4096 == 0
  bits fl 7 4 == 0 && bits fl 15 11 == 0 && recField bs 4 1 / 64 == 0 &&
  (g.all (· == 0) || (g.all (fun x => decide (1 ≤ x)) && decide (g.foldl (· * ·) 1 ≤ 240))) &&
  cnt (transCnt bs 12) && cnt (transCnt bs 14) && image (dword bs 24) && image (dword bs 32) &&
  decide (4 ≤ recField bs 40 4) && decide (4 ≤ recField bs 44 4) && (recGrid bs).all (fun x => decide (1 ≤ x)) &&
  recField bs 54 2 == 0 && dword bs 56 / 2 ^ 57 == 0 && dword bs 56 % 32 == 0

/-- The kernel header of an entry: the lowest used position of the kernel table that names it (R324). -/
def headerOfKernel (s : State) (p code entry : Nat) : Option (List Byte) :=
  if code < 4096 then none else
  match devRead s p (code - 4096) 4096 with
  | some t => ((List.range 32).map fun i => (t.drop (128 * i)).take 128).find? fun h =>
      recField h 0 4 == entry && (List.range 3).all fun i => recField h (4 + i) 1 != 0
  | none => none

/-- The segment requests of a header, with L and the reserved bits clear (R20, R232, R324). -/
def requestsOf (h : List Byte) : List (Option Seg) :=
  (List.range 3).map fun j =>
    if (recField h 7 1).testBit j then
      let g := (segAt h (32 + 32 * j)).tidy
      some { g with w1 := g.w1 &&& ~~~(1#64 <<< 53) }
    else none

/-- The launch that a record asks for, before any check; id and position are its place in the journal and in its queue. -/
def launchOfRecord (s : State) (iface : Nat) (r : PendingRec) (bs : List Byte) : Launch :=
  let fl := recFlags bs
  let g := recGang bs
  let n := recGrid bs
  { id := s.launches.length + 1, part := (ifaceAt s iface).part, queue := iface,
    position := (s.launches.filter fun l => l.queue == iface).length, flags := fl, prio := bits fl 10 8,
    world := worldId (ifaceAt s iface).part (recField bs 4 1 % 64), gang := #v[g.getD 0 0, g.getD 1 0, g.getD 2 0],
    seqNo := recField bs 8 4, waitCnt := transCnt bs 12, sigCnt := transCnt bs 14, waitVal := recField bs 16 4,
    entry := recField bs 20 4, code := dword bs 24 % 2 ^ 57, data := dword bs 32 % 2 ^ 57, codeLen := recField bs 40 4,
    dataLen := recField bs 44 4, grid := #v[n.getD 0 0, n.getD 1 0, n.getD 2 0], colophon := dword bs 56 % 2 ^ 57,
    mbx := Vector.ofFn fun i : Fin 8 => w64 (dword bs (64 + 8 * i.val)), requests := [], accepted := s.cycle, phase := 0,
    status := 0, reason := 0, cause := 0, killKind := 0, faultTask := 0, faultPc := 0, nextGang := 0, again := [], started := 0, cores := [],
    batch := [], stamp := 0, vec := r.vec }

/-- A launch that a check refuses. -/
def Launch.refuse (l : Launch) (status reason : Nat) : Launch := { l with status := status, reason := reason }

/-- The checks after the layout, MAP and PASID (R326), in their order. -/
def checkLaunch (s : State) (l : Launch) (bs : List Byte) : Launch :=
  if !fieldsOk bs then l.refuse 1 1 else
  match headerOfKernel s l.part l.code l.entry with
  | none => l.refuse 1 2
  | some h =>
    let g := if (recGang bs).all (· == 0) then #v[recField h 4 1, recField h 5 1, recField h 6 1] else l.gang
    let l1 := { l with gang := g, requests := requestsOf h }
    let t := gangTasks l1
    let w := worldOf s l1.world
    if bits l1.flags 1 1 = 1 ∧ t % 2 = 1 then l1.refuse 1 3
    else if !((((partAt s l1.part).map (·.clusters)).getD []).any fun c => decide (t ≤ slotsInService s c)) then l1.refuse 1 4
    else if w.revoked || w.key.isNone then l1.refuse 1 5
    else if l1.requests.any fun r => match r with | some x => !withinGrant s l1.part (worldNo l1.world) x | none => false then
      l1.refuse 1 6
    else l1

/-- A fetched record is accepted, then checked (R326); e is its PASID entry. -/
def acceptRecord (s : State) (iface : Nat) (r : PendingRec) (bs : List Byte) (e : Nat) : State :=
  let l := launchOfRecord s iface r bs
  let l1 := if !layoutOk bs || entryRevoked e || worldNo l.world != entryWorld e then l.refuse 4 0 else checkLaunch s l bs
  modIface { s with launches := s.launches ++ [l1] } iface fun f => { f with accepted := f.accepted + 1, fetch := f.fetch.drop 1 }

/-- The records of a packet that are not fetched, with the error (R364). -/
def dropPacket (s : State) (iface : Nat) (r : PendingRec) (err : Nat) : State :=
  modIface s iface fun f => { f with err := err, fetch := f.fetch.filter fun x => x.packet != r.packet }

/-- What the scheduler reads for a record: the record, and the kernel table and the grants of its world where the checks use them. -/
def noteFetch (s : State) (iface p : Nat) (r : PendingRec) (bs : List Byte) : State :=
  let s1 := devNote s p r.pva 128
  if !layoutOk bs || !fieldsOk bs then s1 else
  let l := launchOfRecord s iface r bs
  devNote (devNote s1 p (l.code - 4096) 4096) p (((partAt s p).map (·.grantPva)).getD 0 + 128 * worldNo l.world) 128

/-- LAUNCH_FETCH: the scheduler fetches the next record of a queue (R326, R364). -/
def execLaunchFetch (iface : Nat) (s : State) : Out :=
  let f := ifaceAt s iface
  match f.fetch with
  | [] => .next s
  | r :: _ =>
    match pasidEntry s f r.pasid with
    | none => .next (dropPacket s iface r 2)
    | some e => match devRead s f.part r.pva 128 with
      | none => .next (dropPacket s iface r 4)
      | some bs => .next (acceptRecord (noteFetch s iface f.part r bs) iface r bs e)

/-! ### Eligibility and batches (R327, R331) -/

/-- The launch that stands before one in its queue. -/
def predecessor (s : State) (l : Launch) : Option Launch :=
  if l.position = 0 then none else s.launches.find? fun x => x.queue == l.queue && x.position + 1 == l.position
def predecessorDone (s : State) (l : Launch) : Bool :=
  match predecessor s l with | some x => x.phase == 2 | none => true
def streamCounter (s : State) (p i : Nat) : BitVec 32 :=
  match partAt s p with | some x => lookupD x.counters (i % 4096) 0 | none => 0

/-- A queued launch may become eligible (R327). -/
def mayRun (s : State) (l : Launch) : Bool :=
  l.phase == 0 && l.status == 0 && predecessorDone s l &&
  (l.waitCnt / 2 ^ 15 == 0 || decide (l.waitVal ≤ (streamCounter s l.part l.waitCnt).toNat))

/-- The PVA of a sequence entry, and its fields (R330). An entry that the device cannot read is FREE. -/
def seqAt (s : State) (p i : Nat) : Nat := (((partAt s p).map (·.seqPva)).getD 0) + 32 * i
def seqState (s : State) (p i : Nat) : Nat := (devNat s p (seqAt s p i) 1).getD 0
def seqTokens (s : State) (p i : Nat) : Nat := (devNat s p (seqAt s p i + 4) 4).getD 0
def setSeqState (s : State) (p i v : Nat) : State := devWrite s p (seqAt s p i) (leBytes 1 v)

/-- The head of the admission FIFO leaves it. -/
def popAdmission (s : State) (p : Nat) : State := modPart s p fun x => { x with admission := x.admission.drop 1 }

/-- The loop of R331 over the admission FIFO: the state, and the slots admitted in order. -/
def admitFrom (s : State) (p budget : Nat) : List Nat → Nat → State × List Nat
  | [], _ => (s, [])
  | w :: rest, used =>
    if seqState s p w ≠ 1 then admitFrom (popAdmission s p) p budget rest used
    else if budget < used + seqTokens s p w then (s, [])
    else
      let r := admitFrom (popAdmission (setSeqState s p w 2) p) p budget rest (used + seqTokens s p w)
      (r.1, w :: r.2)

/-- One more token of a sequence. -/
def addToken (s : State) (p i : Nat) : State := devWrite s p (seqAt s p i + 4) (leBytes 4 (seqTokens s p i + 1))

/-- Form the batch of a STEP launch (R331). -/
def formBatch (s : State) (l : Launch) : State :=
  let active := (List.range 4096).filter fun i => seqState s l.part i == 2
  let fifo := ((partAt s l.part).map (·.admission)).getD []
  let a := admitFrom s l.part l.mbx[7].toNat fifo 0
  let list := active ++ a.2
  let s1 := list.foldl (fun t i => addToken (devNote t l.part (seqAt t l.part i) 8) l.part i) a.1
  let at_ := l.mbx[1].toNat
  let stamp := gvtOf s (some l.part) + 1
  let tooLong := decide (l.dataLen < at_ + 4 * list.length)
  let s2 := if tooLong then s1 else devWrite s1 l.part (l.data + at_) (list.flatMap (leBytes 4))
  modLaunch s2 l.id fun x => { x with
    batch := list, stamp := stamp, mbx := if tooLong then x.mbx else x.mbx.set 6 (w64 list.length),
    status := if tooLong then 1 else x.status, reason := if tooLong then 7 else x.reason }

/-- LAUNCH_ELIGIBLE: a launch becomes eligible; a STEP launch forms its batch first. -/
def execLaunchEligible (launch : Nat) (s : State) : Out :=
  match launchOf s launch with
  | some l =>
    if mayRun s l then
      let s1 := modLaunch s launch fun x => { x with phase := 1 }
      .next (if bits l.flags 2 2 = 1 then formBatch s1 l else s1)
    else .next s
  | none => .next s

/-! ### Sequences (R218, R330, R332) -/

/-- Free a KV handle with the authority of world 0 (R204, R332); whether it is still to be freed. -/
def freeKv (s : State) (p h : Nat) : State × Bool :=
  match tileIx s p (h % 2 ^ 20) with
  | some { gen := g, tile := some t, .. } =>
    if g ≠ h / 2 ^ 20 then (s, false)
    else if t.state = 2 ∨ t.shadow.isSome ∨ !t.pins.isEmpty then (s, true)
    else (freeTile s p (h % 2 ^ 20), false)
  | _ => (s, false)

/-- The KV handles of a sequence; none when the device cannot read them. -/
def kvList (s : State) (p i : Nat) : Option (List Nat) :=
  match devNat s p (seqAt s p i + 8) 8, devNat s p (seqAt s p i + 16) 2 with
  | some a, some n => (devRead s p (a % 2 ^ 57) (4 * min n 1024)).map fun bs => (List.range (min n 1024)).map fun j => recField bs (4 * j) 4
  | _, _ => none

/-- Free what can be freed of a retired sequence; with nothing left its STATE becomes FREE (R332). -/
def retireSequence (s : State) (p slot launch : Nat) : State :=
  match kvList s p slot with
  | none => s
  | some l =>
    let r := l.foldl (fun (a : State × Bool) h => let q := freeKv a.1 p h; (q.1, a.2 || q.2)) (devNote s p (seqAt s p slot) 32, false)
    if r.2 then r.1
    else modPart (setSeqState r.1 p slot 0) p fun x => { x with retiring := x.retiring.filter fun y => y != (slot, launch) }

/-- The retired sequences of a partition whose step is over and passed by gvt (R332); those of one launch, or all. -/
def retireSequences (s : State) (p : Nat) (only : Option Nat) : State :=
  match partAt s p with
  | none => s
  | some x => x.retiring.foldl (fun t q =>
      match launchOf s q.2 with
      | some l => if l.phase = 2 ∧ l.stamp < x.gvt ∧ (only = none ∨ only = some q.2) then retireSequence t p q.1 q.2 else t
      | none => t) s

/-- SQEND (R218): STATE becomes RETIRING and STAMP the stamp of the step. -/
def execSqend (a : BitVec 5) (s : State) : Out :=
  Run.out do
    needSlot s
    let v := (rd s a).toNat
    let id := (me s).task.launch
    let p := (myPart s).getD 64
    if 4096 ≤ v then return returns s a 3
    match launchOf s id with
    | none => return returns s a 1
    | some l =>
      if !l.batch.contains v then return returns s a 1
      if (((partAt s p).map (·.retiring)).getD []).any fun x => x.1 == v then return returns s a 2
      let s1 := devWrite (setSeqState s p v 3) p (seqAt s p v + 24) (leBytes 8 l.stamp)
      return returns (modPart s1 p fun x => { x with retiring := x.retiring ++ [(v, id)] }) a 0

/-- GVT_PUBLISH: 64 clocks after a sample, gvt rises, and sequences that it passes are freed (R288, R332). -/
def execGvtPublish (part : Nat) (s : State) : Out :=
  match (partAt s part).bind (·.sample) with
  | some (due, g) =>
    if s.cycle < due then .next s
    else .next (retireSequences (modPart s part fun x => { x with gvt := max x.gvt g, sample := none }) part none)
  | none => .next s

/-- ADMISSION_WRITE: a slot in state WAITING enters the admission FIFO (R330, R335). -/
def execAdmissionWrite (word : BitVec 64) (s : State) : Out :=
  let p := bits word.toNat 17 12
  let i := word.toNat % 4096
  .next (if seqState s p i = 1 then modPart s p fun x => { x with admission := x.admission ++ [i] } else s)

/-! ### Ending a launch (R329) -/

/-- Kill a slot for its launch, without a kill record (R329, R393, log entry 21). -/
def dropTask (s : State) (k : Nat) : State := if (slotAt s k).state == .empty then s else askKill s k 8

def savesLaunch (id : Nat) (c : SaveCounter) : Bool := c.slots.any fun x => x.slot.task.launch == id

/-- A slot runs a task of a launch; the launch is one of its partition. -/
def runsLaunch (s : State) (l : Launch) (e : Nat × SlotSt) : Bool :=
  e.2.state != .empty && e.2.task.launch == l.id && partOfSlot s e.1 == some l.part

/-- A cluster without the reservation of a launch. -/
def dropReservation (id : Nat) (c : ClusterSt) : ClusterSt :=
  match c.reservation with
  | some r => if r.launch = id then { c with reservation := none } else c
  | none => c

/-- The launch ends early: its queued gangs are dropped, its tasks killed, its transfers cancelled, and its colophon reports
a status (R329, R388, R393). -/
def stopLaunch (s : State) (id status : Nat) : State :=
  match launchOf s id with
  | none => s
  | some l =>
    let s1 := modLaunch s id fun x => { x with status := status }
    let s2 : State := { s1 with clusters := s1.clusters.map fun e => (e.1, dropReservation id e.2) }
    let s3 := (s2.slots.filter fun e => runsLaunch s2 l e).foldl (fun t e => dropTask t e.1) s2
    let s4 := dropSavedWhere s3 l.part (savesLaunch id)
    (s4.clusters.flatMap fun e => (chansWhere s4 e.1 fun c => c.job.launch == id).map fun ch => (e.1, ch)).foldl
      (fun t q => endTransfer t q.1 q.2 .cancelled 0) s4

/-- It has ended before its tasks did. -/
def isStopped (l : Launch) : Bool := l.status == 2 || l.status == 3 || l.status == 5

/-- No task of a launch runs or is saved. -/
def noTasks (s : State) (l : Launch) : Bool :=
  s.slots.all (fun e => !runsLaunch s l e) && match partAt s l.part with
    | some p => p.saves.all fun c => !savesLaunch l.id c
    | none => true
/-- No record of a launch waits to start, and no message is on its way to a counter of it (log entry 20). -/
def noRecords (s : State) (id : Nat) : Bool :=
  let rec_ := fun (r : TaskRec) => r.launch != id
  let msg := fun (m : Msg) => match counterAt s m.part m.name with | some c => c.launch != id | none => true
  s.cores.all (fun e => e.2.deque.all rec_ && e.2.inbox.all msg) && s.parts.all (fun p => p.2.overflow.all rec_) && s.network.all msg
def noGangs (s : State) (l : Launch) : Bool :=
  l.nextGang == gangCount l && l.again.isEmpty && s.clusters.all fun e => match e.2.reservation with | some r => r.launch != l.id | none => true

/-- The work of a launch is over (R329). -/
def launchOver (s : State) (l : Launch) : Bool :=
  isRefused l || l.reason == 7 ||
  (noTasks s l && (isStopped l || (l.phase == 1 && noGangs s l && noRecords s l.id)))

/-- Every write of the launch's tasks, channels and store-outs has reached its home (R253). -/
def writesHome (s : State) (id : Nat) : Bool :=
  let mine := fun (e : MemEv) => e.launch == some id && (e.kind.writes || e.kind.isFence)
  !(s.iq ++ s.transit).any mine && s.clusters.all (fun e => e.2.chans.all fun c => c.2.state != .running || c.2.job.launch != id) &&
  s.cores.all fun e => match e.2.matrixRun with | some r => r.outs.all fun row => row.all fun x => x.launch != some id | none => true

/-- The 32 bytes of a colophon (R329). -/
def colophonBytes (s : State) (l : Launch) : List Byte :=
  leBytes 4 l.seqNo ++ leBytes 1 l.status ++ leBytes 3 0 ++ leBytes 8 (s.cycle - l.accepted) ++ leBytes 1 l.cause ++
  leBytes 1 l.killKind ++ leBytes 1 l.reason ++ leBytes 1 0 ++ leBytes 4 l.faultTask ++ leBytes 8 l.faultPc.toNat

/-- Version v is the one that follows a frame: those between are all held (R206, R209). -/
def follows (l : List TFrame) (f : TFrame) (v : Nat) : Bool :=
  f.held.isNone && decide (f.version < v) &&
  (l.filter fun g => decide (f.version < g.version) && decide (g.version < v) && g.held.isSome).length == v - f.version - 1
/-- A held version takes effect: it now follows the version before it. -/
def commitFrame (l : List TFrame) (g : TFrame) : List TFrame :=
  l.map fun f =>
    if f.version = g.version then { f with held := none }
    else if follows l f g.version then { f with nextTime := some g.publishTime } else f

/-- The held publishes of a launch take effect, in their order (R206, R255). -/
def commitTile (id : Nat) (t : Tile) : Tile :=
  { t with version := t.frames.foldl (fun v f => if f.held = some id then max v f.version else v) t.version,
           frames := (t.frames.filter fun f => f.held == some id).foldl commitFrame t.frames }
def holdsFor (id : Nat) (t : Tile) : Bool := t.frames.any fun f => f.held == some id
def tilesWhere (s : State) (p : Nat) (f : Tile → Bool) : List Nat :=
  match partAt s p with
  | some x => (x.tiles.filter fun e => match e.2.tile with | some t => f t | none => false).map (·.1)
  | none => []
def commitHeld (s : State) (p id : Nat) : State :=
  (tilesWhere s p (holdsFor id)).foldl (fun t i => serve (modTile t p i (commitTile id)) p i) s

/-- A write tenure that was granted above withdrawn versions publishes under the next number again (R394). -/
def renumber (s : State) (p i : Nat) : State :=
  match tileAt s p i with
  | none => s
  | some t => match t.shadow with
    | none => s
    | some sh =>
      let v := nextVersion t
      let h := tileHandle s p i
      let upd := fun (e : Tenure) => if e.handle = h ∧ e.write then { e with version := v } else e
      let s1 := modTile s p i fun t => { t with shadow := some { sh with version := v } }
      if sh.slot < 2 ^ 20 then modSlot s1 sh.slot fun x => { x with eng := { x.eng with tenures := x.eng.tenures.map upd } } else s1

/-- The held publishes of a discarded launch are withdrawn (R394): their frame slots and pages return, and their numbers are assigned
again. -/
def withdrawHeld (s : State) (p id : Nat) : State :=
  (tilesWhere s p (holdsFor id)).foldl (fun t i =>
    match tileAt t p i with
    | some x => serve (renumber (setFrames t p i (x.frames.filter fun f => f.held != some id)) p i) p i
    | none => t) s

/-- A colophon with SIGCNT valid raises its stream counter (R327). -/
def signal (s : State) (l : Launch) : State :=
  if l.sigCnt / 2 ^ 15 = 1 then
    modPart s l.part fun x => { x with counters := insert x.counters (l.sigCnt % 4096) (streamCounter s l.part l.sigCnt + 1) }
  else s

/-- Write the colophon of a launch: its span ends (R4, R211, R327, R329, R365). -/
def writeColophon (s : State) (l : Launch) : State :=
  let s1 := signal (devWrite s l.part l.colophon (colophonBytes s l)) l
  let s0 := freeCounters s1 l.part fun c => c.launch == l.id
  let s2 := if l.status = 2 then withdrawHeld s0 l.part l.id else commitHeld s0 l.part l.id
  let s3 := retireSequences (modLaunch s2 l.id fun x => { x with phase := 2 }) l.part (some l.id)
  match l.vec with
  | some v => sendVector s3 (l.queue / 8) v (some l.part)
  | none => s3

/-- COLOPHON_WRITE (R253, R329). -/
def execColophonWrite (launch : Nat) (s : State) : Out :=
  match launchOf s launch with
  | some l =>
    if l.phase ≠ 2 && predecessorDone s l && launchOver s l && writesHome s launch then .next (writeColophon s l) else .next s
  | none => .next s

end Sys2Proof.Machine
end

