-- ==== Sys2Proof/Machine/Partition.lean ====
section
/-! DEFINITION. Partitions (R333), interrupt claims (R317, R318), the queue interfaces' captures (R363, R364), and the words
of the management window that no port performs (R335, R355, R361, R365, R367, R396, R399). -/

namespace Sys2Proof.Machine

/-- The status of a port operation, for who made it (R335). -/
def setStatus (s : State) (v : Nat) : State :=
  modMod s fun m => { m with portStatus := insert m.portStatus m.portReader (w64 v) }

/-! ### The partition descriptor -/

def bitsSet (v n : Nat) : List Nat := (List.range n).filter fun i => v.testBit i
def descClusters (bs : List Byte) : List Nat := bitsSet (recField bs 16 16) 128
def descGranules (bs : List Byte) : List Nat := bitsSet (recField bs 32 8) 64
def descLanes (bs : List Byte) : List Nat := (List.range 36).map fun i => recField bs 40 18 / 2 ^ (4 * i) % 16
def pageAligned (a w : Nat) : Bool := decide (a < 2 ^ w) && a % 4096 == 0

def inGranules (gs : List Nat) (a : Nat) : Bool := match granuleOf a with | some g => gs.contains g | none => false

/-- No field of the descriptor is invalid. -/
def descOkay (bs : List Byte) : Bool :=
  let zero := fun (o n : Nat) => recField bs o n == 0
  let within := fun (o lo hi : Nat) => decide (lo ≤ recField bs o 1) && decide (recField bs o 1 ≤ hi)
  let base2 := dword bs 88
  decide (recField bs 0 1 < 64) && zero 1 15 && !(descClusters bs).isEmpty && !(descGranules bs).isEmpty &&
  within 58 12 20 && within 59 6 16 && decide (recField bs 60 4 ≤ (descGranules bs).length * 2 ^ 22) &&
  pageAligned (dword bs 64) 57 && pageAligned (dword bs 72) 57 && decide (dword bs 80 < 2 ^ 46) && dword bs 80 % 2 ^ 21 == 0 &&
  pageAligned base2 48 && inGranules (descGranules bs) base2 && inGranules (descGranules bs) (base2 + 2 ^ 28 - 1) &&
  pageAligned (dword bs 96) 57 && pageAligned (dword bs 104) 57 && within 112 8 20 && zero 113 15

/-- A PVA of the descriptor lies in an open page, through the tables that the descriptor names (R333). DEDUCED (log entry 74): one that does
not translate yet is not refused. -/
def inOpenPage (s : State) (x : PartSt) (p pva : Nat) : Bool :=
  match devFlat (setPart s p x) p pva 1 with
  | some (a, _) => !isDm a || (pageAt s a).opened
  | none => true

/-- A resource of the descriptor is in use. -/
def descBusy (s : State) (bs : List Byte) : Bool :=
  (partAt s (recField bs 0 1)).isSome || s.parts.any fun e =>
    e.2.clusters.any (descClusters bs).contains || e.2.granules.any (descGranules bs).contains ||
    (e.2.lanes.zip (descLanes bs)).any fun q => q.1 &&& q.2 != 0

/-- The pages of the version pool: the highest HBM pages of the granules that hold no metadata (R268, log entry 23). -/
def poolOf (gs : List Nat) (n : Nat) : List Nat :=
  (gs.reverse.flatMap fun g =>
    if g = 63 then [] else (List.range (min n (2 ^ 22))).map fun i => 2 ^ 34 * (g + 1) - 4096 * (i + 1)).take n

/-- A partition right after its creation (R4, R333). -/
def newPart (s : State) (bs : List Byte) : PartSt :=
  { clusters := descClusters bs, granules := descGranules bs, lanes := descLanes bs, tileLog2 := recField bs 58 1,
    faultLog2 := recField bs 59 1, poolSize := recField bs 60 4, faultPva := dword bs 64, seqPva := dword bs 72,
    stage1 := dword bs 80, stage2 := dword bs 88, grantPva := dword bs 96, overflowPva := dword bs 104,
    overflowLog2 := recField bs 112 1, created := s.cycle, tiles := [], pool := poolOf (descGranules bs) (recField bs 60 4),
    worlds := [(0, { World.reset with live := true, key := some (Config.worldZeroKey s.free) })], gvt := 0, floor := 0,
    sample := none, pend := 0, tail := 0, faults := [], counters := [], admission := [], retiring := [], overflow := [],
    overflowTail := 0, destroyed := [], saves := [], tier := Vector.replicate 16 0, demoting := [], frameCounts := [],
    routes := Vector.replicate 64 0xFF, descriptor := bs }

/-- The cores of a partition: those of its clusters, and the gateway cores of ports whose lanes it holds whole (R371). -/
def coresOfPart (x : PartSt) : List Nat :=
  (x.clusters.flatMap fun c => (List.range 16).map (c * 16 + ·)) ++
  ((List.range 36).filter fun i => x.lanes.getD i 0 == 15).map (2048 + ·)

/-- Slot 15 of a core runs world 0 from the creation of the partition on (R45, log entry 22). -/
def startSupervisor (s : State) (p core : Nat) : State :=
  modSlot s (supervisorOf core) fun x => { x with state := .ready, park := none, world := worldId p 0, rdy := s.cycle }

/-- PARTITION_CREATE: the descriptor lies at a device address (log entry 7). -/
def execPartitionCreate (word descriptor : BitVec 64) (s : State) : Out :=
  match dpaRead s (descriptor.toNat % 2 ^ 57) 128 with
  | none => .next (setStatus s 2)
  | some bs =>
    let p := recField bs 0 1
    let x := newPart s bs
    let bad := !descOkay bs || p != word.toNat % 64 || !inOpenPage s x p x.grantPva || !inOpenPage s x p x.overflowPva
    let busy := descBusy s bs
    if bad && busy then
      let (s1, i) := choose s 2
      .next (setStatus s1 (i + 1))
    else if bad then .next (setStatus s 2)
    else if busy then .next (setStatus s 1)
    else
      let s1 := setPart (bumpFree s) p x
      .next (setStatus ((coresOfPart x).foldl (fun t c => startSupervisor t p c) s1) 0)

/-! ### Teardown -/

/-- The slots of the partition's cores come to nothing, with their windows zeroed (R50, R333). -/
def clearSlot (s : State) (k : Nat) : State :=
  let x := slotAt s k
  let s1 := clearLocal s (coreOfSlot k) (winBase x) (winLen x)
  wakeKillers { s1 with slots := erase s1.slots k } k

/-- The flat addresses of the stage-1 tables that a table at a GPA reaches, with their sizes: only entries that memory lists
can be present. -/
def tablesFrom (s : State) (p : Nat) (x : PartSt) : Nat → Nat → Nat → List (Nat × Nat)
  | 0, _, _ => []
  | n + 1, gpa, size =>
    match stage2 s p x gpa with
    | .error _ => []
    | .ok t =>
      let ix := ((s.mem.filter fun c => decide (t.flat ≤ c.1) && decide (c.1 < t.flat + size)).map fun c => (c.1 - t.flat) / 8).eraseDups
      (t.flat, size) :: ix.flatMap fun i =>
        let e := leNat (memReadBytes s.mem (t.flat + 8 * i) 8)
        if e % 4 = 1 then tablesFrom s p x n (bits e 45 12 * 4096) 4096 else []

/-- Zero the bytes of a PVA range that translate to memory the device lists. -/
def clearPva (s : State) (p pva n : Nat) : State :=
  (List.range ((n + 4095) / 4096)).foldl (fun t i =>
    match devFlat t p (pva + 4096 * i) 1 with
    | some (a, _) => { t with mem := memClear t.mem a (min 4096 (n - 4096 * i)) }
    | none => t) s

/-- The tables and rings of the partition span leave memory: nothing of them is readable afterwards (R4, log entry 24). -/
def clearTables (s : State) (p : Nat) (x : PartSt) : State :=
  let s1 := clearPva s p x.seqPva (32 * 4096)
  let s2 := clearPva s1 p x.grantPva 8192
  let s3 := clearPva s2 p x.faultPva (32 * 2 ^ x.faultLog2)
  let s4 := clearPva s3 p x.overflowPva (32 * 2 ^ x.overflowLog2)
  let s5 := (tablesFrom s4 p x 4 x.stage1 (2 ^ 21)).foldl (fun t q => { t with mem := memClear t.mem q.1 q.2 }) s4
  { s5 with mem := memClear s5.mem x.stage2 (2 ^ 28) }

/-- A core, a cluster and a link port whose partition ends: parts out of service stay, and so do a cluster's clock and a port's state;
event counters of cores and clusters, and the gateway's queue, end with the partition (R4, R390, R398). -/
def clearedCore (c : CoreSt) : CoreSt := { CoreSt.reset with outOfService := c.outOfService }
def clearedCluster (c : ClusterSt) : ClusterSt :=
  { ClusterSt.reset with outOfService := c.outOfService, clock := c.clock, phase := c.phase, stalled := c.stalled }
def clearedPort (x : Port) : Port := { Port.reset with up := x.up, retries := x.retries }

/-- What an application core waits for in a partition that ends is over: killed, saved, switched or revoked. -/
def freeApps (s : State) (p : Nat) (x : PartSt) : State :=
  s.apps.foldl (fun t e => match e.2.park with
    | some { cont := .cxsave d k _, .. } =>
      if x.clusters.contains (clusterOfSlot k) then completeOf (setRegOf t (.app e.1) d 1) (.app e.1) else t
    | some { cont := .bankset d c _ _ _, .. } =>
      if x.clusters.contains c then completeOf (setRegOf t (.app e.1) d 0) (.app e.1) else t
    | some { cont := .revoke d q _, .. } => if q = p then completeOf (setRegOf t (.app e.1) d 0) (.app e.1) else t
    | _ => t) s

/-- The colophons that a teardown writes (R333). -/
def closeLaunches (s : State) (p : Nat) : State :=
  (s.launches.filter fun l => l.part == p && l.phase != 2).foldl (fun t l => writeColophon t { l with status := 5 }) s

/-- The threads of a partition. -/
def isThreadOf (x : PartSt) (th : Nat) : Bool :=
  if th < 2 ^ 20 then (coresOfPart x).contains (coreOfSlot th)
  else decide (2 ^ 21 ≤ th) && decide (th < 2 ^ 22) && x.clusters.contains ((th - 2 ^ 21) / 16)

/-- The partition span ends (R4, R333). -/
def endPartition (s : State) (p : Nat) (x : PartSt) : State :=
  let s1 := drainWrites s fun e => isThreadOf x e.thread
  let s2 : State := { s1 with iq := s1.iq.filter fun e => !isThreadOf x e.thread,
                              bound := s1.bound.filter fun e => !isThreadOf x e.thread,
                              network := s1.network.filter fun m => m.part != p }
  let s3 := freeApps (clearTables s2 p x) p x
  let ks := (s3.slots.filter fun e => (coresOfPart x).contains (coreOfSlot e.1)).map (·.1)
  let s4 := ks.foldl clearSlot s3
  let s5 := (coresOfPart x).foldl (fun t c =>
    { modCore t c clearedCore with mem := memClear t.mem (flatLocal c 0) 0xC000 }) s4
  let s6 := x.clusters.foldl (fun t c =>
    { modCluster t c clearedCluster with mem := memClear t.mem (flatScratch c 0) (2 ^ 21) }) s5
  modMod { s6 with parts := erase s6.parts p } fun m =>
    { m with sessions := m.sessions.map fun q => (q.1, { q.2 with worlds := q.2.worlds.filter fun w => partOfWorld w != p }),
             ports := m.ports.map fun q => if x.lanes.getD q.1 0 = 15 then (q.1, clearedPort q.2) else q }

/-- PARTITION_TEARDOWN, and the command words of no op: status 2 for them and for a partition that does not exist (R333,
R335). -/
def execPartitionTeardown (word : BitVec 64) (s : State) : Out :=
  let p := word.toNat % 64
  match word.toNat / 2 ^ 62, partAt s p with
  | 1, some x => .next (setStatus (endPartition (closeLaunches s p) p x) 0)
  | _, _ => .next (setStatus s 2)

/-! ### Interrupt claims (R317, R318) -/

def wordSource (w : BitVec 64) : Nat := bits w.toNat 15 8
def claimAt (s : State) (src : Nat) : Claim := lookupD s.mod.claims src Claim.reset
def setClaim (s : State) (src : Nat) (c : Claim) : State := modMod s fun m => { m with claims := insert m.claims src c }

/-- A claim is made: a held event is delivered now (R318). -/
def afterClaim (s : State) (src : Nat) (c : Claim) : State :=
  let s1 := setClaim s src { c with pend := false }
  setStatus (if c.pend then deliverEvent s1 src else s1) 0

def execClaimSupervisor (word : BitVec 64) (s : State) : Out :=
  let src := wordSource word
  let c := claimAt s src
  if 198 ≤ src then .next (setStatus s 3)
  else if c.sup then .next (setStatus s 1)
  else .next (afterClaim s src { c with sup := true, acore := bits word.toNat 12 8 })

def execClaimHost (word : BitVec 64) (s : State) : Out :=
  let src := wordSource word
  let c := claimAt s src
  if 198 ≤ src then .next (setStatus s 3)
  else if c.host then .next (setStatus s 1)
  else .next (afterClaim s src { c with host := true, vec := bits word.toNat 31 24, vf := bits word.toNat 23 18 })

def execClaimRelease (word : BitVec 64) (s : State) : Out :=
  let src := wordSource word
  let c := claimAt s src
  let host := bits word.toNat 61 61 == 1
  if 198 ≤ src then .next (setStatus s 3)
  else if !(if host then c.host else c.sup) then .next (setStatus s 2)
  else .next (setStatus (setClaim s src (if host then { c with host := false } else { c with sup := false })) 0)

def execClaimEscalate (word : BitVec 64) (s : State) : Out :=
  let src := wordSource word
  let c := claimAt s src
  if 198 ≤ src then .next (setStatus s 3)
  else if !c.host then .next (setStatus s 2)
  else .next (setStatus (if c.occurred then sendVector s c.vf c.vec (partOfSource src) else s) 0)

/-- EVENT_DELIVERY: an event of a source is delivered by the claim bits that hold (R318). -/
def execEventDelivery (source : Nat) (s : State) : Out := .next (deliverEvent s source)

/-! ### Captures (R363, R364) -/

def packetBytes (v : Vector Byte 64) : List Byte := v.toList
def packetOp (bs : List Byte) : Nat := bits (recField bs 0 4) 27 24
def packetPasid (bs : List Byte) : Nat := recField bs 0 4 % 2 ^ 20
/-- No field of a packet breaks R363. -/
def packetOk (bs : List Byte) : Bool :=
  let w := recField bs 0 4
  bits w 23 20 == 0 && w / 2 ^ 29 == 0 && decide (packetOp bs ≤ 1) && recField bs 17 47 == 0 &&
  (packetOp bs == 1 || (decide (1 ≤ recField bs 4 4) && decide (recField bs 4 4 ≤ 64) && dword bs 8 % 128 == 0 &&
    decide (dword bs 8 < 2 ^ 57)))

/-- The capture ends: BUSY clears. -/
def endCapture (s : State) (i err : Nat) : State :=
  modIface s i fun f => { f with capture := none, captures := f.captures + 1, err := if err = 0 then f.err else err }

/-- SUBMIT: the records of a captured packet are to be fetched, in order. -/
def execSubmit (iface : Nat) (s : State) : Out :=
  let f := ifaceAt s iface
  match f.capture.map packetBytes with
  | none => .next s
  | some bs =>
    if packetOp bs = 1 then .next s
    else if (pasidEntry s f (packetPasid bs)).isNone then .next (endCapture s iface 2)
    else if !packetOk bs then .next (endCapture s iface 3)
    else
      let vec := if bits (recField bs 0 4) 28 28 = 1 then some (recField bs 16 1) else none
      let rs := (List.range (recField bs 4 4)).map fun j =>
        ({ pva := dword bs 8 + 128 * j, pasid := packetPasid bs, vec := vec, packet := f.captures } : PendingRec)
      .next (modIface (endCapture s iface 0) iface fun f => { f with fetch := f.fetch ++ rs })

/-- The launch of a queue that a CANCEL names: the first of its SEQ that is under way. -/
def cancelled (s : State) (iface seq : Nat) : Option Launch :=
  s.launches.find? fun l => l.queue == iface && l.seqNo == seq && l.phase != 2

/-- CANCEL: a captured packet ends a launch with status 5 (R329, R364). A REVOKED entry cancels nothing (log entry 25). -/
def execCancel (iface : Nat) (s : State) : Out :=
  let f := ifaceAt s iface
  match f.capture.map packetBytes with
  | none => .next s
  | some bs =>
    if packetOp bs ≠ 1 then .next s else
    match pasidEntry s f (packetPasid bs) with
    | none => .next (endCapture s iface 2)
    | some e =>
      if !packetOk bs then .next (endCapture s iface 3)
      else if entryRevoked e then .next (endCapture s iface 0)
      else match cancelled s iface (recField bs 4 4) with
      | none => .next (endCapture s iface 3)
      | some l =>
        let s1 := endCapture s iface 0
        .next (if isRefused l || isStopped l then s1 else carryStops (stopLaunch s1 l.id 5))

/-! ### Words of the window (R8) -/

/-- COUNTER_WINDOW_SELECT: a source word acts as EVSEL on the counter of an address; one that selects nothing has no effect
(R396). -/
def execCounterWindowSelect (offset : Nat) (word : BitVec 64) (s : State) : Out :=
  let v := word.toNat
  if offset % 8 ≠ 0 then .next s
  else if 0x8000 ≤ offset ∧ offset < 0xC000 then
    let n := 8 + (offset - 0x8000) % 128 / 8
    .next (if selectOk v n then
      modCluster s ((offset - 0x8000) / 128) fun c => { c with evcnt := insert c.evcnt n (selected v none) } else s)
  else if 0xC000 ≤ offset ∧ offset < 0xCA00 then
    .next (if selectOk v 24 then modMod s fun m => { m with dieCounters := insert m.dieCounters ((offset - 0xC000) / 8) (selected v none) }
      else s)
  else .next s

/-- The writable bits of word i of a tier block (R355). -/
def tierMask (i : Nat) : Nat :=
  match i with
  | 0 | 1 => 2 ^ 64 - 1
  | 2 | 4 | 6 => 2 ^ 48 - 1
  | 3 | 5 | 7 => 2 ^ 32 - 1
  | 8 => 0xFF01
  | _ => 0
def masked (w : BitVec 64) (m : Nat) : Word := w &&& w64 m

/-- Put a doubleword into 64 bytes at an offset. -/
def splice (v : Vector Byte 64) (o : Nat) (w : Word) : Vector Byte 64 :=
  Vector.ofFn fun j : Fin 64 =>
    if o ≤ j.val && decide (j.val < o + 8) then BitVec.ofNat 8 (w.toNat / 2 ^ (8 * (j.val - o))) else v[j]

/-- The first offset of the notify pages: interface i has the 4 KiB at notifyBase + 4096 i (log entry 19). -/
def notifyBase : Nat := 2 ^ 24

/-- A write of a doubleword of a notify page (R363). -/
def notifyWrite (s : State) (i off : Nat) (w : Word) : State :=
  if off < 0x40 then
    modIface s i fun f => { f with packet := splice f.packet off w }
  else if off = 0x40 then
    modIface s i fun f => if f.capture.isSome then { f with err := 1 } else { f with capture := some f.packet }
  else if off = 0x80 then modIface s i fun f => { f with err := f.err - (f.err &&& bits w.toNat 7 4) }
  else s

/-- A tier engine of a partition has a move under way; a write of the tier block waits for its end (R355). -/
def tierMoving (s : State) (p : Nat) : Bool :=
  match partAt s p with
  | some x => x.frameCounts.any fun f => match f.moving with | some m => decide (m < 3) | none => false
  | none => false

/-! ### Readings of power and temperature (R399) -/

/-- A reading above a threshold raises source 164, and each threshold that it crosses moves above it, so that one excursion raises the
source once. -/
def crossThresholds (s : State) : State :=
  let hot := decide (s.mod.pth < s.mod.power)
  let warm := decide (s.mod.tth < s.mod.temp)
  let s1 := modMod s fun m =>
    { m with pth := if hot then (m.power + 100) % 2 ^ 16 else m.pth, tth := if warm then (m.temp + 4) % 2 ^ 8 else m.tth }
  if hot || warm then deliverEvent s1 164 else s1

/-- Every cluster's clock falls, by a free number of steps. -/
def lowerClocks (s : State) : State :=
  let n := Config.freeChoice s.free
  (List.range 128).foldl (fun t k => modCluster t k fun c => { c with clock := max 1 (c.clock - 1 - n % c.clock) }) (bumpFree s)

/-- Power and temperature are read: thresholds are compared, and above 4,200 W or 105 °C the clocks fall. -/
def takeReading (s : State) (power temp : Nat) : State :=
  let s1 := crossThresholds (modMod s fun m => { m with power := power, temp := temp })
  if 4200 < power ∨ 105 < temp then lowerClocks s1 else s1

/-- Where the model numbers the MSI-X tables of the functions (log entry 73): 2,048 entries of 16 bytes each. -/
def msixBase : Nat := 2 ^ 25
/-- The vector control of an entry is written. A message that waited is sent when the mask goes (R365). -/
def maskVector (s : State) (e : Nat × Nat) (on : Bool) : State :=
  modMod s fun m =>
    if on then { m with msixMask := if m.msixMask.contains e then m.msixMask else m.msixMask ++ [e] }
    else { m with msixMask := m.msixMask.filter fun x => !(x == e), msixPending := m.msixPending.filter fun x => !(x == e),
                  sentInterrupts := m.sentInterrupts ++ (if m.msixPending.contains e then [e] else []) }

/-- REGISTER_WRITE: a doubleword of a window register without behaviour of its own, under its access code (R8). -/
def execRegisterWrite (offset : Nat) (word : BitVec 64) (s : State) : Out :=
  if offset % 8 ≠ 0 then .next s
  else if 0x1000 ≤ offset ∧ offset < 0x3000 then
    let i := (offset - 0x1000) % 128 / 8
    if tierMoving s ((offset - 0x1000) / 128) then .next s
    else .next (modPart s ((offset - 0x1000) / 128) fun p =>
      if h : i < 16 then { p with tier := p.tier.set i (masked word (tierMask i)) } else p)
  else if 0x4000 ≤ offset ∧ offset < 0x6000 then
    .next (modIface s ((offset - 0x4000) / 16) fun f =>
      if offset % 16 = 0 then { f with config0 := masked word (2 ^ 48 - 1) } else { f with config1 := masked word (2 ^ 63 + 63) })
  else if 0x6000 ≤ offset ∧ offset < 0x6200 then
    .next (modMod s fun m => { m with msix := insert m.msix ((offset - 0x6000) / 8) (masked word (2 ^ 48 - 1)) })
  else if 0x7000 ≤ offset ∧ offset < 0x8000 then
    let o := (offset - 0x7000) % 64
    .next (modPart s ((offset - 0x7000) / 64) fun p => { p with routes := splice p.routes o word })
  else if offset = 0xE008 then
    .next (crossThresholds (modMod s fun m => { m with pth := bits word.toNat 31 16, tth := word.toNat % 256 }))
  else if notifyBase ≤ offset ∧ offset < notifyBase + 512 * 4096 then
    .next (notifyWrite s ((offset - notifyBase) / 4096) ((offset - notifyBase) % 4096) word)
  else if msixBase ≤ offset ∧ offset < msixBase + 64 * 2048 * 16 then
    let e := (offset - msixBase) / 16
    .next (if offset % 16 = 8 then maskVector s (e / 2048, e % 2048) (bits word.toNat 32 32 == 1) else s)
  else .next s

end Sys2Proof.Machine
end

