-- ==== Sys2Proof/Machine/Host.lean ====
section
/-! DEFINITION. Fault records and the wake port (R315, R316), walks that finish (R353), memory tiers and flips (R355 to R358,
R362), and the accesses of the host and of peers to memory (R244, R359, R360, R381). -/

namespace Sys2Proof.Machine

/-! ### Fault records -/

/-- What a fault record says of its requester (R315). -/
structure Absence where
  addr : Nat
  stage2 : Bool
  write : Bool
  world : Nat
  kind : Nat
  cluster : Nat
  core : Nat
  unit : Nat
  part : Nat
  deriving DecidableEq, Repr

/-- A slot that is parked on a page not present, with its record not yet posted. -/
def slotAbsence (s : State) (k : Nat) : Option Absence :=
  match (slotAt s k).park, partOfSlot s k with
  | some { cont := .fault a st w kind false, .. }, some p =>
    some { addr := a, stage2 := st, write := w, world := (slotAt s k).world, kind := kind, cluster := clusterOfSlot k,
           core := coreOfSlot k % 16, unit := slotNo k, part := p }
  | _, _ => none

/-- A transfer that waits for a page, with its record not yet posted (R192). -/
def chanAbsence (s : State) (cl ch : Nat) : Option Absence :=
  let c := chanAt s cl ch
  if c.waiting then none else
  (chanAbsent s cl ch).map fun q =>
    { addr := q.1, stage2 := q.2.1, write := q.2.2, world := c.job.world, kind := 1, cluster := cl, core := c.job.core % 16,
      unit := ch, part := c.job.part }

/-- The absence of a thread: a slot, or a copy channel. -/
def absence (s : State) (th : Nat) : Option Absence :=
  if th < 2 ^ 20 then slotAbsence s th
  else if 2 ^ 21 ≤ th ∧ th < 2 ^ 22 then chanAbsence s ((th - 2 ^ 21) / 16) ((th - 2 ^ 21) % 16)
  else none

/-- The record of a thread is posted. -/
def notePosted (s : State) (th : Nat) : State :=
  if th < 2 ^ 20 then
    modSlot s th fun x => match x.park with
      | some { reason := r, abandon := b, cont := .fault a st w k _ } =>
        { x with park := some { reason := r, abandon := b, cont := .fault a st w k true } }
      | _ => x
  else
    let cl := (th - 2 ^ 21) / 16
    let ch := (th - 2 ^ 21) % 16
    setChan s cl ch { chanAt s cl ch with waiting := true }

/-- The 32 bytes of a fault record. -/
def faultBytes (a : Absence) (waiters token : Nat) : List Byte :=
  leBytes 8 (a.addr % 2 ^ 57 + flag a.stage2 * 2 ^ 62 + flag a.write * 2 ^ 63) ++ leBytes 2 a.world ++ leBytes 1 a.kind ++
  leBytes 1 (min waiters 255) ++ leBytes 2 (a.cluster % 128 + a.core % 16 * 2 ^ 8 + a.unit % 16 * 2 ^ 12) ++ leBytes 2 0 ++
  leBytes 4 token ++ leBytes 12 0

/-- A wake token: nonzero, and unlike those of the records not yet woken (R316). -/
def newToken (x : PartSt) (draw : Nat) : Nat :=
  (((List.range (x.faults.length + 1)).map fun i => (draw + i) % (2 ^ 32 - 1) + 1).find? fun t =>
    !x.faults.any fun r => r.token == t).getD 1

/-- The ring position of record n, and whether the record is still in the ring. -/
def ringAt (x : PartSt) (n : Nat) : Nat := x.faultPva + 32 * (n % 2 ^ x.faultLog2)
def inRing (x : PartSt) (n : Nat) : Bool := decide (x.tail ≤ n + x.pend)

/-- A fault on a page that already has a record pending joins it; its waiter count rises. -/
def joinRecord (s : State) (th p : Nat) (x : PartSt) (r : FaultRec) : State :=
  let up := fun (y : FaultRec) => if y.token = r.token then { y with waiters := y.waiters + 1, threads := y.threads ++ [th] } else y
  let s1 := modPart (notePosted s th) p fun y => { y with faults := y.faults.map up }
  if inRing x r.index then devWrite s1 p (ringAt x r.index + 11) (leBytes 1 (min (r.waiters + 1) 255)) else s1

/-- A new record at the tail; PEND rises, and a ring that was empty raises its source. -/
def newRecord (s : State) (th p : Nat) (x : PartSt) (a : Absence) : State :=
  let token := newToken x (Config.freeToken s.free)
  let r : FaultRec := { page := a.addr / 4096, stage2 := a.stage2, write := a.write, token := token, index := x.tail, waiters := 1,
                        threads := [th] }
  let s1 := devWrite (bumpFree (notePosted s th)) p (ringAt x x.tail) (faultBytes a 1 token)
  let s2 := modPart s1 p fun y => { y with faults := y.faults ++ [r], tail := y.tail + 1, pend := y.pend + 1 }
  let s3 := countDie s2 (dieOfCluster a.cluster) 15 (some p) 1
  if x.pend = 0 then deliverEvent s3 p else s3

/-- FAULT_RECORD_POST: a requester joins or posts a record; with the ring full it waits on. -/
def execFaultRecordPost (thread : Nat) (s : State) : Out :=
  match absence s thread with
  | none => .next s
  | some a =>
    match partAt s a.part with
    | none => .next s
    | some x =>
      match x.faults.find? fun r => r.page == a.addr / 4096 && r.stage2 == a.stage2 with
      | some r => .next (joinRecord s thread a.part x r)
      | none => if 2 ^ x.faultLog2 ≤ x.pend then .next s else .next (newRecord s thread a.part x a)

/-- A waiter of a record issues again (R316). -/
def wakeWaiter (s : State) (r : FaultRec) (th : Nat) : State :=
  if th < 2 ^ 20 then
    match (slotAt s th).park with
    | some { cont := .fault a st _ _ true, .. } => if a / 4096 = r.page ∧ st = r.stage2 then readyOf s (.slot th) else s
    | _ => s
  else
    let cl := (th - 2 ^ 21) / 16
    let ch := (th - 2 ^ 21) % 16
    setChan s cl ch { chanAt s cl ch with waiting := false }

/-- WAKE_PORT: every waiter of the record that a token names issues again (R316, R361). -/
def execWakePort (word : BitVec 64) (s : State) : Out :=
  let p := bits word.toNat 37 32
  match (partAt s p).bind fun x => x.faults.find? fun r => r.token == word.toNat % 2 ^ 32 with
  | none => .next s
  | some r =>
    let s1 := modPart s p fun x => { x with faults := x.faults.filter fun y => y.token != r.token }
    .next (r.threads.foldl (fun t th => wakeWaiter t r th) s1)

/-- WALK_COMPLETE: a walk finishes at a cluster port; what is present is kept there (R353). -/
def execWalkComplete (cluster pva : Nat) (s : State) : Out :=
  match partOfCluster s cluster with
  | none => .next s
  | some p => match walk s p pva with
    | .ok t => .next (tlbKeep (noteWalk s p pva) cluster t)
    | _ => .next s

/-! ### Memory tiers (R355 to R358) -/

/-- ACCESS_COUNTER_HALVE: every 1 ms every access counter is halved (R356). -/
def execAccessCounterHalve (s : State) : Out :=
  .next { s with parts := s.parts.map fun e =>
    (e.1, { e.2 with frameCounts := e.2.frameCounts.map fun f => { f with count := f.count / 2 } }) }

/-- Fields of the tier block. -/
def tierNat (x : PartSt) (i : Nat) : Nat := (tierWord x i).toNat
def highOf (x : PartSt) (k : Nat) : Nat := tierNat x k / 2 ^ 32
def lowOf (x : PartSt) (k : Nat) : Nat := tierNat x k % 2 ^ 32
def stackAt (x : PartSt) (k : Nat) : Nat := tierNat x (2 + 2 * k)
def stackCount (x : PartSt) (k : Nat) : Nat := tierNat x (3 + 2 * k)
def promoOf (x : PartSt) : Nat := bits (tierNat x 8) 15 8
def tierOn (x : PartSt) : Bool := bits (tierNat x 8) 0 0 == 1
def setStackCount (x : PartSt) (k n : Nat) : PartSt :=
  if h : 3 + 2 * k < 16 then { x with tier := x.tier.set (3 + 2 * k) (w64 n) } else x

/-- A stage-2 entry, and its fields (R349). -/
def entryAt (s : State) (p : Nat) (x : PartSt) (frame : Nat) : Nat := (tableWord s p (x.stage2 + 8 * frame)).getD 0
def entryFlat (e : Nat) : Nat :=
  let a := bits e 62 32 * 2 ^ 21
  if bits e 8 7 = 2 then flatHost a else flatDevice a
def setEntry (s : State) (x : PartSt) (frame e : Nat) : State := reachHome s (2 ^ 22) (seqNat (x.stage2 + 8 * frame) 8) (leBytes 8 e)

/-- Replace a bit field. -/
def setField (e hi lo v : Nat) : Nat := e - bits e hi lo * 2 ^ lo + v % 2 ^ (hi + 1 - lo) * 2 ^ lo

/-- A frame holds a footprint page of a live tile. -/
def holdsFootprint (x : PartSt) (flat : Nat) : Bool :=
  x.tiles.any fun e => match e.2.tile with
    | some t => (t.basePages ++ t.frames.flatMap (·.pages)).any fun a => a / 2 ^ 21 * 2 ^ 21 == flat
    | none => false

def frameCount (x : PartSt) (frame : Nat) : Nat := ((x.frameCounts.find? fun f => f.gpaFrame == frame).map (·.count)).getD 0
def movingOf (x : PartSt) (frame : Nat) : Option Nat := (x.frameCounts.find? fun f => f.gpaFrame == frame).bind (·.moving)

/-- A present frame that may be demoted: not a peer's, LOCK clear, no footprint page of a live tile. -/
def movable (x : PartSt) (e : Nat) : Bool :=
  e % 2 == 1 && bits e 10 10 == 0 && bits e 9 9 == 0 && !holdsFootprint x (entryFlat e)
/-- A candidate for demotion from tier k (R357). -/
def isCandidate (x : PartSt) (k e : Nat) : Bool := movable x e && bits e 8 7 == k && bits e 6 6 == 0

/-- The frames whose stage-2 entries memory lists: no other entry is present. -/
def listedFrames (s : State) (x : PartSt) : List Nat :=
  ((s.mem.filter fun c => decide (x.stage2 ≤ c.1) && decide (c.1 < x.stage2 + 2 ^ 28)).map fun c => (c.1 - x.stage2) / 8).eraseDups

/-- The victim: the lowest counter, ties to the lowest GPA. -/
def victim (x : PartSt) (l : List Nat) : Option Nat :=
  l.foldl (fun b f => match b with
    | none => some f
    | some g => if frameCount x f < frameCount x g || (frameCount x f == frameCount x g && decide (f < g)) then some f else some g) none

/-- Mark a frame moving, or not moving any more, at a flat address (R358). -/
def markFrame (s : State) (p frame flat : Nat) (m : Option Nat) : State :=
  modPart s p fun x =>
    if x.frameCounts.any fun f => f.gpaFrame == frame then
      { x with frameCounts := x.frameCounts.map fun f => if f.gpaFrame = frame then { f with moving := m, flat := flat } else f }
    else { x with frameCounts := x.frameCounts ++ [{ gpaFrame := frame, flat := flat, count := 0, moving := m }] }

/-- No access to a range of flat addresses is under way (R354, R358). -/
def rangeQuiet (s : State) (flat n : Nat) : Bool :=
  (underWay s).all fun e => e.addrs.all fun a => !(decide (flat ≤ a) && decide (a < flat + n))

/-- Copy n bytes between flat addresses, with the metadata and the poison of device pages (R358, log entry 27). -/
def moveBytes (s : State) (src dst n : Nat) : State :=
  let cells := s.mem.filter fun c => decide (src ≤ c.1) && decide (c.1 < src + n)
  let mem := cells.foldl (fun m c => memWrite m (c.1 - src + dst) c.2) (memClear s.mem dst n)
  let inR := fun (a l : Nat) => decide (a ≤ l) && decide (l < a + n)
  let poison := (s.poison.filter fun l => !inR dst l) ++ (s.poison.filter (inR src)).map fun l => l - src + dst
  let kept := s.pages.filter fun e => !inR dst (4096 * e.1)
  let came := (s.pages.filter fun e => inR src (4096 * e.1)).map fun e => ((4096 * e.1 - src + dst) / 4096, e.2)
  let pages := if isDm dst && isDm src then came.foldl (fun l e => insert l e.1 e.2) kept else kept
  { s with mem := mem, poison := poison, pages := pages }

/-- Accesses that parked while a frame moved issue again (R358). -/
def wakeMoving (s : State) (f : Nat → Nat → Bool) : State :=
  s.slots.foldl (fun t e => match e.2.park with
    | some { cont := .moving fr, .. } => if f ((partOfSlot t e.1).getD 64) fr then readyOf t (.slot e.1) else t
    | _ => t) s

/-- The footprint pages of the partition's tiles that lie in a frame go with it. -/
def moveTiles (s : State) (p src dst : Nat) : State :=
  let go := fun (a : Nat) => if src ≤ a ∧ a < src + 2 ^ 21 then a - src + dst else a
  modPart s p fun x => { x with tiles := x.tiles.map fun e =>
    (e.1, { e.2 with tile := e.2.tile.map fun t =>
      { t with basePages := t.basePages.map go, frames := t.frames.map fun f => { f with pages := f.pages.map go } } }) }

/-- Steps 3 to 6 of R358: the frame goes to the top of stack `dst`, its old place onto stack `src`. -/
def finishMove (s : State) (p : Nat) (x : PartSt) (frame src dst : Nat) : State :=
  let e := entryAt s p x frame
  let top := leNat (memReadBytes s.mem (stackAt x dst + 4 * (stackCount x dst - 1)) 4) % 2 ^ 31
  let e1 := setField (setField e 62 32 top) 8 7 dst
  let s1 := moveBytes s (entryFlat e) (entryFlat e1) (2 ^ 21)
  let s2 := reachHome s1 (2 ^ 22) (seqNat (stackAt x src + 4 * stackCount x src) 4) (leBytes 4 (bits e 62 32))
  let s3 := modPart (setEntry s2 x frame e1) p fun y =>
    setStackCount (setStackCount y dst (stackCount x dst - 1)) src (stackCount x src + 1)
  let s4 := (dropTlb (moveTiles s3 p (entryFlat e) (entryFlat e1)) p fun t => t.frames.contains frame).1
  wakeMoving (markFrame s4 p frame (entryFlat e1) none) fun q f => q == p && f == frame

/-- The frame that a demotion from a tier, or a promotion, has marked. -/
def markedFor (x : PartSt) (m : Nat) : Option Nat := (x.frameCounts.find? fun f => f.moving == some m).map (·.gpaFrame)

/-- Demotion from tier k is active: it starts below LOWk and stops at HIGHk (R357). -/
def demotes (x : PartSt) (k : Nat) : Bool :=
  tierOn x && (decide (stackCount x k < lowOf x k) || (x.demoting.contains k && decide (stackCount x k < highOf x k)))

/-- TIER_DEMOTE: the engine marks its next victim, and once the accesses to it are done moves it down one tier (R357, R358). -/
def execTierDemote (part tier : Nat) (s : State) : Out :=
  match partAt s part with
  | none => .next s
  | some x =>
    if 2 ≤ tier then .next s else
    match markedFor x tier with
    | some f =>
      if rangeQuiet s (entryFlat (entryAt s part x f)) (2 ^ 21) && decide (0 < stackCount x (tier + 1)) then
        .next (finishMove s part x f tier (tier + 1))
      else .next s
    | none =>
      let stop := modPart s part fun y => { y with demoting := y.demoting.filter fun k => k != tier }
      if !demotes x tier || stackCount x (tier + 1) == 0 then .next stop else
      match victim x ((listedFrames s x).filter fun f => isCandidate x tier (entryAt s part x f) && (movingOf x f).isNone) with
      | none => .next stop
      | some f =>
        let s1 := modPart s part fun y => { y with demoting := if y.demoting.contains tier then y.demoting else y.demoting ++ [tier] }
        .next (markFrame s1 part f (entryFlat (entryAt s part x f)) (some tier))

/-- A frame that may be promoted now (R357). -/
def promotes (s : State) (part : Nat) (x : PartSt) (f : Nat) : Bool :=
  let e := entryAt s part x f
  tierOn x && promoOf x != 0 && decide (promoOf x ≤ frameCount x f) && decide (lowOf x 0 < stackCount x 0) && e % 2 == 1 && bits e 10 9 == 0 &&
  (bits e 8 7 == 1 || bits e 8 7 == 2) && (movingOf x f).isNone

/-- TIER_PROMOTE: the engine marks a hot frame, and once the accesses to it are done moves it to T0. -/
def execTierPromote (part gpaFrame : Nat) (s : State) : Out :=
  match partAt s part with
  | none => .next s
  | some x =>
    let e := entryAt s part x gpaFrame
    if movingOf x gpaFrame = some 2 then
      if rangeQuiet s (entryFlat e) (2 ^ 21) && decide (0 < stackCount x 0) then .next (finishMove s part x gpaFrame (bits e 8 7) 0)
      else .next s
    else if promotes s part x gpaFrame && (markedFor x 2).isNone then .next (markFrame s part gpaFrame (entryFlat e) (some 2))
    else .next s

/-! ### Flips (R362) -/

def flipPart (w : BitVec 64) : Nat := bits w.toNat 61 56
def flipFrame (w : BitVec 64) : Nat := bits w.toNat 45 21
/-- An entry names device memory. -/
def isDeviceFrame (e : Nat) : Bool := e % 2 == 1 && bits e 10 10 == 0 && decide (bits e 8 7 ≤ 1)

/-- FLIP_TO_HOST: new accesses park, those in flight end, then BIAS becomes 1 and the port answers 0. -/
def execFlipToHost (word : BitVec 64) (s : State) : Out :=
  let p := flipPart word
  let f := flipFrame word
  match partAt s p with
  | none => .next (setStatus s 1)
  | some x =>
    let e := entryAt s p x f
    if movingOf x f = some 3 then
      if rangeQuiet s (entryFlat e) (2 ^ 21) then
        let s1 := (dropTlb (setEntry s x f (setField e 6 6 1)) p fun t => t.frames.contains f).1
        .next (setStatus (wakeMoving (markFrame s1 p f (entryFlat e) none) fun q g => q == p && g == f) 0)
      else .next s
    else if !isDeviceFrame e then .next (setStatus s 1)
    else if bits e 6 6 = 1 then .next (setStatus s 2)
    else if (movingOf x f).isSome then .next (setStatus s 3)
    else .next (markFrame s p f (entryFlat e) (some 3))

/-- FLIP_TO_DEVICE: the lines that the host holds are given back, BIAS becomes 0, no kept translation has the old type (R230), and the
port answers 0. -/
def execFlipToDevice (word : BitVec 64) (s : State) : Out :=
  let p := flipPart word
  let f := flipFrame word
  match partAt s p with
  | none => .next (setStatus s 1)
  | some x =>
    let e := entryAt s p x f
    if !isDeviceFrame e then .next (setStatus s 1)
    else if bits e 6 6 = 0 then .next (setStatus s 2)
    else if (movingOf x f).isSome then .next (setStatus s 3)
    else .next (setStatus (dropTlb (setEntry s x f (setField e 6 6 0)) p fun t => t.frames.contains f).1 0)

/-! ### The host and peers at the home (R244, R360, R381) -/

/-- A byte of device memory that an agent without a key may write. -/
def openByte (s : State) (a : Nat) : Bool := isDpa a && !isWindow a && !isMetadata a && lineOpens s none a

/-- Write bytes at the homes of device memory, line by line; a line that does not open without a key is dropped and counted. -/
def outsideWrite (s : State) (dpa : Nat) (data : List Byte) : State :=
  let cells := data.mapIdx fun i b => (dpa + i, b)
  let good := cells.filter fun c => openByte s c.1
  let lost := linesOf ((cells.filter fun c => !openByte s c.1).map (·.1))
  lost.foldl (fun t l => countDie t (dieOfDpa l) 12 (partOfDpa t l) 1) (reachHome s (2 ^ 22) (good.map (·.1)) (good.map (·.2)))

/-- What an agent outside reads: the bytes in their order, or CXL poison when one of them lies in a sealed page, or its line does not open
(R381). -/
def outsideBytes (s : State) (l : List Nat) : Option (List Byte) :=
  if l.all fun a => isWindow a || openByte s a then some (l.map (homeByte s (2 ^ 22))) else none
/-- A read from outside: its lines are counted, and the reply goes out. -/
def outsideRead (s : State) (dpa : Nat) (l : List Nat) : State :=
  let good := l.filter (openByte s)
  modMod (noteFills (noteElided s good) 3 0 good) fun m => { m with outsideReply := some (dpa, outsideBytes s l) }

/-- HOST_ACCESS: the host reads or writes device memory; a read leaves the device as it was but for its counters and its reply. A write of
the management window is a port operation of the host (R335). -/
def execHostAccess (write : Bool) (dpa len : Nat) (data : List (BitVec 8)) (s : State) : Out :=
  if write && isWindow dpa then .next (reachHome s (2 ^ 22) [dpa] (data.take len))
  else if write then .next (outsideWrite s dpa (data.take len))
  else .next (outsideRead s dpa (seqNat dpa len))

/-- Where a peer's raw read of a byte binds: a footprint byte of a live tile, at the frame that the publish point maps (R256, R370). -/
def publishedByte (x : PartSt) (a : Nat) : Nat :=
  (x.tiles.findSome? fun e => e.2.tile.bind fun t =>
    ((t.basePages.mapIdx fun i b => (i, b)).find? fun q => q.2 == a / 4096 * 4096).bind fun q =>
      (versionPage t t.version q.1).map (· + a % 4096)).getD a

/-- PEER_MEMORY_ACCESS: a memory flit reads or writes frames of the partition at their homes. -/
def execPeerMemoryAccess (part : Nat) (write : Bool) (dpa len : Nat) (data : List (BitVec 8)) (s : State) : Out :=
  match partAt s part with
  | none => .next s
  | some x =>
    if !((seqNat dpa len).all (inGranules x.granules)) then .next (countDie s 4 12 (some part) 1)
    else if write then .next (outsideWrite s dpa (data.take len))
    else .next (outsideRead s dpa ((seqNat dpa len).map (publishedByte x)))

/-- CXL_CACHE_SNOOP: the host reads or writes its own memory at the system point. -/
def execCxlCacheSnoop (write : Bool) (hpa len : Nat) (data : List (BitVec 8)) (s : State) : Out :=
  if write then
    let bs := data.take len
    .next (reachHome s (2 ^ 22) (seqNat (flatHost hpa) bs.length) bs)
  else .next s

end Sys2Proof.Machine
end

