-- ==== Sys2Proof/Machine/Secure.lean ====
section
/-! DEFINITION. The page-key port (R383), world keys (R384), and sessions (R386 to R388). -/

namespace Sys2Proof.Machine

/-! ### The page-key port -/

def portDomain (w : BitVec 64) : Nat := bits w.toNat 59 48
def portPage (w : BitVec 64) : Nat := bits w.toNat 47 12
/-- The word is valid: its unnamed bits are 0. -/
def pageWordOk (w : BitVec 64) : Bool := bits w.toNat 61 60 == 0 && w.toNat % 4096 == 0

/-- A frame that holds a page is moving. -/
def pageMoving (s : State) (page : Nat) : Bool :=
  s.parts.any fun e => e.2.frameCounts.any fun f => f.moving.isSome && f.flat == page * 4096 / 2 ^ 21 * 2 ^ 21

/-- The status that keeps an op from being done (R383, log entry 28). -/
def pageRefusal (s : State) (w : BitVec 64) (open_ : Bool) : Option Nat :=
  let a := portPage w * 4096
  if !pageWordOk w || (open_ && !(pageAt s a).opened) then some 2
  else if (worldKey s (portDomain w)).isNone || !isDpa a || isWindow a || isMetadata a then some 1
  else if pageMoving s (portPage w) then some 3
  else none

/-- The page's bytes become zero, with no poison. -/
def zeroPage (s : State) (page : Nat) : State :=
  { s with mem := memClear s.mem (4096 * page) 4096, poison := s.poison.filter fun l => l / 4096 != page }
def setPage (s : State) (page : Nat) (m : PageMeta) : State := { s with pages := insert s.pages page m }

/-- An op of the port: accesses to the page park, those in flight end, the page is rewritten, parked ones wake, status 0. -/
def pageOp (s : State) (w : BitVec 64) (open_ : Bool) (rewrite : State → State) : State :=
  let page := portPage w
  if s.mod.pageMoves.contains page then
    if rangeQuiet s (4096 * page) 4096 then
      let s1 := modMod (rewrite s) fun m => { m with pageMoves := m.pageMoves.filter fun p => p != page }
      setStatus (wakeMoving s1 fun _ _ => true) 0
    else s
  else match pageRefusal s w open_ with
    | some v => setStatus s v
    | none => modMod s fun m => { m with pageMoves := m.pageMoves ++ [page] }

/-- SCRUB: the page belongs to a domain and reads as zero. -/
def execScrub (word : BitVec 64) (s : State) : Out :=
  let page := portPage word
  .next (pageOp s word false fun t => setPage (zeroPage t page) page
    (scrubbed (pageAt t (4096 * page)) (portDomain word) (worldKey t (portDomain word))))

/-- SEAL: the contents of an open page are encrypted under a domain. -/
def execSeal (word : BitVec 64) (s : State) : Out :=
  let page := portPage word
  .next (pageOp s word true fun t => setPage t page
    { pageAt t (4096 * page) with opened := false, dom := portDomain word, key := worldKey t (portDomain word) })

/-- OPEN: the page is open, every line zero. -/
def execOpenPage (word : BitVec 64) (s : State) : Out :=
  let page := portPage word
  .next (pageOp s word false fun t => setPage (zeroPage t page) page
    { pageAt t (4096 * page) with opened := true, zero := BitVec.allOnes 64, const := 0, key := none })

/-- Op 3 does nothing: status 2. -/
def execPageKeyInvalidOp (_ : BitVec 64) (s : State) : Out := .next (setStatus s 2)

/-! ### KEYLD (R384) -/

def le8 (v : Nat) : List Byte := leBytes 8 v
/-- The session key as bytes. -/
def sessionKeyBytes (x : Session) : List Byte := leBytes 32 x.key.toNat

/-- The world key that a wrapped key holds for a world of a partition; none when the tag fails. -/
def unwrapKey (x : Session) (bs : List Byte) (w p : Nat) : Option (BitVec 256) :=
  let key := sessionKeyBytes x
  let tag := kmac256 key (bs.take 48 ++ le8 w ++ le8 p) 16 "KTAG"
  if tag ≠ (bs.drop 48).take 16 then none
  else
    let mask := kmac256 key ((bs.drop 8).take 8 ++ le8 w ++ le8 p) 32 "KWRP"
    some (BitVec.ofNat 256 (recField bs 16 32) ^^^ BitVec.ofNat 256 (leNat mask))

/-- The key that KEYLD may load, with its session (the status-1 row of R384). -/
def keyToLoad (s : State) (p w : Nat) (bs : List Byte) : Option (Nat × Session × BitVec 256) :=
  let id := recField bs 4 4
  match lookup s.mod.sessions id, partAt s p with
  | some x, some q =>
    if x.state != .live || recField bs 0 4 != 0x4B455957 || decide (dword bs 8 < x.keyCounter) || decide (4096 ≤ q.destroyed.length)
      then none
    else match unwrapKey x bs w p with
      | some k => if q.destroyed.contains (fingerprint k) then none else some (id, x, k)
      | none => none
  | _, _ => none

/-- The key slot of a world is loaded: the world belongs to the session. keyCounter is one above the last counter. -/
def loadKey (s : State) (p w id : Nat) (x : Session) (k : BitVec 256) (counter : Nat) : State :=
  let y := { x with keyCounter := counter + 1, worlds := worldId p w :: x.worlds.filter fun v => v != worldId p w }
  modWorld (modMod s fun m => { m with sessions := insert m.sessions id y }) (worldId p w) fun z =>
    { z with key := some k, session := some id, revoked := false }

def execKeyld (d a : BitVec 5) (s : State) : Out :=
  Run.out do
    needPrivilege s
    let (s1, bs) ← readRange s 1 (rd s d) 0 64 64 0
    let w := (rd s a).toNat % 64
    let (s2, q) := actingPart s1
    let p := q.getD 64
    let done := fun (t : State) (v : Nat) => parkOf t t.cur .memory false (.reply d (w64 v))
    let z := worldOf s2 (worldId p w)
    -- While the destroyed list is full, every KEYLD answers 1.
    if 4096 ≤ ((partAt s2 p).map fun x => x.destroyed.length).getD 0 then return done s2 1
    if z.key.isSome || z.revoking.isSome then return done s2 2
    match keyToLoad s2 p w bs with
    | some (id, x, k) => return done (loadKey s2 p w id x k (dword bs 8)) 0
    | none => return done s2 1

/-! ### Sessions (R386 to R388) -/

def sessionAt (s : State) (i : Nat) : Option Session := lookup s.mod.sessions i
def setSession (s : State) (i : Nat) (x : Session) : State := modMod s fun m => { m with sessions := insert m.sessions i x }

/-- The base point of X448 (RFC 7748). -/
def publicKey (secret : Nat) : Nat := x448 secret 5

/-- A session number that no session uses: one that was never opened, or whose session has ended with its worlds. -/
def freeSession (s : State) : Option Nat :=
  (List.range 64).find? fun i => match sessionAt s i with | none => true | some x => x.state == .lost && x.worlds.isEmpty

/-- The first 256 bytes of a report. -/
def reportBody (x : PartSt) (nonce : List Byte) (secret sid : Nat) : List Byte :=
  fit 64 nonce ++ leBytes 64 Config.firmwareDigest.toNat ++ shake256 x.descriptor 64 ++ leBytes 56 (publicKey secret) ++
  leBytes 4 sid ++ leBytes 4 0
/-- The report: its body and the device's signature over its digest. -/
def reportBytes (body : List Byte) : List Byte := body ++ leBytes 114 (Config.deviceSignature (shake256 body 64)).toNat

/-- Write bytes at a device address, where its lines open without a key. -/
def dpaWrite (s : State) (dpa : Nat) (bs : List Byte) : State :=
  let cells := (bs.mapIdx fun i b => (dpa + i, b)).filter fun c => openByte s c.1
  reachHome s (2 ^ 22) (cells.map (·.1)) (cells.map (·.2))

/-- SESSION_OPEN: the security processor answers a nonce with a signed report. -/
def execSessionOpen (nonce : List (BitVec 8)) (reportDpa part : Nat) (s : State) : Out :=
  match freeSession s, partAt s part with
  | some sid, some x =>
    if s.mod.moduleFault then .next s else
    let secret := Config.ephemeralSecret s.free
    let y : Session := { state := .opening, part := part, nonce := fit 64 nonce, secret := secret, key := 0, period := 0, grace := 0,
                         deadline := 0, beat := 0, keyCounter := 0, worlds := [] }
    .next (dpaWrite (setSession (bumpFree s) sid y) reportDpa (reportBytes (reportBody x nonce secret sid)))
  | _, _ => .next s

/-- Main clocks of a number of seconds (R398). -/
def seconds (n : Nat) : Nat := n * 1200000000

/-- The session key: 256 bits of SHAKE256 over the X448 shared secret and the nonce. -/
def sessionKeyOf (x : Session) (hostKey : List Byte) : BitVec 256 :=
  BitVec.ofNat 256 (leNat (shake256 (leBytes 56 (x448 x.secret (leNat (hostKey.take 56))) ++ x.nonce) 32))

/-- SESSION_COMPLETE: the session is LIVE; a grace that is not given is 1 s. Parameters outside their limits complete nothing. -/
def execSessionComplete (sid : Nat) (hostKey : List (BitVec 8)) (period : Nat) (graceGiven : Option Nat) (s : State) : Out :=
  let grace := graceGiven.getD 1
  match sessionAt s sid with
  | some x =>
    if x.state != .opening || decide (period < 1) || decide (60 < period) || decide (10 < grace) then .next s
    else .next (setSession s sid { x with state := .live, key := sessionKeyOf x hostKey, period := period, grace := grace,
                                          deadline := s.cycle + seconds period })
  | none => .next s

/-- The tag of a heartbeat. -/
def beatTag (x : Session) (word0 : Word) : Nat := leNat (kmac256 (sessionKeyBytes x) (le8 word0.toNat) 8 "HB")

/-- HEARTBEAT (R387). beat is one above the last counter accepted. -/
def execHeartbeat (word0 word1 : BitVec 64) (s : State) : Out :=
  let sid := word0.toNat % 64
  let n := word0.toNat / 2 ^ 32
  match sessionAt s sid with
  | some x =>
    if (x.state == .live || x.state == .heldState) && decide (x.beat ≤ n) && word1.toNat == beatTag x word0 then
      .next (setSession s sid { x with state := .live, beat := n + 1, deadline := s.cycle + seconds x.period })
    else .next s
  | none => .next s

/-- SESSION_DEADLINE: the deadline's clock is over; the session is HELD, and its contexts stop (R388). -/
def execSessionDeadline (sid : Nat) (s : State) : Out :=
  match sessionAt s sid with
  | some x =>
    if x.state == .live && decide (x.deadline < s.cycle) then .next (deliverEvent (setSession s sid { x with state := .heldState }) 165)
    else .next s
  | none => .next s

/-- A launch of a lost session reports status 3, and none of its gangs is placed any more. -/
def loseLaunch (worlds : List Nat) (l : Launch) : Launch :=
  if worlds.contains l.world && l.phase != 2 && !isRefused l && !isStopped l then { l with status := 3 } else l

/-- SESSION_GRACE_END: the session is LOST; its worlds are revoked as in destroy mode, which kills their contexts (R388). -/
def execSessionGraceEnd (sid : Nat) (s : State) : Out :=
  match sessionAt s sid with
  | some x =>
    if x.state == .heldState && decide (x.deadline + seconds x.grace < s.cycle) then
      let s1 := setSession s sid { x with state := .lost }
      let s2 : State := { s1 with launches := s1.launches.map (loseLaunch x.worlds) }
      let s3 := (s2.launches.filter fun l => l.status == 3 && l.phase != 2).foldl (fun (t : State) l =>
        { t with clusters := t.clusters.map fun e => (e.1, dropReservation l.id e.2) }) s2
      let start := fun (t : State) (w : Nat) =>
        if (worldOf t w).revoked || (worldOf t w).revoking.isSome then t else startRevocation t w true
      .next (carryStops (x.worlds.foldl start s3))
    else .next s
  | none => .next s

end Sys2Proof.Machine
end

