-- ==== Sys2Proof/Machine/Faults.lean ====
section
/-! DEFINITION. Link ports (R366 to R369), device faults and the launches that they discard (R389 to R394), soft errors, power,
clocks and temperature (R398, R399), module reset and power-off (R4). -/

namespace Sys2Proof.Machine

/-! ### Discarded launches (R393, R394) -/

/-- A launch is discarded: its work ends, its colophon will report status 2, and its held publishes are withdrawn. -/
def discardLaunch (s : State) (id : Nat) : State :=
  match launchOf s id with
  | some l => if l.phase = 2 ∨ isRefused l ∨ isStopped l then s else withdrawHeld (stopLaunch s id 2) l.part id
  | none => s

/-- Discard launches, and carry out the stops that this asks for. -/
def discardAll (s : State) (ids : List Nat) : State := carryStops (ids.eraseDups.foldl discardLaunch s)

/-! ### Ports that go down (R366, R368) -/

/-- An access to a peer that leaves on a port. -/
def usesPort (s : State) (port : Nat) (e : MemEv) : Bool := portOfEvent s e == some port

/-- The launches of the running transfers that have a byte still to reach which meets a condition (R393). -/
def copyLaunches (s : State) (through : Nat → Nat → EndByte → Bool) : List Nat :=
  s.clusters.flatMap fun e => (chansWhere s e.1 fun _ => true).filterMap fun ch =>
    if (bytesLeft s e.1 ch).any (through e.1 ch) then some (chanAt s e.1 ch).job.launch else none

/-- A byte of a peer that an endpoint reaches by a port. -/
def endPort (s : State) (port cl ch : Nat) (b : EndByte) : Bool :=
  usesPort s port (placeEv (chanThread cl ch) { ty := b.ty, addrs := [b.flat], dom := none, foot := none, node := 0, ceil := 0 } .read []
    .relaxed .system [])

/-- The launches with a write on its way to a peer by a port, or a running transfer through it (R393). -/
def portLaunches (s : State) (port : Nat) : List Nat :=
  (s.transit.filter (usesPort s port)).filterMap (fun e => e.launch) ++ copyLaunches s (endPort s port)

/-- Reads and atomics of a peer end with no data: their instruction traps with 0x16. -/
def loseReads (s : State) (port : Nat) : State :=
  let gone := s.iq.filter fun e => e.kind.reads && usesPort s port e
  let dead := gone.map fun e => { e with data := e.addrs.map fun _ => (0 : Byte), poisoned := true }
  { s with iq := s.iq.filter fun e => !(e.kind.reads && usesPort s port e), bound := s.bound ++ dead }

/-- Writes on their way to a peer are lost, and their launches discarded. -/
def loseWrites (s : State) (port : Nat) : State :=
  discardAll { s with transit := s.transit.filter fun e => !usesPort s port e } ((portLaunches s port).filter (· != 0))

/-- A message that left by a port and waits for its reply is answered as dropped (R214). -/
def loseReply (port : Nat) (s : State) (k : Nat) : State :=
  match (slotAt s k).park with
  | some { cont := .ack a i, .. } =>
    match s.mod.sentMessages.find? fun q => q.2.id == i with
    | some q =>
      let out := match (partOfSlot s k).bind (partAt s) with | some x => (x.routes.toList.getD q.1 0xFF).toNat | none => 0xFF
      if out = port then completeOf (setRegOf s (.slot k) a 1) (.slot k) else s
    | none => s
  | _ => s

/-- Messages that left by a port and have not arrived are lost, and those without a reply counted (R368). Which had arrived is free; a port
keeps their order, so those that had not are the last ones. -/
def loseMessages (s : State) (port : Nat) : State :=
  let by_ := fun (q : Nat × Msg) => match partAt s q.2.part with | some x => (x.routes.toList.getD q.1 0xFF).toNat == port | none => false
  let l := s.mod.sentMessages.filter by_
  let (s1, n) := choose s (l.length + 1)
  let lost := l.drop (l.length - n)
  let s2 := modMod s1 fun m => { m with sentMessages := m.sentMessages.filter fun q => !lost.contains q }
  (lost.filter fun q => q.2.ack.isNone).foldl (fun t q => countCluster t q.2.cluster 12 1) s2

/-- What is in flight on a port that is down is lost (R368). -/
def losePort (s : State) (port : Nat) : State :=
  let s0 := loseWrites (loseReads s port) port
  loseMessages (s0.slots.foldl (fun t e => loseReply port t e.1) s0) port

/-- A record of the fault log (R391). -/
def logFault (s : State) (r : LogRec) : State :=
  modMod s fun m =>
    let l := if m.faultLog.length < 64 then m.faultLog ++ [r] else m.faultLog.set (m.faultCount % 64) r
    { m with faultLog := l, faultCount := (m.faultCount + 1) % 2 ^ 64 }

/-- The partitions that own a part or a share of it (R389, R390). -/
def ownersOf (s : State) (kind n : Nat) : List Nat :=
  let has := fun (x : PartSt) => match kind with
    | 0 => if isGateway n then x.lanes.getD (n - 2048) 0 == 15 else x.clusters.contains (clusterOfCore n)
    | 1 => x.clusters.contains n
    | 2 => x.granules.contains (n / 4)
    | 3 => x.granules.contains (n / 8)
    | 4 => x.granules.contains (2 * n) || x.granules.contains (2 * n + 1)
    | 7 => x.lanes.getD n 0 != 0
    | _ => false
  (s.parts.filter fun e => has e.2).map (·.1)

/-- Byte 1 of the record: the one owner, or 0xFF (log entry 29). -/
def ownerByte (l : List Nat) : Nat := match l with | [p] => p | _ => 0xFF

/-- The record of a fault that was detected in state s and is being handled in state t, and its sources. -/
def reportFault (s t : State) (kind n discarded : Nat) : State :=
  let owners := ownersOf s kind n
  owners.foldl (fun u p => deliverEvent u (64 + p))
    (logFault t { kind := kind, part := ownerByte owners, number := n, discarded := discarded, cycle := s.cycle })

/-- The launches that are under way and would be discarded. -/
def alive (s : State) (ids : List Nat) : List Nat :=
  ids.eraseDups.filter fun i => match launchOf s i with
    | some l => !(l.phase == 2 || isRefused l || isStopped l)
    | none => false

/-- A port goes down: its traffic is lost, source 128 + port is raised, and the fault is logged (R366, R389, R390). Traffic
that comes to a port which is down is lost too. -/
def portDown (s : State) (port : Nat) : State :=
  let s1 := losePort (modPort s port fun x => { x with up := false }) port
  if (portAt s port).up then
    reportFault s (deliverEvent s1 (128 + port)) 7 port (alive s (portLaunches s port)).length
  else s1

/-- PORT_DOWN. -/
def execPortDown (port : Nat) (s : State) : Out := if port < 36 then .next (portDown s port) else .next s

/-- FLIT_RETRANSMIT: a flit fails its CRC and is sent again; after 64 retransmissions of one flit the port goes down (R366). It is free
whether the flit is the one that failed last (1) or another (0). -/
def execFlitRetransmit (port : Nat) (s : State) : Out :=
  if 36 ≤ port ∨ !(portAt s port).up then .next s else
  let (s0, same) := choose s 2
  let s1 := modPort s0 port fun x => { x with retries := if same = 1 then x.retries + 1 else 1 }
  .next (if 64 ≤ (portAt s1 port).retries then portDown s1 port else s1)

/-- LINK_RETRAIN: the port returns to service. -/
def execLinkRetrain (port : Nat) (s : State) : Out :=
  if 36 ≤ port then .next s else .next (modPort s port fun x => { x with up := true, retries := 0 })

/-- REMOTE_MESSAGE_ARRIVAL: a message of a peer arrives at the hub; its stamp is raised to the gvt of the partition (R369), and it is
delivered as any message is. -/
def execRemoteMessageArrival (part : Nat) (name : BitVec 64) (cluster core stamp : Nat) (payload : List (BitVec 64)) (s : State) :
    Out :=
  if (partAt s part).isNone ∨ 8 < payload.length then .next s else
  let m : Msg := { id := s.nextId, name := name.toNat % 2 ^ 31, stamp := max stamp (gvtOf s (some part)), cluster := cluster,
                   core := core, part := part, world := 0, launch := 0, payload := payload, since := 0, ack := none,
                   remote := true }
  .next (arrive { s with nextId := s.nextId + 1, network := s.network ++ [m] })

/-! ### Device faults (R389 to R391, R393) -/

/-- A point that lies in a failed core or cluster. -/
def pointIn (kind n : Nat) (p : Point) : Bool :=
  match kind, p with
  | 0, .coreBuffer c => c == n
  | 1, .cluster k => k == n
  | 1, .coreBuffer c => !isGateway c && clusterOfCore c == n
  | _, _ => false

/-- A slot lies on a failed core or cluster. -/
def slotIn (kind n k : Nat) : Bool :=
  (kind == 0 && coreOfSlot k == n) || (kind == 1 && !isGateway (coreOfSlot k) && clusterOfSlot k == n)

/-- The part leaves service. -/
def takeOut (s : State) (kind n : Nat) : State :=
  let s1 := modMod s fun m => { m with failed := m.failed ++ [(kind, n)] }
  match kind with
  | 0 => modCore s1 n fun c => { c with outOfService := true }
  | 1 => modCluster s1 n fun c => { c with outOfService := true }
  | _ => s1

/-- A byte of a transfer's endpoint is reached through the part: the copy engine of a failed cluster, a slice, a channel or a package that
its frame depends on, a walker of the cluster's die, or a key engine. DESIGN CHOICE (log entry 15): which walker and which key engine
serve a page is not stated, and is free. -/
def goesThrough (kind n cl _ : Nat) (b : EndByte) : Bool :=
  match kind with
  | 1 => cl == n
  | 5 => dieOfCluster cl == n / 64 && (b.ty == .dm || b.ty == .pm || b.ty == .hm) && Config.frameDepends kind n (b.flat / 2 ^ 21)
  | 6 => isDm b.flat && Config.frameDepends kind n (b.flat / 2 ^ 21)
  | _ => isDm b.flat && depends kind n b.flat

/-- The launches that can place a gang no more: no cluster of their partition has slots enough in service. DESIGN CHOICE (log entry 92):
they are discarded with the part, since each has to produce a colophon (R392). -/
def stuckLaunches (s : State) : List Nat :=
  (s.launches.filter fun l => !noGangs s l &&
    !((((partAt s l.part).map (·.clusters)).getD []).any fun c => decide (gangTasks l ≤ slotsInService s c))).map (·.id)

/-- The launches of R393 at the moment of detection: t is s with the part out of service. -/
def hitLaunches (s t : State) (kind n : Nat) : List Nat :=
  let tasks := (s.slots.filter fun e => e.2.state != .empty && slotIn kind n e.1).map fun e => e.2.task.launch
  let writes := s.transit.filterMap fun e =>
    if e.path.any (pointIn kind n) || e.addrs.any (fun a => isDm a && depends kind n a) then e.launch else none
  alive s (tasks ++ copyLaunches s (goesThrough kind n) ++ writes ++ stuckLaunches t)

/-- A reservation that its cluster can no longer fill is given up, and its gang is placed again (R278, R328, R392). -/
def freeReservations (s : State) : State :=
  s.clusters.foldl (fun t e => match e.2.reservation with
    | some r => if r.size ≤ slotsInService t e.1 then t
      else modLaunch (modCluster t e.1 fun c => { c with reservation := none }) r.launch fun l => { l with again := l.again ++ [r.gang] }
    | none => t) s

/-- The tasks of launches on a part that is out of service end at once: nothing issues there any more. -/
def endFenced (s : State) (kind n : Nat) : State :=
  (s.slots.filter fun e => e.2.state != .empty && slotIn kind n e.1 && e.2.task.launch != 0).foldl (fun t e => endTask t e.1 true) s

/-- DEVICE_FAULT: the part leaves service, its launches are discarded, the fault is logged, and source 64 + p is raised. Kinds 8 and 9 stand
for the hub die's host ports and the security processor, whose fault is a module fault (R390). -/
def execDeviceFault (kind number : Nat) (s : State) : Out :=
  if kind = 7 then execPortDown number s
  else if kind = 8 ∨ kind = 9 then .next (modMod s fun m => { m with moduleFault := true })
  else if 9 < kind ∨ s.mod.failed.contains (kind, number) then .next s
  else
    let t := freeReservations (takeOut s kind number)
    let ids := hitLaunches s t kind number
    .next (reportFault s (discardAll (endFenced t kind number) ids) kind number ids.length)

/-- SOFT_ERROR in a line of data (R389): ECC corrects it and it is counted (source 16), or the line is poisoned (R380). -/
def execSoftError (line : Nat) (corrected : Bool) (s : State) : Out :=
  let a := line / 64 * 64
  if corrected then .next (countDie s (dieOfDpa a) 16 (partOfDpa s a) 1)
  else .next (if s.poison.contains a then s else { s with poison := s.poison ++ [a] })

/-! ### Clocks, power and temperature (R398, R399) -/

/-- THRESHOLD_CROSSING: a reading that crosses a threshold. -/
def execThresholdCrossing (power temp : Nat) (s : State) : Out := .next (takeReading s power temp)

/-- THERMAL_THROTTLE: a reading above 4,200 W or 105 °C. -/
def execThermalThrottle (power temp : Nat) (s : State) : Out := .next (takeReading s power temp)

/-- VOLTAGE_DROOP: a cluster lowers its clock by 100 MHz; the unit is 10 MHz. -/
def execVoltageDroop (cluster : Nat) (s : State) : Out :=
  if 128 ≤ cluster then .next s
  else .next (modCluster s cluster fun c => { c with clock := if 10 < c.clock then c.clock - 10 else c.clock })

/-- VOLTAGE_RECOVERY: a cluster raises its clock toward 1.2 GHz. -/
def execVoltageRecovery (cluster : Nat) (s : State) : Out :=
  if 128 ≤ cluster then .next s
  else .next (modCluster s cluster fun c => { c with clock := min 120 (c.clock + 10) })

/-! ### The module span (R4) -/

/-- A cell of host memory or of a peer's memory, which a reset of this module leaves as it is. -/
def isOutside (a : Nat) : Bool := decide (2 ^ 60 ≤ a) && decide (a < 2 ^ 62)

/-- The device at the release of module reset, after bring-up: memory outside it, the inputs still to come and the numbering
of free values go on. A firmware image without its signature is a module fault (R386). -/
def moduleReset (s : State) : State :=
  { State.reset with
    free := s.free, nextId := s.nextId, agenda := s.agenda, mem := s.mem.filter fun c => isOutside c.1,
    mod := { ModuleSt.reset with moduleFault := !Config.firmwareSigned } }

/-- MODULE_RESET. -/
def execModuleReset (s : State) : Out := .next (moduleReset s)

/-- POWER_OFF: the module span ends, and without power nothing follows. -/
def execPowerOff (s : State) : Out := .next (modMod (moduleReset s) fun m => { m with powered := false })

end Sys2Proof.Machine
end

