-- ==== Sys2Proof/Machine/Table.lean ====
section
/-! DEFINITION. The table unit of a core (R197, R198). -/

namespace Sys2Proof.Machine

def tblWord (bs : List Byte) (o : Nat) : Nat := recField bs o 4

/-- The rules of R197 on an image of 3,104 bytes. -/
def tableOk (bs : List Byte) : Bool :=
  let lo := decodeF fp32 (tblWord bs 0)
  let hi := decodeF fp32 (tblWord bs 4)
  lo.isFin && hi.isFin && ltF lo hi && decide (recField bs 8 1 ≤ 1) && decide (recField bs 9 1 ≤ 1) &&
  recField bs 10 6 == 0 && recField bs 24 8 == 0 &&
  (List.range 768).all fun i => (decodeF fp32 (tblWord bs (32 + 4 * i))).isFin

/-- TBLOAD (R198): the slot parks with reason 0, and the image replaces that of the table slot in one step (R153). -/
def execTbload (k : BitVec 2) (g : BitVec 3) (a b : BitVec 5) (s : State) : Out :=
  Run.out do
    clusterCore s
    let (s1, bs) ← readRange s g (rd s a) (engineDisp b) 3104 64 0
    if !tableOk bs then trap s1 0x19 0
    return parkOf s1 s.cur .memory false (.table k.toNat bs)

/-- TBINFO (R198). -/
def execTbinfo (k : BitVec 2) (a : BitVec 5) (s : State) : Out :=
  Run.out do
    clusterCore s
    return returns s a (match lookup (coreAt s (myCore s)).tables k.toNat with
      | some t => if t.world = myWorld s then tblWord t.image 4 * 2 ^ 32 + tblWord t.image 0 else 0
      | none => 0)

end Sys2Proof.Machine
end

