-- ==== Sys2Proof/Machine/VectorIssue.lean ====
section
/-! DEFINITION. The hand-off of the vector instructions that compute in the bank (R144 to R157, R164): their checks and the
scalars that they fix (R140). -/

namespace Sys2Proof.Machine

noncomputable def execVaddF32 (d : BitVec 6) (a : BitVec 6) (b : BitVec 6) (m : BitVec 3) (s : State) : Out :=
  (handLanes s (.vaddF32 d a b m) (· == 0) 0 0).out
noncomputable def execVsubF32 (d : BitVec 6) (a : BitVec 6) (b : BitVec 6) (m : BitVec 3) (s : State) : Out :=
  (handLanes s (.vsubF32 d a b m) (· == 0) 0 0).out
noncomputable def execVmulF32 (d : BitVec 6) (a : BitVec 6) (b : BitVec 6) (m : BitVec 3) (s : State) : Out :=
  (handLanes s (.vmulF32 d a b m) (· == 0) 0 0).out
noncomputable def execVfmaF32 (d : BitVec 6) (a : BitVec 6) (b : BitVec 6) (m : BitVec 3) (s : State) : Out :=
  (handLanes s (.vfmaF32 d a b m) (· == 0) 0 0).out
noncomputable def execVfmsF32 (d : BitVec 6) (a : BitVec 6) (b : BitVec 6) (m : BitVec 3) (s : State) : Out :=
  (handLanes s (.vfmsF32 d a b m) (· == 0) 0 0).out
noncomputable def execVminF32 (d : BitVec 6) (a : BitVec 6) (b : BitVec 6) (m : BitVec 3) (s : State) : Out :=
  (handLanes s (.vminF32 d a b m) (· == 0) 0 0).out
noncomputable def execVmaxF32 (d : BitVec 6) (a : BitVec 6) (b : BitVec 6) (m : BitVec 3) (s : State) : Out :=
  (handLanes s (.vmaxF32 d a b m) (· == 0) 0 0).out
noncomputable def execVdivF32 (d : BitVec 6) (a : BitVec 6) (b : BitVec 6) (m : BitVec 3) (s : State) : Out :=
  (handLanes s (.vdivF32 d a b m) (· == 0) 0 0).out
noncomputable def execVabsF32 (d : BitVec 6) (a : BitVec 6) (m : BitVec 3) (s : State) : Out :=
  (handLanes s (.vabsF32 d a m) (· == 0) 0 0).out
noncomputable def execVnegF32 (d : BitVec 6) (a : BitVec 6) (m : BitVec 3) (s : State) : Out :=
  (handLanes s (.vnegF32 d a m) (· == 0) 0 0).out
noncomputable def execVsqrtF32 (d : BitVec 6) (a : BitVec 6) (m : BitVec 3) (s : State) : Out :=
  (handLanes s (.vsqrtF32 d a m) (· == 0) 0 0).out
noncomputable def execVsinF32 (d : BitVec 6) (a : BitVec 6) (m : BitVec 3) (s : State) : Out :=
  (handLanes s (.vsinF32 d a m) (· == 0) 0 0).out
noncomputable def execVcosF32 (d : BitVec 6) (a : BitVec 6) (m : BitVec 3) (s : State) : Out :=
  (handLanes s (.vcosF32 d a m) (· == 0) 0 0).out
noncomputable def execVexp2F32 (d : BitVec 6) (a : BitVec 6) (m : BitVec 3) (s : State) : Out :=
  (handLanes s (.vexp2F32 d a m) (· == 0) 0 0).out
noncomputable def execVcmpeqF32 (d : BitVec 3) (a : BitVec 6) (b : BitVec 6) (m : BitVec 3) (s : State) : Out :=
  (handLanes s (.vcmpeqF32 d a b m) (· == 0) 0 0).out
noncomputable def execVcmpltF32 (d : BitVec 3) (a : BitVec 6) (b : BitVec 6) (m : BitVec 3) (s : State) : Out :=
  (handLanes s (.vcmpltF32 d a b m) (· == 0) 0 0).out
noncomputable def execVcmpleF32 (d : BitVec 3) (a : BitVec 6) (b : BitVec 6) (m : BitVec 3) (s : State) : Out :=
  (handLanes s (.vcmpleF32 d a b m) (· == 0) 0 0).out
noncomputable def execVcmpunF32 (d : BitVec 3) (a : BitVec 6) (b : BitVec 6) (m : BitVec 3) (s : State) : Out :=
  (handLanes s (.vcmpunF32 d a b m) (· == 0) 0 0).out
noncomputable def execVselF32 (d : BitVec 6) (a : BitVec 6) (b : BitVec 6) (m : BitVec 3) (s : State) : Out :=
  (handLanes s (.vselF32 d a b m) (· == 0) 0 0).out
noncomputable def execVaddBf16 (d : BitVec 6) (a : BitVec 6) (b : BitVec 6) (m : BitVec 3) (s : State) : Out :=
  (handLanes s (.vaddBf16 d a b m) (· == 1) 0 0).out
noncomputable def execVsubBf16 (d : BitVec 6) (a : BitVec 6) (b : BitVec 6) (m : BitVec 3) (s : State) : Out :=
  (handLanes s (.vsubBf16 d a b m) (· == 1) 0 0).out
noncomputable def execVmulBf16 (d : BitVec 6) (a : BitVec 6) (b : BitVec 6) (m : BitVec 3) (s : State) : Out :=
  (handLanes s (.vmulBf16 d a b m) (· == 1) 0 0).out
noncomputable def execVfmaBf16 (d : BitVec 6) (a : BitVec 6) (b : BitVec 6) (m : BitVec 3) (s : State) : Out :=
  (handLanes s (.vfmaBf16 d a b m) (· == 1) 0 0).out
noncomputable def execVfmsBf16 (d : BitVec 6) (a : BitVec 6) (b : BitVec 6) (m : BitVec 3) (s : State) : Out :=
  (handLanes s (.vfmsBf16 d a b m) (· == 1) 0 0).out
noncomputable def execVminBf16 (d : BitVec 6) (a : BitVec 6) (b : BitVec 6) (m : BitVec 3) (s : State) : Out :=
  (handLanes s (.vminBf16 d a b m) (· == 1) 0 0).out
noncomputable def execVmaxBf16 (d : BitVec 6) (a : BitVec 6) (b : BitVec 6) (m : BitVec 3) (s : State) : Out :=
  (handLanes s (.vmaxBf16 d a b m) (· == 1) 0 0).out
noncomputable def execVdivBf16 (d : BitVec 6) (a : BitVec 6) (b : BitVec 6) (m : BitVec 3) (s : State) : Out :=
  (handLanes s (.vdivBf16 d a b m) (· == 1) 0 0).out
noncomputable def execVabsBf16 (d : BitVec 6) (a : BitVec 6) (m : BitVec 3) (s : State) : Out :=
  (handLanes s (.vabsBf16 d a m) (· == 1) 0 0).out
noncomputable def execVnegBf16 (d : BitVec 6) (a : BitVec 6) (m : BitVec 3) (s : State) : Out :=
  (handLanes s (.vnegBf16 d a m) (· == 1) 0 0).out
noncomputable def execVsqrtBf16 (d : BitVec 6) (a : BitVec 6) (m : BitVec 3) (s : State) : Out :=
  (handLanes s (.vsqrtBf16 d a m) (· == 1) 0 0).out
noncomputable def execVsinBf16 (d : BitVec 6) (a : BitVec 6) (m : BitVec 3) (s : State) : Out :=
  (handLanes s (.vsinBf16 d a m) (· == 1) 0 0).out
noncomputable def execVcosBf16 (d : BitVec 6) (a : BitVec 6) (m : BitVec 3) (s : State) : Out :=
  (handLanes s (.vcosBf16 d a m) (· == 1) 0 0).out
noncomputable def execVexp2Bf16 (d : BitVec 6) (a : BitVec 6) (m : BitVec 3) (s : State) : Out :=
  (handLanes s (.vexp2Bf16 d a m) (· == 1) 0 0).out
noncomputable def execVcmpeqBf16 (d : BitVec 3) (a : BitVec 6) (b : BitVec 6) (m : BitVec 3) (s : State) : Out :=
  (handLanes s (.vcmpeqBf16 d a b m) (· == 1) 0 0).out
noncomputable def execVcmpltBf16 (d : BitVec 3) (a : BitVec 6) (b : BitVec 6) (m : BitVec 3) (s : State) : Out :=
  (handLanes s (.vcmpltBf16 d a b m) (· == 1) 0 0).out
noncomputable def execVcmpleBf16 (d : BitVec 3) (a : BitVec 6) (b : BitVec 6) (m : BitVec 3) (s : State) : Out :=
  (handLanes s (.vcmpleBf16 d a b m) (· == 1) 0 0).out
noncomputable def execVcmpunBf16 (d : BitVec 3) (a : BitVec 6) (b : BitVec 6) (m : BitVec 3) (s : State) : Out :=
  (handLanes s (.vcmpunBf16 d a b m) (· == 1) 0 0).out
noncomputable def execVselBf16 (d : BitVec 6) (a : BitVec 6) (b : BitVec 6) (m : BitVec 3) (s : State) : Out :=
  (handLanes s (.vselBf16 d a b m) (· == 1) 0 0).out
noncomputable def execVaddF16 (d : BitVec 6) (a : BitVec 6) (b : BitVec 6) (m : BitVec 3) (s : State) : Out :=
  (handLanes s (.vaddF16 d a b m) (· == 1) 0 0).out
noncomputable def execVsubF16 (d : BitVec 6) (a : BitVec 6) (b : BitVec 6) (m : BitVec 3) (s : State) : Out :=
  (handLanes s (.vsubF16 d a b m) (· == 1) 0 0).out
noncomputable def execVmulF16 (d : BitVec 6) (a : BitVec 6) (b : BitVec 6) (m : BitVec 3) (s : State) : Out :=
  (handLanes s (.vmulF16 d a b m) (· == 1) 0 0).out
noncomputable def execVfmaF16 (d : BitVec 6) (a : BitVec 6) (b : BitVec 6) (m : BitVec 3) (s : State) : Out :=
  (handLanes s (.vfmaF16 d a b m) (· == 1) 0 0).out
noncomputable def execVfmsF16 (d : BitVec 6) (a : BitVec 6) (b : BitVec 6) (m : BitVec 3) (s : State) : Out :=
  (handLanes s (.vfmsF16 d a b m) (· == 1) 0 0).out
noncomputable def execVminF16 (d : BitVec 6) (a : BitVec 6) (b : BitVec 6) (m : BitVec 3) (s : State) : Out :=
  (handLanes s (.vminF16 d a b m) (· == 1) 0 0).out
noncomputable def execVmaxF16 (d : BitVec 6) (a : BitVec 6) (b : BitVec 6) (m : BitVec 3) (s : State) : Out :=
  (handLanes s (.vmaxF16 d a b m) (· == 1) 0 0).out
noncomputable def execVdivF16 (d : BitVec 6) (a : BitVec 6) (b : BitVec 6) (m : BitVec 3) (s : State) : Out :=
  (handLanes s (.vdivF16 d a b m) (· == 1) 0 0).out
noncomputable def execVabsF16 (d : BitVec 6) (a : BitVec 6) (m : BitVec 3) (s : State) : Out :=
  (handLanes s (.vabsF16 d a m) (· == 1) 0 0).out
noncomputable def execVnegF16 (d : BitVec 6) (a : BitVec 6) (m : BitVec 3) (s : State) : Out :=
  (handLanes s (.vnegF16 d a m) (· == 1) 0 0).out
noncomputable def execVsqrtF16 (d : BitVec 6) (a : BitVec 6) (m : BitVec 3) (s : State) : Out :=
  (handLanes s (.vsqrtF16 d a m) (· == 1) 0 0).out
noncomputable def execVsinF16 (d : BitVec 6) (a : BitVec 6) (m : BitVec 3) (s : State) : Out :=
  (handLanes s (.vsinF16 d a m) (· == 1) 0 0).out
noncomputable def execVcosF16 (d : BitVec 6) (a : BitVec 6) (m : BitVec 3) (s : State) : Out :=
  (handLanes s (.vcosF16 d a m) (· == 1) 0 0).out
noncomputable def execVexp2F16 (d : BitVec 6) (a : BitVec 6) (m : BitVec 3) (s : State) : Out :=
  (handLanes s (.vexp2F16 d a m) (· == 1) 0 0).out
noncomputable def execVcmpeqF16 (d : BitVec 3) (a : BitVec 6) (b : BitVec 6) (m : BitVec 3) (s : State) : Out :=
  (handLanes s (.vcmpeqF16 d a b m) (· == 1) 0 0).out
noncomputable def execVcmpltF16 (d : BitVec 3) (a : BitVec 6) (b : BitVec 6) (m : BitVec 3) (s : State) : Out :=
  (handLanes s (.vcmpltF16 d a b m) (· == 1) 0 0).out
noncomputable def execVcmpleF16 (d : BitVec 3) (a : BitVec 6) (b : BitVec 6) (m : BitVec 3) (s : State) : Out :=
  (handLanes s (.vcmpleF16 d a b m) (· == 1) 0 0).out
noncomputable def execVcmpunF16 (d : BitVec 3) (a : BitVec 6) (b : BitVec 6) (m : BitVec 3) (s : State) : Out :=
  (handLanes s (.vcmpunF16 d a b m) (· == 1) 0 0).out
noncomputable def execVselF16 (d : BitVec 6) (a : BitVec 6) (b : BitVec 6) (m : BitVec 3) (s : State) : Out :=
  (handLanes s (.vselF16 d a b m) (· == 1) 0 0).out
noncomputable def execVaddI32 (d : BitVec 6) (a : BitVec 6) (b : BitVec 6) (m : BitVec 3) (s : State) : Out :=
  (handLanes s (.vaddI32 d a b m) (· == 0) 0 0).out
noncomputable def execVsubI32 (d : BitVec 6) (a : BitVec 6) (b : BitVec 6) (m : BitVec 3) (s : State) : Out :=
  (handLanes s (.vsubI32 d a b m) (· == 0) 0 0).out
noncomputable def execVmulI32 (d : BitVec 6) (a : BitVec 6) (b : BitVec 6) (m : BitVec 3) (s : State) : Out :=
  (handLanes s (.vmulI32 d a b m) (· == 0) 0 0).out
noncomputable def execVmulhI32 (d : BitVec 6) (a : BitVec 6) (b : BitVec 6) (m : BitVec 3) (s : State) : Out :=
  (handLanes s (.vmulhI32 d a b m) (· == 0) 0 0).out
noncomputable def execVminI32 (d : BitVec 6) (a : BitVec 6) (b : BitVec 6) (m : BitVec 3) (s : State) : Out :=
  (handLanes s (.vminI32 d a b m) (· == 0) 0 0).out
noncomputable def execVmaxI32 (d : BitVec 6) (a : BitVec 6) (b : BitVec 6) (m : BitVec 3) (s : State) : Out :=
  (handLanes s (.vmaxI32 d a b m) (· == 0) 0 0).out
noncomputable def execVminnI32 (d : BitVec 6) (a : BitVec 6) (b : BitVec 6) (m : BitVec 3) (s : State) : Out :=
  (handLanes s (.vminnI32 d a b m) (· == 0) 0 0).out
noncomputable def execVmaxnI32 (d : BitVec 6) (a : BitVec 6) (b : BitVec 6) (m : BitVec 3) (s : State) : Out :=
  (handLanes s (.vmaxnI32 d a b m) (· == 0) 0 0).out
noncomputable def execVandI32 (d : BitVec 6) (a : BitVec 6) (b : BitVec 6) (m : BitVec 3) (s : State) : Out :=
  (handLanes s (.vandI32 d a b m) (· == 0) 0 0).out
noncomputable def execVorI32 (d : BitVec 6) (a : BitVec 6) (b : BitVec 6) (m : BitVec 3) (s : State) : Out :=
  (handLanes s (.vorI32 d a b m) (· == 0) 0 0).out
noncomputable def execVxorI32 (d : BitVec 6) (a : BitVec 6) (b : BitVec 6) (m : BitVec 3) (s : State) : Out :=
  (handLanes s (.vxorI32 d a b m) (· == 0) 0 0).out
noncomputable def execVshlI32 (d : BitVec 6) (a : BitVec 6) (b : BitVec 6) (m : BitVec 3) (s : State) : Out :=
  (handLanes s (.vshlI32 d a b m) (· == 0) 0 0).out
noncomputable def execVshrI32 (d : BitVec 6) (a : BitVec 6) (b : BitVec 6) (m : BitVec 3) (s : State) : Out :=
  (handLanes s (.vshrI32 d a b m) (· == 0) 0 0).out
noncomputable def execVsarI32 (d : BitVec 6) (a : BitVec 6) (b : BitVec 6) (m : BitVec 3) (s : State) : Out :=
  (handLanes s (.vsarI32 d a b m) (· == 0) 0 0).out
noncomputable def execVaddsI32 (d : BitVec 6) (a : BitVec 6) (b : BitVec 6) (m : BitVec 3) (s : State) : Out :=
  (handLanes s (.vaddsI32 d a b m) (· == 0) 0 0).out
noncomputable def execVsubsI32 (d : BitVec 6) (a : BitVec 6) (b : BitVec 6) (m : BitVec 3) (s : State) : Out :=
  (handLanes s (.vsubsI32 d a b m) (· == 0) 0 0).out
noncomputable def execVcmpeqI32 (d : BitVec 3) (a : BitVec 6) (b : BitVec 6) (m : BitVec 3) (s : State) : Out :=
  (handLanes s (.vcmpeqI32 d a b m) (· == 0) 0 0).out
noncomputable def execVcmpltI32 (d : BitVec 3) (a : BitVec 6) (b : BitVec 6) (m : BitVec 3) (s : State) : Out :=
  (handLanes s (.vcmpltI32 d a b m) (· == 0) 0 0).out
noncomputable def execVcmpltnI32 (d : BitVec 3) (a : BitVec 6) (b : BitVec 6) (m : BitVec 3) (s : State) : Out :=
  (handLanes s (.vcmpltnI32 d a b m) (· == 0) 0 0).out
noncomputable def execVselI32 (d : BitVec 6) (a : BitVec 6) (b : BitVec 6) (m : BitVec 3) (s : State) : Out :=
  (handLanes s (.vselI32 d a b m) (· == 0) 0 0).out
noncomputable def execVaddI16 (d : BitVec 6) (a : BitVec 6) (b : BitVec 6) (m : BitVec 3) (s : State) : Out :=
  (handLanes s (.vaddI16 d a b m) (· == 1) 0 0).out
noncomputable def execVsubI16 (d : BitVec 6) (a : BitVec 6) (b : BitVec 6) (m : BitVec 3) (s : State) : Out :=
  (handLanes s (.vsubI16 d a b m) (· == 1) 0 0).out
noncomputable def execVmulI16 (d : BitVec 6) (a : BitVec 6) (b : BitVec 6) (m : BitVec 3) (s : State) : Out :=
  (handLanes s (.vmulI16 d a b m) (· == 1) 0 0).out
noncomputable def execVmulhI16 (d : BitVec 6) (a : BitVec 6) (b : BitVec 6) (m : BitVec 3) (s : State) : Out :=
  (handLanes s (.vmulhI16 d a b m) (· == 1) 0 0).out
noncomputable def execVminI16 (d : BitVec 6) (a : BitVec 6) (b : BitVec 6) (m : BitVec 3) (s : State) : Out :=
  (handLanes s (.vminI16 d a b m) (· == 1) 0 0).out
noncomputable def execVmaxI16 (d : BitVec 6) (a : BitVec 6) (b : BitVec 6) (m : BitVec 3) (s : State) : Out :=
  (handLanes s (.vmaxI16 d a b m) (· == 1) 0 0).out
noncomputable def execVminnI16 (d : BitVec 6) (a : BitVec 6) (b : BitVec 6) (m : BitVec 3) (s : State) : Out :=
  (handLanes s (.vminnI16 d a b m) (· == 1) 0 0).out
noncomputable def execVmaxnI16 (d : BitVec 6) (a : BitVec 6) (b : BitVec 6) (m : BitVec 3) (s : State) : Out :=
  (handLanes s (.vmaxnI16 d a b m) (· == 1) 0 0).out
noncomputable def execVandI16 (d : BitVec 6) (a : BitVec 6) (b : BitVec 6) (m : BitVec 3) (s : State) : Out :=
  (handLanes s (.vandI16 d a b m) (· == 1) 0 0).out
noncomputable def execVorI16 (d : BitVec 6) (a : BitVec 6) (b : BitVec 6) (m : BitVec 3) (s : State) : Out :=
  (handLanes s (.vorI16 d a b m) (· == 1) 0 0).out
noncomputable def execVxorI16 (d : BitVec 6) (a : BitVec 6) (b : BitVec 6) (m : BitVec 3) (s : State) : Out :=
  (handLanes s (.vxorI16 d a b m) (· == 1) 0 0).out
noncomputable def execVshlI16 (d : BitVec 6) (a : BitVec 6) (b : BitVec 6) (m : BitVec 3) (s : State) : Out :=
  (handLanes s (.vshlI16 d a b m) (· == 1) 0 0).out
noncomputable def execVshrI16 (d : BitVec 6) (a : BitVec 6) (b : BitVec 6) (m : BitVec 3) (s : State) : Out :=
  (handLanes s (.vshrI16 d a b m) (· == 1) 0 0).out
noncomputable def execVsarI16 (d : BitVec 6) (a : BitVec 6) (b : BitVec 6) (m : BitVec 3) (s : State) : Out :=
  (handLanes s (.vsarI16 d a b m) (· == 1) 0 0).out
noncomputable def execVaddsI16 (d : BitVec 6) (a : BitVec 6) (b : BitVec 6) (m : BitVec 3) (s : State) : Out :=
  (handLanes s (.vaddsI16 d a b m) (· == 1) 0 0).out
noncomputable def execVsubsI16 (d : BitVec 6) (a : BitVec 6) (b : BitVec 6) (m : BitVec 3) (s : State) : Out :=
  (handLanes s (.vsubsI16 d a b m) (· == 1) 0 0).out
noncomputable def execVcmpeqI16 (d : BitVec 3) (a : BitVec 6) (b : BitVec 6) (m : BitVec 3) (s : State) : Out :=
  (handLanes s (.vcmpeqI16 d a b m) (· == 1) 0 0).out
noncomputable def execVcmpltI16 (d : BitVec 3) (a : BitVec 6) (b : BitVec 6) (m : BitVec 3) (s : State) : Out :=
  (handLanes s (.vcmpltI16 d a b m) (· == 1) 0 0).out
noncomputable def execVcmpltnI16 (d : BitVec 3) (a : BitVec 6) (b : BitVec 6) (m : BitVec 3) (s : State) : Out :=
  (handLanes s (.vcmpltnI16 d a b m) (· == 1) 0 0).out
noncomputable def execVselI16 (d : BitVec 6) (a : BitVec 6) (b : BitVec 6) (m : BitVec 3) (s : State) : Out :=
  (handLanes s (.vselI16 d a b m) (· == 1) 0 0).out
noncomputable def execVaddI8 (d : BitVec 6) (a : BitVec 6) (b : BitVec 6) (m : BitVec 3) (s : State) : Out :=
  (handLanes s (.vaddI8 d a b m) (· == 2) 0 0).out
noncomputable def execVsubI8 (d : BitVec 6) (a : BitVec 6) (b : BitVec 6) (m : BitVec 3) (s : State) : Out :=
  (handLanes s (.vsubI8 d a b m) (· == 2) 0 0).out
noncomputable def execVmulI8 (d : BitVec 6) (a : BitVec 6) (b : BitVec 6) (m : BitVec 3) (s : State) : Out :=
  (handLanes s (.vmulI8 d a b m) (· == 2) 0 0).out
noncomputable def execVmulhI8 (d : BitVec 6) (a : BitVec 6) (b : BitVec 6) (m : BitVec 3) (s : State) : Out :=
  (handLanes s (.vmulhI8 d a b m) (· == 2) 0 0).out
noncomputable def execVminI8 (d : BitVec 6) (a : BitVec 6) (b : BitVec 6) (m : BitVec 3) (s : State) : Out :=
  (handLanes s (.vminI8 d a b m) (· == 2) 0 0).out
noncomputable def execVmaxI8 (d : BitVec 6) (a : BitVec 6) (b : BitVec 6) (m : BitVec 3) (s : State) : Out :=
  (handLanes s (.vmaxI8 d a b m) (· == 2) 0 0).out
noncomputable def execVminnI8 (d : BitVec 6) (a : BitVec 6) (b : BitVec 6) (m : BitVec 3) (s : State) : Out :=
  (handLanes s (.vminnI8 d a b m) (· == 2) 0 0).out
noncomputable def execVmaxnI8 (d : BitVec 6) (a : BitVec 6) (b : BitVec 6) (m : BitVec 3) (s : State) : Out :=
  (handLanes s (.vmaxnI8 d a b m) (· == 2) 0 0).out
noncomputable def execVandI8 (d : BitVec 6) (a : BitVec 6) (b : BitVec 6) (m : BitVec 3) (s : State) : Out :=
  (handLanes s (.vandI8 d a b m) (· == 2) 0 0).out
noncomputable def execVorI8 (d : BitVec 6) (a : BitVec 6) (b : BitVec 6) (m : BitVec 3) (s : State) : Out :=
  (handLanes s (.vorI8 d a b m) (· == 2) 0 0).out
noncomputable def execVxorI8 (d : BitVec 6) (a : BitVec 6) (b : BitVec 6) (m : BitVec 3) (s : State) : Out :=
  (handLanes s (.vxorI8 d a b m) (· == 2) 0 0).out
noncomputable def execVshlI8 (d : BitVec 6) (a : BitVec 6) (b : BitVec 6) (m : BitVec 3) (s : State) : Out :=
  (handLanes s (.vshlI8 d a b m) (· == 2) 0 0).out
noncomputable def execVshrI8 (d : BitVec 6) (a : BitVec 6) (b : BitVec 6) (m : BitVec 3) (s : State) : Out :=
  (handLanes s (.vshrI8 d a b m) (· == 2) 0 0).out
noncomputable def execVsarI8 (d : BitVec 6) (a : BitVec 6) (b : BitVec 6) (m : BitVec 3) (s : State) : Out :=
  (handLanes s (.vsarI8 d a b m) (· == 2) 0 0).out
noncomputable def execVaddsI8 (d : BitVec 6) (a : BitVec 6) (b : BitVec 6) (m : BitVec 3) (s : State) : Out :=
  (handLanes s (.vaddsI8 d a b m) (· == 2) 0 0).out
noncomputable def execVsubsI8 (d : BitVec 6) (a : BitVec 6) (b : BitVec 6) (m : BitVec 3) (s : State) : Out :=
  (handLanes s (.vsubsI8 d a b m) (· == 2) 0 0).out
noncomputable def execVcmpeqI8 (d : BitVec 3) (a : BitVec 6) (b : BitVec 6) (m : BitVec 3) (s : State) : Out :=
  (handLanes s (.vcmpeqI8 d a b m) (· == 2) 0 0).out
noncomputable def execVcmpltI8 (d : BitVec 3) (a : BitVec 6) (b : BitVec 6) (m : BitVec 3) (s : State) : Out :=
  (handLanes s (.vcmpltI8 d a b m) (· == 2) 0 0).out
noncomputable def execVcmpltnI8 (d : BitVec 3) (a : BitVec 6) (b : BitVec 6) (m : BitVec 3) (s : State) : Out :=
  (handLanes s (.vcmpltnI8 d a b m) (· == 2) 0 0).out
noncomputable def execVselI8 (d : BitVec 6) (a : BitVec 6) (b : BitVec 6) (m : BitVec 3) (s : State) : Out :=
  (handLanes s (.vselI8 d a b m) (· == 2) 0 0).out
noncomputable def execVperm (d : BitVec 6) (a : BitVec 6) (b : BitVec 6) (m : BitVec 3) (s : State) : Out :=
  (handLanes s (.vperm d a b m) (fun _ => true) 0 0).out
noncomputable def execVslideup (d : BitVec 6) (a : BitVec 6) (b : BitVec 5) (m : BitVec 3) (s : State) : Out :=
  (handLanes s (.vslideup d a b m) (fun _ => true) 0 (rd s b)).out
noncomputable def execVslidedn (d : BitVec 6) (a : BitVec 6) (b : BitVec 5) (m : BitVec 3) (s : State) : Out :=
  (handLanes s (.vslidedn d a b m) (fun _ => true) 0 (rd s b)).out
noncomputable def execVbcast (d : BitVec 6) (a : BitVec 5) (m : BitVec 3) (s : State) : Out :=
  (handLanes s (.vbcast d a m) (fun _ => true) (rd s a) 0).out
noncomputable def execVredsum (d : BitVec 6) (a : BitVec 6) (t : BitVec 2) (m : BitVec 3) (s : State) : Out :=
  (handLanes s (.vredsum d a t m) (typeIs t XTy.isFlt) 0 0).out
noncomputable def execVredmax (d : BitVec 6) (a : BitVec 6) (t : BitVec 2) (m : BitVec 3) (s : State) : Out :=
  (handLanes s (.vredmax d a t m) (typeIs t (fun _ => true)) 0 0).out
noncomputable def execVredmin (d : BitVec 6) (a : BitVec 6) (t : BitVec 2) (m : BitVec 3) (s : State) : Out :=
  (handLanes s (.vredmin d a t m) (typeIs t (fun _ => true)) 0 0).out
noncomputable def execVrediadd (d : BitVec 6) (a : BitVec 6) (t : BitVec 2) (m : BitVec 3) (s : State) : Out :=
  (handLanes s (.vrediadd d a t m) (typeIs t (fun y => !y.isFlt)) 0 0).out
noncomputable def execVinterl (d : BitVec 6) (a : BitVec 6) (b : BitVec 6) (m : BitVec 3) (s : State) : Out :=
  (handLanes s (.vinterl d a b m) (fun _ => true) 0 0).out
noncomputable def execVdeint (d : BitVec 6) (a : BitVec 6) (m : BitVec 3) (s : State) : Out :=
  (handLanes s (.vdeint d a m) (fun _ => true) 0 0).out
noncomputable def execMand (d : BitVec 3) (a : BitVec 3) (b : BitVec 3) (s : State) : Out :=
  (handLanes s (.mand d a b) (fun _ => true) 0 0).out
noncomputable def execMor (d : BitVec 3) (a : BitVec 3) (b : BitVec 3) (s : State) : Out :=
  (handLanes s (.mor d a b) (fun _ => true) 0 0).out
noncomputable def execMxor (d : BitVec 3) (a : BitVec 3) (b : BitVec 3) (s : State) : Out :=
  (handLanes s (.mxor d a b) (fun _ => true) 0 0).out
noncomputable def execMandn (d : BitVec 3) (a : BitVec 3) (b : BitVec 3) (s : State) : Out :=
  (handLanes s (.mandn d a b) (fun _ => true) 0 0).out
noncomputable def execMnot (d : BitVec 3) (a : BitVec 3) (s : State) : Out :=
  (handLanes s (.mnot d a) (fun _ => true) 0 0).out
noncomputable def execMlow (d : BitVec 3) (a : BitVec 3) (s : State) : Out :=
  (handLanes s (.mlow d a) (fun _ => true) 0 0).out
noncomputable def execMbelow (d : BitVec 3) (a : BitVec 3) (s : State) : Out :=
  (handLanes s (.mbelow d a) (fun _ => true) 0 0).out
noncomputable def execVtbl (d : BitVec 6) (a : BitVec 6) (t : BitVec 2) (k : BitVec 2) (m : BitVec 3) (s : State) : Out :=
  (handLanes s (.vtbl d a t k m) (typeIs t XTy.isFlt) 0 0).out
noncomputable def execVnar (d : BitVec 6) (a : BitVec 6) (s0 : BitVec 3) (k : BitVec 2) (c : BitVec 4) (s : State) : Out :=
  (handConv s (.vnar d a s0 k c) d a s0 k true).out
noncomputable def execVnars (d : BitVec 6) (a : BitVec 6) (s0 : BitVec 3) (k : BitVec 2) (c : BitVec 4) (s : State) : Out :=
  (handConv s (.vnars d a s0 k c) d a s0 k true).out
noncomputable def execVwid (d : BitVec 6) (a : BitVec 6) (s0 : BitVec 3) (k : BitVec 2) (c : BitVec 4) (s : State) : Out :=
  (handConv s (.vwid d a s0 k c) d a s0 k false).out
noncomputable def execVwidr (d : BitVec 6) (a : BitVec 6) (c : BitVec 4) (s : State) : Out :=
  (handConv s (.vwidr d a c) d a 0 0 false).out
noncomputable def execVcvtf (d : BitVec 6) (a : BitVec 6) (c : BitVec 4) (s : State) : Out :=
  (handLanes s (.vcvtf d a c) (fun _ => true) 0 0).out
noncomputable def execVcvti (d : BitVec 6) (a : BitVec 6) (c : BitVec 4) (s : State) : Out :=
  (handLanes s (.vcvti d a c) (fun _ => true) 0 0).out
noncomputable def execVhad (d : BitVec 6) (a : BitVec 6) (s0 : BitVec 3) (k : BitVec 2) (s : State) : Out :=
  (handConv s (.vhad d a s0 k) d a s0 k true).out
noncomputable def execVhadi (d : BitVec 6) (a : BitVec 6) (s0 : BitVec 3) (k : BitVec 2) (s : State) : Out :=
  (handConv s (.vhadi d a s0 k) d a s0 k true).out
noncomputable def execVmovv (v : BitVec 6) (a : BitVec 5) (b : BitVec 5) (s : State) : Out :=
  (handLanes s (.vmovv v a b) (fun _ => true) (rd s a) (rd s b)).out
noncomputable def execVsetl (d : BitVec 3) (a : BitVec 5) (s : State) : Out :=
  (handLanes s (.vsetl d a) (fun _ => true) (rd s a) 0).out
noncomputable def execVzero (v : BitVec 6) (m : BitVec 3) (s : State) : Out :=
  (handLanes s (.vzero v m) (fun _ => true) 0 0).out
noncomputable def execVsmovm (d : BitVec 3) (a : BitVec 5) (h : BitVec 1) (s : State) : Out :=
  (handLanes s (.vsmovm d a h) (fun _ => true) (rd s a) 0).out

end Sys2Proof.Machine
end

