-- ==== Sys2Proof/Machine/Dispatch.lean ====
section
/-! DEFINITION. The meaning of every instruction and event: one arm per constructor. -/

namespace Sys2Proof.Machine

-- Lean's compiler cannot run a type of more than 244 constructors with fields, so exec has no compiled code.
open Sys2Proof in noncomputable
def exec (i : Instr) (s : State) : Host.Outcome State Fault Refusal :=
  match i with
  | .add x1 x2 x3 => Sys2Proof.Machine.execAdd x1 x2 x3 s
  | .sub x1 x2 x3 => Sys2Proof.Machine.execSub x1 x2 x3 s
  | .and x1 x2 x3 => Sys2Proof.Machine.execAnd x1 x2 x3 s
  | .or x1 x2 x3 => Sys2Proof.Machine.execOr x1 x2 x3 s
  | .xor x1 x2 x3 => Sys2Proof.Machine.execXor x1 x2 x3 s
  | .andn x1 x2 x3 => Sys2Proof.Machine.execAndn x1 x2 x3 s
  | .shl x1 x2 x3 => Sys2Proof.Machine.execShl x1 x2 x3 s
  | .shr x1 x2 x3 => Sys2Proof.Machine.execShr x1 x2 x3 s
  | .sar x1 x2 x3 => Sys2Proof.Machine.execSar x1 x2 x3 s
  | .rol x1 x2 x3 => Sys2Proof.Machine.execRol x1 x2 x3 s
  | .min x1 x2 x3 => Sys2Proof.Machine.execMin x1 x2 x3 s
  | .max x1 x2 x3 => Sys2Proof.Machine.execMax x1 x2 x3 s
  | .minn x1 x2 x3 => Sys2Proof.Machine.execMinn x1 x2 x3 s
  | .maxn x1 x2 x3 => Sys2Proof.Machine.execMaxn x1 x2 x3 s
  | .slt x1 x2 x3 => Sys2Proof.Machine.execSlt x1 x2 x3 s
  | .sltn x1 x2 x3 => Sys2Proof.Machine.execSltn x1 x2 x3 s
  | .seq x1 x2 x3 => Sys2Proof.Machine.execSeq x1 x2 x3 s
  | .sne x1 x2 x3 => Sys2Proof.Machine.execSne x1 x2 x3 s
  | .addw x1 x2 x3 => Sys2Proof.Machine.execAddw x1 x2 x3 s
  | .subw x1 x2 x3 => Sys2Proof.Machine.execSubw x1 x2 x3 s
  | .addi x1 x2 x3 => Sys2Proof.Machine.execAddi x1 x2 x3 s
  | .andi x1 x2 x3 => Sys2Proof.Machine.execAndi x1 x2 x3 s
  | .ori x1 x2 x3 => Sys2Proof.Machine.execOri x1 x2 x3 s
  | .xori x1 x2 x3 => Sys2Proof.Machine.execXori x1 x2 x3 s
  | .shli x1 x2 x3 => Sys2Proof.Machine.execShli x1 x2 x3 s
  | .shri x1 x2 x3 => Sys2Proof.Machine.execShri x1 x2 x3 s
  | .sari x1 x2 x3 => Sys2Proof.Machine.execSari x1 x2 x3 s
  | .roli x1 x2 x3 => Sys2Proof.Machine.execRoli x1 x2 x3 s
  | .movi x1 x2 => Sys2Proof.Machine.execMovi x1 x2 s
  | .lit x1 x2 x3 => Sys2Proof.Machine.execLit x1 x2 x3 s
  | .slti x1 x2 x3 => Sys2Proof.Machine.execSlti x1 x2 x3 s
  | .sltni x1 x2 x3 => Sys2Proof.Machine.execSltni x1 x2 x3 s
  | .mul x1 x2 x3 => Sys2Proof.Machine.execMul x1 x2 x3 s
  | .mulh x1 x2 x3 => Sys2Proof.Machine.execMulh x1 x2 x3 s
  | .mulhn x1 x2 x3 => Sys2Proof.Machine.execMulhn x1 x2 x3 s
  | .mulw x1 x2 x3 => Sys2Proof.Machine.execMulw x1 x2 x3 s
  | .div x1 x2 x3 => Sys2Proof.Machine.execDiv x1 x2 x3 s
  | .divn x1 x2 x3 => Sys2Proof.Machine.execDivn x1 x2 x3 s
  | .rem x1 x2 x3 => Sys2Proof.Machine.execRem x1 x2 x3 s
  | .remn x1 x2 x3 => Sys2Proof.Machine.execRemn x1 x2 x3 s
  | .divw x1 x2 x3 => Sys2Proof.Machine.execDivw x1 x2 x3 s
  | .remw x1 x2 x3 => Sys2Proof.Machine.execRemw x1 x2 x3 s
  | .divideDone x1 => Sys2Proof.Machine.execDivideDone x1 s
  | .clz x1 x2 => Sys2Proof.Machine.execClz x1 x2 s
  | .ctz x1 x2 => Sys2Proof.Machine.execCtz x1 x2 s
  | .popc x1 x2 => Sys2Proof.Machine.execPopc x1 x2 s
  | .brev x1 x2 => Sys2Proof.Machine.execBrev x1 x2 s
  | .sextb x1 x2 => Sys2Proof.Machine.execSextb x1 x2 s
  | .sexth x1 x2 => Sys2Proof.Machine.execSexth x1 x2 s
  | .sextw x1 x2 => Sys2Proof.Machine.execSextw x1 x2 s
  | .zextb x1 x2 => Sys2Proof.Machine.execZextb x1 x2 s
  | .zexth x1 x2 => Sys2Proof.Machine.execZexth x1 x2 s
  | .zextw x1 x2 => Sys2Proof.Machine.execZextw x1 x2 s
  | .bfx x1 x2 x3 => Sys2Proof.Machine.execBfx x1 x2 x3 s
  | .bfi x1 x2 x3 => Sys2Proof.Machine.execBfi x1 x2 x3 s
  | .padd x1 x2 x3 => Sys2Proof.Machine.execPadd x1 x2 x3 s
  | .psub x1 x2 x3 => Sys2Proof.Machine.execPsub x1 x2 x3 s
  | .pfmt x1 x2 x3 => Sys2Proof.Machine.execPfmt x1 x2 x3 s
  | .pmeta x1 x2 => Sys2Proof.Machine.execPmeta x1 x2 s
  | .pclr x1 x2 => Sys2Proof.Machine.execPclr x1 x2 s
  | .pchk x1 x2 x3 => Sys2Proof.Machine.execPchk x1 x2 x3 s
  | .mfsr x1 x2 => Sys2Proof.Machine.execMfsr x1 x2 s
  | .mtsr x1 x2 => Sys2Proof.Machine.execMtsr x1 x2 s
  | .beq x1 x2 x3 => Sys2Proof.Machine.execBeq x1 x2 x3 s
  | .bne x1 x2 x3 => Sys2Proof.Machine.execBne x1 x2 x3 s
  | .blt x1 x2 x3 => Sys2Proof.Machine.execBlt x1 x2 x3 s
  | .bge x1 x2 x3 => Sys2Proof.Machine.execBge x1 x2 x3 s
  | .bltn x1 x2 x3 => Sys2Proof.Machine.execBltn x1 x2 x3 s
  | .bgen x1 x2 x3 => Sys2Proof.Machine.execBgen x1 x2 x3 s
  | .j x1 => Sys2Proof.Machine.execJ x1 s
  | .jal x1 => Sys2Proof.Machine.execJal x1 s
  | .jr x1 => Sys2Proof.Machine.execJr x1 s
  | .jalr x1 x2 => Sys2Proof.Machine.execJalr x1 x2 s
  | .loop x1 x2 x3 => Sys2Proof.Machine.execLoop x1 x2 x3 s
  | .ldb x1 x2 x3 x4 x5 => Sys2Proof.Machine.execLdb x1 x2 x3 x4 x5 s
  | .ldbn x1 x2 x3 x4 x5 => Sys2Proof.Machine.execLdbn x1 x2 x3 x4 x5 s
  | .ldh x1 x2 x3 x4 x5 => Sys2Proof.Machine.execLdh x1 x2 x3 x4 x5 s
  | .ldhn x1 x2 x3 x4 x5 => Sys2Proof.Machine.execLdhn x1 x2 x3 x4 x5 s
  | .ldw x1 x2 x3 x4 x5 => Sys2Proof.Machine.execLdw x1 x2 x3 x4 x5 s
  | .ldwn x1 x2 x3 x4 x5 => Sys2Proof.Machine.execLdwn x1 x2 x3 x4 x5 s
  | .ldd x1 x2 x3 x4 x5 => Sys2Proof.Machine.execLdd x1 x2 x3 x4 x5 s
  | .stb x1 x2 x3 x4 x5 => Sys2Proof.Machine.execStb x1 x2 x3 x4 x5 s
  | .sth x1 x2 x3 x4 x5 => Sys2Proof.Machine.execSth x1 x2 x3 x4 x5 s
  | .stw x1 x2 x3 x4 x5 => Sys2Proof.Machine.execStw x1 x2 x3 x4 x5 s
  | .std x1 x2 x3 x4 x5 => Sys2Proof.Machine.execStd x1 x2 x3 x4 x5 s
  | .memoryReply x1 => Sys2Proof.Machine.execMemoryReply x1 s
  | .ldo x1 x2 x3 x4 x5 x6 => Sys2Proof.Machine.execLdo x1 x2 x3 x4 x5 x6 s
  | .sto x1 x2 x3 x4 x5 x6 => Sys2Proof.Machine.execSto x1 x2 x3 x4 x5 x6 s
  | .amoadd x1 x2 x3 x4 x5 x6 => Sys2Proof.Machine.execAmoadd x1 x2 x3 x4 x5 x6 s
  | .amoand x1 x2 x3 x4 x5 x6 => Sys2Proof.Machine.execAmoand x1 x2 x3 x4 x5 x6 s
  | .amoor x1 x2 x3 x4 x5 x6 => Sys2Proof.Machine.execAmoor x1 x2 x3 x4 x5 x6 s
  | .amoxor x1 x2 x3 x4 x5 x6 => Sys2Proof.Machine.execAmoxor x1 x2 x3 x4 x5 x6 s
  | .amomin x1 x2 x3 x4 x5 x6 => Sys2Proof.Machine.execAmomin x1 x2 x3 x4 x5 x6 s
  | .amomax x1 x2 x3 x4 x5 x6 => Sys2Proof.Machine.execAmomax x1 x2 x3 x4 x5 x6 s
  | .amoswp x1 x2 x3 x4 x5 x6 => Sys2Proof.Machine.execAmoswp x1 x2 x3 x4 x5 x6 s
  | .amocas x1 x2 x3 x4 x5 x6 => Sys2Proof.Machine.execAmocas x1 x2 x3 x4 x5 x6 s
  | .amowadd x1 x2 x3 x4 x5 x6 => Sys2Proof.Machine.execAmowadd x1 x2 x3 x4 x5 x6 s
  | .amowand x1 x2 x3 x4 x5 x6 => Sys2Proof.Machine.execAmowand x1 x2 x3 x4 x5 x6 s
  | .amowor x1 x2 x3 x4 x5 x6 => Sys2Proof.Machine.execAmowor x1 x2 x3 x4 x5 x6 s
  | .amowxor x1 x2 x3 x4 x5 x6 => Sys2Proof.Machine.execAmowxor x1 x2 x3 x4 x5 x6 s
  | .amowmin x1 x2 x3 x4 x5 x6 => Sys2Proof.Machine.execAmowmin x1 x2 x3 x4 x5 x6 s
  | .amowmax x1 x2 x3 x4 x5 x6 => Sys2Proof.Machine.execAmowmax x1 x2 x3 x4 x5 x6 s
  | .amowswp x1 x2 x3 x4 x5 x6 => Sys2Proof.Machine.execAmowswp x1 x2 x3 x4 x5 x6 s
  | .amowcas x1 x2 x3 x4 x5 x6 => Sys2Proof.Machine.execAmowcas x1 x2 x3 x4 x5 x6 s
  | .fence x1 x2 => Sys2Proof.Machine.execFence x1 x2 s
  | .vaddF32 x1 x2 x3 x4 => Sys2Proof.Machine.execVaddF32 x1 x2 x3 x4 s
  | .vsubF32 x1 x2 x3 x4 => Sys2Proof.Machine.execVsubF32 x1 x2 x3 x4 s
  | .vmulF32 x1 x2 x3 x4 => Sys2Proof.Machine.execVmulF32 x1 x2 x3 x4 s
  | .vfmaF32 x1 x2 x3 x4 => Sys2Proof.Machine.execVfmaF32 x1 x2 x3 x4 s
  | .vfmsF32 x1 x2 x3 x4 => Sys2Proof.Machine.execVfmsF32 x1 x2 x3 x4 s
  | .vminF32 x1 x2 x3 x4 => Sys2Proof.Machine.execVminF32 x1 x2 x3 x4 s
  | .vmaxF32 x1 x2 x3 x4 => Sys2Proof.Machine.execVmaxF32 x1 x2 x3 x4 s
  | .vabsF32 x1 x2 x3 => Sys2Proof.Machine.execVabsF32 x1 x2 x3 s
  | .vnegF32 x1 x2 x3 => Sys2Proof.Machine.execVnegF32 x1 x2 x3 s
  | .vdivF32 x1 x2 x3 x4 => Sys2Proof.Machine.execVdivF32 x1 x2 x3 x4 s
  | .vsqrtF32 x1 x2 x3 => Sys2Proof.Machine.execVsqrtF32 x1 x2 x3 s
  | .vsinF32 x1 x2 x3 => Sys2Proof.Machine.execVsinF32 x1 x2 x3 s
  | .vcosF32 x1 x2 x3 => Sys2Proof.Machine.execVcosF32 x1 x2 x3 s
  | .vexp2F32 x1 x2 x3 => Sys2Proof.Machine.execVexp2F32 x1 x2 x3 s
  | .vcmpeqF32 x1 x2 x3 x4 => Sys2Proof.Machine.execVcmpeqF32 x1 x2 x3 x4 s
  | .vcmpltF32 x1 x2 x3 x4 => Sys2Proof.Machine.execVcmpltF32 x1 x2 x3 x4 s
  | .vcmpleF32 x1 x2 x3 x4 => Sys2Proof.Machine.execVcmpleF32 x1 x2 x3 x4 s
  | .vcmpunF32 x1 x2 x3 x4 => Sys2Proof.Machine.execVcmpunF32 x1 x2 x3 x4 s
  | .vselF32 x1 x2 x3 x4 => Sys2Proof.Machine.execVselF32 x1 x2 x3 x4 s
  | .vaddBf16 x1 x2 x3 x4 => Sys2Proof.Machine.execVaddBf16 x1 x2 x3 x4 s
  | .vsubBf16 x1 x2 x3 x4 => Sys2Proof.Machine.execVsubBf16 x1 x2 x3 x4 s
  | .vmulBf16 x1 x2 x3 x4 => Sys2Proof.Machine.execVmulBf16 x1 x2 x3 x4 s
  | .vfmaBf16 x1 x2 x3 x4 => Sys2Proof.Machine.execVfmaBf16 x1 x2 x3 x4 s
  | .vfmsBf16 x1 x2 x3 x4 => Sys2Proof.Machine.execVfmsBf16 x1 x2 x3 x4 s
  | .vminBf16 x1 x2 x3 x4 => Sys2Proof.Machine.execVminBf16 x1 x2 x3 x4 s
  | .vmaxBf16 x1 x2 x3 x4 => Sys2Proof.Machine.execVmaxBf16 x1 x2 x3 x4 s
  | .vabsBf16 x1 x2 x3 => Sys2Proof.Machine.execVabsBf16 x1 x2 x3 s
  | .vnegBf16 x1 x2 x3 => Sys2Proof.Machine.execVnegBf16 x1 x2 x3 s
  | .vdivBf16 x1 x2 x3 x4 => Sys2Proof.Machine.execVdivBf16 x1 x2 x3 x4 s
  | .vsqrtBf16 x1 x2 x3 => Sys2Proof.Machine.execVsqrtBf16 x1 x2 x3 s
  | .vsinBf16 x1 x2 x3 => Sys2Proof.Machine.execVsinBf16 x1 x2 x3 s
  | .vcosBf16 x1 x2 x3 => Sys2Proof.Machine.execVcosBf16 x1 x2 x3 s
  | .vexp2Bf16 x1 x2 x3 => Sys2Proof.Machine.execVexp2Bf16 x1 x2 x3 s
  | .vcmpeqBf16 x1 x2 x3 x4 => Sys2Proof.Machine.execVcmpeqBf16 x1 x2 x3 x4 s
  | .vcmpltBf16 x1 x2 x3 x4 => Sys2Proof.Machine.execVcmpltBf16 x1 x2 x3 x4 s
  | .vcmpleBf16 x1 x2 x3 x4 => Sys2Proof.Machine.execVcmpleBf16 x1 x2 x3 x4 s
  | .vcmpunBf16 x1 x2 x3 x4 => Sys2Proof.Machine.execVcmpunBf16 x1 x2 x3 x4 s
  | .vselBf16 x1 x2 x3 x4 => Sys2Proof.Machine.execVselBf16 x1 x2 x3 x4 s
  | .vaddF16 x1 x2 x3 x4 => Sys2Proof.Machine.execVaddF16 x1 x2 x3 x4 s
  | .vsubF16 x1 x2 x3 x4 => Sys2Proof.Machine.execVsubF16 x1 x2 x3 x4 s
  | .vmulF16 x1 x2 x3 x4 => Sys2Proof.Machine.execVmulF16 x1 x2 x3 x4 s
  | .vfmaF16 x1 x2 x3 x4 => Sys2Proof.Machine.execVfmaF16 x1 x2 x3 x4 s
  | .vfmsF16 x1 x2 x3 x4 => Sys2Proof.Machine.execVfmsF16 x1 x2 x3 x4 s
  | .vminF16 x1 x2 x3 x4 => Sys2Proof.Machine.execVminF16 x1 x2 x3 x4 s
  | .vmaxF16 x1 x2 x3 x4 => Sys2Proof.Machine.execVmaxF16 x1 x2 x3 x4 s
  | .vabsF16 x1 x2 x3 => Sys2Proof.Machine.execVabsF16 x1 x2 x3 s
  | .vnegF16 x1 x2 x3 => Sys2Proof.Machine.execVnegF16 x1 x2 x3 s
  | .vdivF16 x1 x2 x3 x4 => Sys2Proof.Machine.execVdivF16 x1 x2 x3 x4 s
  | .vsqrtF16 x1 x2 x3 => Sys2Proof.Machine.execVsqrtF16 x1 x2 x3 s
  | .vsinF16 x1 x2 x3 => Sys2Proof.Machine.execVsinF16 x1 x2 x3 s
  | .vcosF16 x1 x2 x3 => Sys2Proof.Machine.execVcosF16 x1 x2 x3 s
  | .vexp2F16 x1 x2 x3 => Sys2Proof.Machine.execVexp2F16 x1 x2 x3 s
  | .vcmpeqF16 x1 x2 x3 x4 => Sys2Proof.Machine.execVcmpeqF16 x1 x2 x3 x4 s
  | .vcmpltF16 x1 x2 x3 x4 => Sys2Proof.Machine.execVcmpltF16 x1 x2 x3 x4 s
  | .vcmpleF16 x1 x2 x3 x4 => Sys2Proof.Machine.execVcmpleF16 x1 x2 x3 x4 s
  | .vcmpunF16 x1 x2 x3 x4 => Sys2Proof.Machine.execVcmpunF16 x1 x2 x3 x4 s
  | .vselF16 x1 x2 x3 x4 => Sys2Proof.Machine.execVselF16 x1 x2 x3 x4 s
  | .vaddI32 x1 x2 x3 x4 => Sys2Proof.Machine.execVaddI32 x1 x2 x3 x4 s
  | .vsubI32 x1 x2 x3 x4 => Sys2Proof.Machine.execVsubI32 x1 x2 x3 x4 s
  | .vmulI32 x1 x2 x3 x4 => Sys2Proof.Machine.execVmulI32 x1 x2 x3 x4 s
  | .vmulhI32 x1 x2 x3 x4 => Sys2Proof.Machine.execVmulhI32 x1 x2 x3 x4 s
  | .vminI32 x1 x2 x3 x4 => Sys2Proof.Machine.execVminI32 x1 x2 x3 x4 s
  | .vmaxI32 x1 x2 x3 x4 => Sys2Proof.Machine.execVmaxI32 x1 x2 x3 x4 s
  | .vminnI32 x1 x2 x3 x4 => Sys2Proof.Machine.execVminnI32 x1 x2 x3 x4 s
  | .vmaxnI32 x1 x2 x3 x4 => Sys2Proof.Machine.execVmaxnI32 x1 x2 x3 x4 s
  | .vandI32 x1 x2 x3 x4 => Sys2Proof.Machine.execVandI32 x1 x2 x3 x4 s
  | .vorI32 x1 x2 x3 x4 => Sys2Proof.Machine.execVorI32 x1 x2 x3 x4 s
  | .vxorI32 x1 x2 x3 x4 => Sys2Proof.Machine.execVxorI32 x1 x2 x3 x4 s
  | .vshlI32 x1 x2 x3 x4 => Sys2Proof.Machine.execVshlI32 x1 x2 x3 x4 s
  | .vshrI32 x1 x2 x3 x4 => Sys2Proof.Machine.execVshrI32 x1 x2 x3 x4 s
  | .vsarI32 x1 x2 x3 x4 => Sys2Proof.Machine.execVsarI32 x1 x2 x3 x4 s
  | .vcmpeqI32 x1 x2 x3 x4 => Sys2Proof.Machine.execVcmpeqI32 x1 x2 x3 x4 s
  | .vcmpltI32 x1 x2 x3 x4 => Sys2Proof.Machine.execVcmpltI32 x1 x2 x3 x4 s
  | .vcmpltnI32 x1 x2 x3 x4 => Sys2Proof.Machine.execVcmpltnI32 x1 x2 x3 x4 s
  | .vselI32 x1 x2 x3 x4 => Sys2Proof.Machine.execVselI32 x1 x2 x3 x4 s
  | .vaddsI32 x1 x2 x3 x4 => Sys2Proof.Machine.execVaddsI32 x1 x2 x3 x4 s
  | .vsubsI32 x1 x2 x3 x4 => Sys2Proof.Machine.execVsubsI32 x1 x2 x3 x4 s
  | .vaddI16 x1 x2 x3 x4 => Sys2Proof.Machine.execVaddI16 x1 x2 x3 x4 s
  | .vsubI16 x1 x2 x3 x4 => Sys2Proof.Machine.execVsubI16 x1 x2 x3 x4 s
  | .vmulI16 x1 x2 x3 x4 => Sys2Proof.Machine.execVmulI16 x1 x2 x3 x4 s
  | .vmulhI16 x1 x2 x3 x4 => Sys2Proof.Machine.execVmulhI16 x1 x2 x3 x4 s
  | .vminI16 x1 x2 x3 x4 => Sys2Proof.Machine.execVminI16 x1 x2 x3 x4 s
  | .vmaxI16 x1 x2 x3 x4 => Sys2Proof.Machine.execVmaxI16 x1 x2 x3 x4 s
  | .vminnI16 x1 x2 x3 x4 => Sys2Proof.Machine.execVminnI16 x1 x2 x3 x4 s
  | .vmaxnI16 x1 x2 x3 x4 => Sys2Proof.Machine.execVmaxnI16 x1 x2 x3 x4 s
  | .vandI16 x1 x2 x3 x4 => Sys2Proof.Machine.execVandI16 x1 x2 x3 x4 s
  | .vorI16 x1 x2 x3 x4 => Sys2Proof.Machine.execVorI16 x1 x2 x3 x4 s
  | .vxorI16 x1 x2 x3 x4 => Sys2Proof.Machine.execVxorI16 x1 x2 x3 x4 s
  | .vshlI16 x1 x2 x3 x4 => Sys2Proof.Machine.execVshlI16 x1 x2 x3 x4 s
  | .vshrI16 x1 x2 x3 x4 => Sys2Proof.Machine.execVshrI16 x1 x2 x3 x4 s
  | .vsarI16 x1 x2 x3 x4 => Sys2Proof.Machine.execVsarI16 x1 x2 x3 x4 s
  | .vcmpeqI16 x1 x2 x3 x4 => Sys2Proof.Machine.execVcmpeqI16 x1 x2 x3 x4 s
  | .vcmpltI16 x1 x2 x3 x4 => Sys2Proof.Machine.execVcmpltI16 x1 x2 x3 x4 s
  | .vcmpltnI16 x1 x2 x3 x4 => Sys2Proof.Machine.execVcmpltnI16 x1 x2 x3 x4 s
  | .vselI16 x1 x2 x3 x4 => Sys2Proof.Machine.execVselI16 x1 x2 x3 x4 s
  | .vaddsI16 x1 x2 x3 x4 => Sys2Proof.Machine.execVaddsI16 x1 x2 x3 x4 s
  | .vsubsI16 x1 x2 x3 x4 => Sys2Proof.Machine.execVsubsI16 x1 x2 x3 x4 s
  | .vaddI8 x1 x2 x3 x4 => Sys2Proof.Machine.execVaddI8 x1 x2 x3 x4 s
  | .vsubI8 x1 x2 x3 x4 => Sys2Proof.Machine.execVsubI8 x1 x2 x3 x4 s
  | .vmulI8 x1 x2 x3 x4 => Sys2Proof.Machine.execVmulI8 x1 x2 x3 x4 s
  | .vmulhI8 x1 x2 x3 x4 => Sys2Proof.Machine.execVmulhI8 x1 x2 x3 x4 s
  | .vminI8 x1 x2 x3 x4 => Sys2Proof.Machine.execVminI8 x1 x2 x3 x4 s
  | .vmaxI8 x1 x2 x3 x4 => Sys2Proof.Machine.execVmaxI8 x1 x2 x3 x4 s
  | .vminnI8 x1 x2 x3 x4 => Sys2Proof.Machine.execVminnI8 x1 x2 x3 x4 s
  | .vmaxnI8 x1 x2 x3 x4 => Sys2Proof.Machine.execVmaxnI8 x1 x2 x3 x4 s
  | .vandI8 x1 x2 x3 x4 => Sys2Proof.Machine.execVandI8 x1 x2 x3 x4 s
  | .vorI8 x1 x2 x3 x4 => Sys2Proof.Machine.execVorI8 x1 x2 x3 x4 s
  | .vxorI8 x1 x2 x3 x4 => Sys2Proof.Machine.execVxorI8 x1 x2 x3 x4 s
  | .vshlI8 x1 x2 x3 x4 => Sys2Proof.Machine.execVshlI8 x1 x2 x3 x4 s
  | .vshrI8 x1 x2 x3 x4 => Sys2Proof.Machine.execVshrI8 x1 x2 x3 x4 s
  | .vsarI8 x1 x2 x3 x4 => Sys2Proof.Machine.execVsarI8 x1 x2 x3 x4 s
  | .vcmpeqI8 x1 x2 x3 x4 => Sys2Proof.Machine.execVcmpeqI8 x1 x2 x3 x4 s
  | .vcmpltI8 x1 x2 x3 x4 => Sys2Proof.Machine.execVcmpltI8 x1 x2 x3 x4 s
  | .vcmpltnI8 x1 x2 x3 x4 => Sys2Proof.Machine.execVcmpltnI8 x1 x2 x3 x4 s
  | .vselI8 x1 x2 x3 x4 => Sys2Proof.Machine.execVselI8 x1 x2 x3 x4 s
  | .vaddsI8 x1 x2 x3 x4 => Sys2Proof.Machine.execVaddsI8 x1 x2 x3 x4 s
  | .vsubsI8 x1 x2 x3 x4 => Sys2Proof.Machine.execVsubsI8 x1 x2 x3 x4 s
  | .vperm x1 x2 x3 x4 => Sys2Proof.Machine.execVperm x1 x2 x3 x4 s
  | .vslideup x1 x2 x3 x4 => Sys2Proof.Machine.execVslideup x1 x2 x3 x4 s
  | .vslidedn x1 x2 x3 x4 => Sys2Proof.Machine.execVslidedn x1 x2 x3 x4 s
  | .vbcast x1 x2 x3 => Sys2Proof.Machine.execVbcast x1 x2 x3 s
  | .vredsum x1 x2 x3 x4 => Sys2Proof.Machine.execVredsum x1 x2 x3 x4 s
  | .vredmax x1 x2 x3 x4 => Sys2Proof.Machine.execVredmax x1 x2 x3 x4 s
  | .vredmin x1 x2 x3 x4 => Sys2Proof.Machine.execVredmin x1 x2 x3 x4 s
  | .vrediadd x1 x2 x3 x4 => Sys2Proof.Machine.execVrediadd x1 x2 x3 x4 s
  | .vinterl x1 x2 x3 x4 => Sys2Proof.Machine.execVinterl x1 x2 x3 x4 s
  | .vdeint x1 x2 x3 => Sys2Proof.Machine.execVdeint x1 x2 x3 s
  | .mand x1 x2 x3 => Sys2Proof.Machine.execMand x1 x2 x3 s
  | .mor x1 x2 x3 => Sys2Proof.Machine.execMor x1 x2 x3 s
  | .mxor x1 x2 x3 => Sys2Proof.Machine.execMxor x1 x2 x3 s
  | .mandn x1 x2 x3 => Sys2Proof.Machine.execMandn x1 x2 x3 s
  | .mnot x1 x2 => Sys2Proof.Machine.execMnot x1 x2 s
  | .mlow x1 x2 => Sys2Proof.Machine.execMlow x1 x2 s
  | .mbelow x1 x2 => Sys2Proof.Machine.execMbelow x1 x2 s
  | .vtbl x1 x2 x3 x4 x5 => Sys2Proof.Machine.execVtbl x1 x2 x3 x4 x5 s
  | .vnar x1 x2 x3 x4 x5 => Sys2Proof.Machine.execVnar x1 x2 x3 x4 x5 s
  | .vnars x1 x2 x3 x4 x5 => Sys2Proof.Machine.execVnars x1 x2 x3 x4 x5 s
  | .vwid x1 x2 x3 x4 x5 => Sys2Proof.Machine.execVwid x1 x2 x3 x4 x5 s
  | .vwidr x1 x2 x3 => Sys2Proof.Machine.execVwidr x1 x2 x3 s
  | .vcvtf x1 x2 x3 => Sys2Proof.Machine.execVcvtf x1 x2 x3 s
  | .vcvti x1 x2 x3 => Sys2Proof.Machine.execVcvti x1 x2 x3 s
  | .vhad x1 x2 x3 x4 => Sys2Proof.Machine.execVhad x1 x2 x3 x4 s
  | .vhadi x1 x2 x3 x4 => Sys2Proof.Machine.execVhadi x1 x2 x3 x4 s
  | .vld x1 x2 x3 x4 x5 => Sys2Proof.Machine.execVld x1 x2 x3 x4 x5 s
  | .vst x1 x2 x3 x4 x5 => Sys2Proof.Machine.execVst x1 x2 x3 x4 x5 s
  | .vlds x1 x2 x3 x4 x5 => Sys2Proof.Machine.execVlds x1 x2 x3 x4 x5 s
  | .vsts x1 x2 x3 x4 x5 => Sys2Proof.Machine.execVsts x1 x2 x3 x4 x5 s
  | .vldf x1 x2 x3 x4 => Sys2Proof.Machine.execVldf x1 x2 x3 x4 s
  | .vstf x1 x2 x3 x4 x5 => Sys2Proof.Machine.execVstf x1 x2 x3 x4 x5 s
  | .vldb x1 x2 x3 x4 x5 => Sys2Proof.Machine.execVldb x1 x2 x3 x4 x5 s
  | .vldm x1 x2 x3 x4 => Sys2Proof.Machine.execVldm x1 x2 x3 x4 s
  | .vstm x1 x2 x3 x4 => Sys2Proof.Machine.execVstm x1 x2 x3 x4 s
  | .vldx x1 x2 x3 x4 x5 => Sys2Proof.Machine.execVldx x1 x2 x3 x4 x5 s
  | .vstx x1 x2 x3 x4 x5 => Sys2Proof.Machine.execVstx x1 x2 x3 x4 x5 s
  | .vstxa x1 x2 x3 x4 x5 => Sys2Proof.Machine.execVstxa x1 x2 x3 x4 x5 s
  | .vmovs x1 x2 x3 => Sys2Proof.Machine.execVmovs x1 x2 x3 s
  | .vmovv x1 x2 x3 => Sys2Proof.Machine.execVmovv x1 x2 x3 s
  | .vsetl x1 x2 => Sys2Proof.Machine.execVsetl x1 x2 s
  | .vloop x1 x2 x3 => Sys2Proof.Machine.execVloop x1 x2 x3 s
  | .vbind x1 => Sys2Proof.Machine.execVbind x1 s
  | .vfree => Sys2Proof.Machine.execVfree s
  | .vtype x1 => Sys2Proof.Machine.execVtype x1 s
  | .gang => Sys2Proof.Machine.execGang s
  | .ungang => Sys2Proof.Machine.execUngang s
  | .vwait => Sys2Proof.Machine.execVwait s
  | .vzero x1 x2 => Sys2Proof.Machine.execVzero x1 x2 s
  | .vpopm x1 x2 => Sys2Proof.Machine.execVpopm x1 x2 s
  | .vmmovs x1 x2 x3 => Sys2Proof.Machine.execVmmovs x1 x2 x3 s
  | .vsmovm x1 x2 x3 => Sys2Proof.Machine.execVsmovm x1 x2 x3 s
  | .sequencerEntryPerform x1 => Sys2Proof.Machine.execSequencerEntryPerform x1 s
  | .mset x1 x2 => Sys2Proof.Machine.execMset x1 x2 s
  | .msetMout x1 x2 x3 => Sys2Proof.Machine.execMsetMout x1 x2 x3 s
  | .mget x1 x2 => Sys2Proof.Machine.execMget x1 x2 s
  | .mma x1 x2 x3 => Sys2Proof.Machine.execMma x1 x2 x3 s
  | .mmas x1 x2 x3 => Sys2Proof.Machine.execMmas x1 x2 x3 s
  | .mmr x1 x2 x3 => Sys2Proof.Machine.execMmr x1 x2 x3 s
  | .mzero x1 => Sys2Proof.Machine.execMzero x1 s
  | .matrixStart x1 => Sys2Proof.Machine.execMatrixStart x1 s
  | .matrixComplete x1 => Sys2Proof.Machine.execMatrixComplete x1 s
  | .mmrNeighbourPush x1 x2 => Sys2Proof.Machine.execMmrNeighbourPush x1 x2 s
  | .glset x1 x2 x3 x4 => Sys2Proof.Machine.execGlset x1 x2 x3 x4 s
  | .glget x1 x2 x3 => Sys2Proof.Machine.execGlget x1 x2 x3 s
  | .glpushv x1 x2 => Sys2Proof.Machine.execGlpushv x1 x2 s
  | .glpopd x1 x2 => Sys2Proof.Machine.execGlpopd x1 x2 s
  | .glhead x1 x2 => Sys2Proof.Machine.execGlhead x1 x2 s
  | .gltagRead x1 x2 => Sys2Proof.Machine.execGltagRead x1 x2 s
  | .gltagWrite x1 x2 => Sys2Proof.Machine.execGltagWrite x1 x2 s
  | .glflush x1 => Sys2Proof.Machine.execGlflush x1 s
  | .galleySpaceFreed x1 x2 => Sys2Proof.Machine.execGalleySpaceFreed x1 x2 s
  | .cpset x1 x2 => Sys2Proof.Machine.execCpset x1 x2 s
  | .cpsetEndpoint x1 x2 x3 x4 => Sys2Proof.Machine.execCpsetEndpoint x1 x2 x3 x4 s
  | .cpget x1 x2 => Sys2Proof.Machine.execCpget x1 x2 s
  | .cplaunch x1 => Sys2Proof.Machine.execCplaunch x1 s
  | .cpwp x1 x2 => Sys2Proof.Machine.execCpwp x1 x2 s
  | .cpstat x1 x2 => Sys2Proof.Machine.execCpstat x1 x2 s
  | .cpcancel x1 x2 => Sys2Proof.Machine.execCpcancel x1 x2 s
  | .cpwaitid x1 => Sys2Proof.Machine.execCpwaitid x1 s
  | .copyWrite x1 x2 => Sys2Proof.Machine.execCopyWrite x1 x2 s
  | .copyTransferEnd x1 x2 => Sys2Proof.Machine.execCopyTransferEnd x1 x2 s
  | .completionInterrupt x1 => Sys2Proof.Machine.execCompletionInterrupt x1 s
  | .tbload x1 x2 x3 x4 => Sys2Proof.Machine.execTbload x1 x2 x3 x4 s
  | .tbinfo x1 x2 => Sys2Proof.Machine.execTbinfo x1 x2 s
  | .treg x1 x2 x3 => Sys2Proof.Machine.execTreg x1 x2 x3 s
  | .tfree x1 => Sys2Proof.Machine.execTfree x1 s
  | .tacqr x1 x2 x3 => Sys2Proof.Machine.execTacqr x1 x2 x3 s
  | .tacqw x1 x2 => Sys2Proof.Machine.execTacqw x1 x2 s
  | .trel x1 => Sys2Proof.Machine.execTrel x1 s
  | .tabnd x1 => Sys2Proof.Machine.execTabnd x1 s
  | .tsplit x1 x2 => Sys2Proof.Machine.execTsplit x1 x2 s
  | .tjoin x1 => Sys2Proof.Machine.execTjoin x1 s
  | .trecl x1 x2 => Sys2Proof.Machine.execTrecl x1 x2 s
  | .tstat x1 x2 => Sys2Proof.Machine.execTstat x1 x2 s
  | .tver x1 => Sys2Proof.Machine.execTver x1 s
  | .tstv x1 x2 x3 x4 => Sys2Proof.Machine.execTstv x1 x2 x3 x4 s
  | .tldv x1 x2 x3 x4 => Sys2Proof.Machine.execTldv x1 x2 x3 x4 s
  | .tokenForward x1 x2 x3 x4 => Sys2Proof.Machine.execTokenForward x1 x2 x3 x4 s
  | .persistentRequest x1 x2 x3 => Sys2Proof.Machine.execPersistentRequest x1 x2 x3 s
  | .frameSlotFreed x1 x2 => Sys2Proof.Machine.execFrameSlotFreed x1 x2 s
  | .tspawn x1 x2 x3 => Sys2Proof.Machine.execTspawn x1 x2 x3 s
  | .texit => Sys2Proof.Machine.execTexit s
  | .msend x1 x2 x3 => Sys2Proof.Machine.execMsend x1 x2 x3 s
  | .cntset x1 x2 => Sys2Proof.Machine.execCntset x1 x2 s
  | .cntget x1 x2 => Sys2Proof.Machine.execCntget x1 x2 s
  | .cntgetIn x1 => Sys2Proof.Machine.execCntgetIn x1 s
  | .barr => Sys2Proof.Machine.execBarr s
  | .sqend x1 => Sys2Proof.Machine.execSqend x1 s
  | .gwq x1 x2 => Sys2Proof.Machine.execGwq x1 x2 s
  | .barq x1 x2 => Sys2Proof.Machine.execBarq x1 x2 s
  | .gwsend x1 x2 => Sys2Proof.Machine.execGwsend x1 x2 s
  | .gcall x1 x2 => Sys2Proof.Machine.execGcall x1 x2 s
  | .gret => Sys2Proof.Machine.execGret s
  | .gpub x1 x2 x3 => Sys2Proof.Machine.execGpub x1 x2 x3 s
  | .gwdr x1 x2 => Sys2Proof.Machine.execGwdr x1 x2 s
  | .gstat x1 x2 => Sys2Proof.Machine.execGstat x1 x2 s
  | .gwin x1 x2 x3 => Sys2Proof.Machine.execGwin x1 x2 x3 s
  | .wait x1 x2 => Sys2Proof.Machine.execWait x1 x2 s
  | .yield => Sys2Proof.Machine.execYield s
  | .trap x1 => Sys2Proof.Machine.execTrap x1 s
  | .tret => Sys2Proof.Machine.execTret s
  | .uiret => Sys2Proof.Machine.execUiret s
  | .halt => Sys2Proof.Machine.execHalt s
  | .flushl x1 x2 => Sys2Proof.Machine.execFlushl x1 x2 s
  | .invl x1 x2 => Sys2Proof.Machine.execInvl x1 x2 s
  | .pginv x1 x2 => Sys2Proof.Machine.execPginv x1 x2 s
  | .slotgo x1 x2 => Sys2Proof.Machine.execSlotgo x1 x2 s
  | .slotkill x1 x2 => Sys2Proof.Machine.execSlotkill x1 x2 s
  | .slotrd x1 x2 => Sys2Proof.Machine.execSlotrd x1 x2 s
  | .slotwr x1 x2 => Sys2Proof.Machine.execSlotwr x1 x2 s
  | .quoin x1 x2 => Sys2Proof.Machine.execQuoin x1 x2 s
  | .wrevk x1 x2 => Sys2Proof.Machine.execWrevk x1 x2 s
  | .cxsave x1 x2 => Sys2Proof.Machine.execCxsave x1 x2 s
  | .cxrest x1 x2 => Sys2Proof.Machine.execCxrest x1 x2 s
  | .keyld x1 x2 => Sys2Proof.Machine.execKeyld x1 x2 s
  | .evsel x1 x2 => Sys2Proof.Machine.execEvsel x1 x2 s
  | .svpost x1 x2 => Sys2Proof.Machine.execSvpost x1 x2 s
  | .bankset x1 x2 => Sys2Proof.Machine.execBankset x1 x2 s
  | .bankSwitchPoint x1 x2 => Sys2Proof.Machine.execBankSwitchPoint x1 x2 s
  | .cleanupDeadline x1 => Sys2Proof.Machine.execCleanupDeadline x1 s
  | .budgetExpiry x1 => Sys2Proof.Machine.execBudgetExpiry x1 s
  | .revocationPoint x1 x2 => Sys2Proof.Machine.execRevocationPoint x1 x2 s
  | .revocationDrainDone x1 x2 => Sys2Proof.Machine.execRevocationDrainDone x1 x2 s
  | .appCoreInterrupt x1 => Sys2Proof.Machine.execAppCoreInterrupt x1 s
  | .accept x1 => Sys2Proof.Machine.execAccept x1 s
  | .advance x1 => Sys2Proof.Machine.execAdvance x1 s
  | .bind x1 => Sys2Proof.Machine.execBind x1 s
  | .atomicStep x1 => Sys2Proof.Machine.execAtomicStep x1 s
  | .fenceStep x1 => Sys2Proof.Machine.execFenceStep x1 s
  | .publish x1 => Sys2Proof.Machine.execPublish x1 s
  | .dequeStart x1 => Sys2Proof.Machine.execDequeStart x1 s
  | .stealVisit x1 => Sys2Proof.Machine.execStealVisit x1 s
  | .gangPlace x1 => Sys2Proof.Machine.execGangPlace x1 s
  | .gangStart x1 => Sys2Proof.Machine.execGangStart x1 s
  | .inboxDeliver x1 => Sys2Proof.Machine.execInboxDeliver x1 s
  | .inboxHoldExpiry x1 => Sys2Proof.Machine.execInboxHoldExpiry x1 s
  | .gvtSample x1 => Sys2Proof.Machine.execGvtSample x1 s
  | .gvtPublish x1 => Sys2Proof.Machine.execGvtPublish x1 s
  | .launchFetch x1 => Sys2Proof.Machine.execLaunchFetch x1 s
  | .launchEligible x1 => Sys2Proof.Machine.execLaunchEligible x1 s
  | .colophonWrite x1 => Sys2Proof.Machine.execColophonWrite x1 s
  | .faultRecordPost x1 => Sys2Proof.Machine.execFaultRecordPost x1 s
  | .walkComplete x1 x2 => Sys2Proof.Machine.execWalkComplete x1 x2 s
  | .wakePort x1 => Sys2Proof.Machine.execWakePort x1 s
  | .accessCounterHalve => Sys2Proof.Machine.execAccessCounterHalve s
  | .tierDemote x1 x2 => Sys2Proof.Machine.execTierDemote x1 x2 s
  | .tierPromote x1 x2 => Sys2Proof.Machine.execTierPromote x1 x2 s
  | .flipToHost x1 => Sys2Proof.Machine.execFlipToHost x1 s
  | .flipToDevice x1 => Sys2Proof.Machine.execFlipToDevice x1 s
  | .hostAccess x1 x2 x3 x4 => Sys2Proof.Machine.execHostAccess x1 x2 x3 x4 s
  | .submit x1 => Sys2Proof.Machine.execSubmit x1 s
  | .cancel x1 => Sys2Proof.Machine.execCancel x1 s
  | .partitionCreate x1 x2 => Sys2Proof.Machine.execPartitionCreate x1 x2 s
  | .partitionTeardown x1 => Sys2Proof.Machine.execPartitionTeardown x1 s
  | .claimSupervisor x1 => Sys2Proof.Machine.execClaimSupervisor x1 s
  | .claimHost x1 => Sys2Proof.Machine.execClaimHost x1 s
  | .claimRelease x1 => Sys2Proof.Machine.execClaimRelease x1 s
  | .claimEscalate x1 => Sys2Proof.Machine.execClaimEscalate x1 s
  | .eventDelivery x1 => Sys2Proof.Machine.execEventDelivery x1 s
  | .admissionWrite x1 => Sys2Proof.Machine.execAdmissionWrite x1 s
  | .scrub x1 => Sys2Proof.Machine.execScrub x1 s
  | .seal x1 => Sys2Proof.Machine.execSeal x1 s
  | .openPage x1 => Sys2Proof.Machine.execOpenPage x1 s
  | .pageKeyInvalidOp x1 => Sys2Proof.Machine.execPageKeyInvalidOp x1 s
  | .sessionOpen x1 x2 x3 => Sys2Proof.Machine.execSessionOpen x1 x2 x3 s
  | .sessionComplete x1 x2 x3 x4 => Sys2Proof.Machine.execSessionComplete x1 x2 x3 x4 s
  | .heartbeat x1 x2 => Sys2Proof.Machine.execHeartbeat x1 x2 s
  | .sessionDeadline x1 => Sys2Proof.Machine.execSessionDeadline x1 s
  | .sessionGraceEnd x1 => Sys2Proof.Machine.execSessionGraceEnd x1 s
  | .flitRetransmit x1 => Sys2Proof.Machine.execFlitRetransmit x1 s
  | .portDown x1 => Sys2Proof.Machine.execPortDown x1 s
  | .linkRetrain x1 => Sys2Proof.Machine.execLinkRetrain x1 s
  | .remoteMessageArrival x1 x2 x3 x4 x5 x6 => Sys2Proof.Machine.execRemoteMessageArrival x1 x2 x3 x4 x5 x6 s
  | .reductionBlockArrival x1 x2 => Sys2Proof.Machine.execReductionBlockArrival x1 x2 s
  | .deviceFault x1 x2 => Sys2Proof.Machine.execDeviceFault x1 x2 s
  | .thresholdCrossing x1 x2 => Sys2Proof.Machine.execThresholdCrossing x1 x2 s
  | .thermalThrottle x1 x2 => Sys2Proof.Machine.execThermalThrottle x1 x2 s
  | .voltageDroop x1 => Sys2Proof.Machine.execVoltageDroop x1 s
  | .moduleReset => Sys2Proof.Machine.execModuleReset s
  | .powerOff => Sys2Proof.Machine.execPowerOff s
  | .counterWindowSelect x1 x2 => Sys2Proof.Machine.execCounterWindowSelect x1 x2 s
  | .registerWrite x1 x2 => Sys2Proof.Machine.execRegisterWrite x1 x2 s
  | .waitTimerExpiry x1 => Sys2Proof.Machine.execWaitTimerExpiry x1 s
  | .softError x1 x2 => Sys2Proof.Machine.execSoftError x1 x2 s
  | .peerMemoryAccess x1 x2 x3 x4 x5 => Sys2Proof.Machine.execPeerMemoryAccess x1 x2 x3 x4 x5 s
  | .cxlCacheSnoop x1 x2 x3 x4 => Sys2Proof.Machine.execCxlCacheSnoop x1 x2 x3 x4 s
  | .voltageRecovery x1 => Sys2Proof.Machine.execVoltageRecovery x1 s

end Sys2Proof.Machine
end

