-- ==== Sys2Proof/Machine/Fetch.lean ====
section
/-! DEFINITION. Fetching an instruction word (R93) and choosing the slot that issues (R26). -/

namespace Sys2Proof.Machine

/-- The little-endian word of four bytes. -/
def wordOf (bs : List Byte) : BitVec 32 := BitVec.ofNat 32 (leNat bs)

/-- Read the word at a place. A line that the L1I holds may be served as it was filled (R242): which of the two is a
free choice when they differ. -/
def fetchAt (s : State) (pl : Place) : State × BitVec 32 :=
  let now := wordOf (threadBytes s (threadOf s.cur) pl.ty pl.addrs)
  match s.cur with
  | .app _ => (s, now)
  | .slot k =>
    if nearSpace pl.ty then (s, now) else
    let core := coreOfSlot k
    let a := pl.addrs.getD 0 0
    let line := a / 64
    match lookup (coreAt s core).l1i line with
    | none =>
      let bs := threadBytes s k pl.ty (seqNat (line * 64) 64)
      (modCore (notePlace s pl) core fun c => { c with l1i := insert c.l1i line bs }, now)
    | some old =>
      let w := wordOf ((old.drop (a % 64)).take 4)
      if w = now then (s, now) else
      let (s1, i) := choose s 2
      (s1, if i = 0 then w else now)

/-- Fetch the word at the PC of the executor (R93). A fetch that fails traps with the PC as its value, a page-level protection
violation with the CVA (R351). DESIGN CHOICE (log entry 65): a PC that is no multiple of 4 stands until it is fetched, and the fetch
traps as misaligned. -/
def fetch (s : State) : Run (State × BitVec 32) :=
  let p := pc s
  let g := segOf s s.cur 0
  let cva := g.base + p.toNat
  if g.isVoid || !hasRights g.rights rX then trap s 0x04 p
  else if g.limit < p.toNat + 3 then trap s 0x03 p
  else if cva % 4 ≠ 0 then trap s 0x06 p
  else match g.kind, s.cur with
  | 2, .slot k =>
    if localOk s k cva 4 then
      .ok (fetchAt s { ty := .lm, addrs := seqNat (flatLocal (coreOfSlot k) cva) 4, dom := none, foot := none, node := 0,
                       ceil := 0 })
    else trap s 0x03 p
  | 3, .slot k =>
    if 0x1FFFFF < cva + 3 then trap s 0x03 p
    else if isGateway (coreOfSlot k) || !scratchMode s (clusterOfSlot k) cva then trap s 0x1A p
    else .ok (fetchAt s { ty := .sp, addrs := seqNat (flatScratch (clusterOfSlot k) cva) 4, dom := none, foot := none,
                          node := 0, ceil := 0 })
  | 2, .app _ => trap s 0x03 p
  | 3, .app _ => trap s 0x1A p
  | 5, _ =>
    match windowPath s 4 4 rX (myFrames s) cva with
    | .error e => .error e
    | .ok t => match onePlace (places s t 4 rX 0) with
      | .error e => .error e
      | .ok (s1, pl) => .ok (fetchAt s1 pl)
  | _, .app _ =>
    if isDpa cva && lineOpens s none cva then
      .ok (fetchAt s { ty := .dm, addrs := seqNat cva 4, dom := none, foot := none, node := 0, ceil := 0 })
    else trap s 0x15 p
  | _, .slot k =>
    match partOfSlot s k with
    | none => trap s 0x15 p
    | some q =>
      if 2 ^ 57 ≤ cva + 3 then trap s 0x03 p else
      match pagePart s q cva 4 rX 0 (w64 cva) (some (slotAt s k).world) with
      | .error e => .error e
      | .ok (s1, pl) => .ok (fetchAt s1 pl)

/-- The world of a slot is being revoked, or one of its frames is of such a world: the slot stops (R296). -/
def revocationStops (s : State) (x : SlotSt) : Bool :=
  let stops := fun (w : Nat) => match (worldOf s w).revoking with | some (_, passed) => !passed | none => false
  stops x.task.world || x.frames.any fun f => stops f.callee

/-- A stop of the slot at its next instruction boundary is asked for; TL2 code runs to its TRET first, but for a kill. -/
def mustStop (s : State) (x : SlotSt) : Bool :=
  x.stopKill.isSome || (x.tr.tl != 2 && (x.stopSave || heldNow s x || revocationStops s x))

/-- Eight clocks have passed since a slot issued last (R26). -/
def rested (s : State) (x : SlotSt) : Bool := match x.last with | none => true | some c => decide (c + 8 ≤ s.cycle)

/-- A slot that the wheel may choose at this clock (R26). An odd slot of a pair issues with its even slot, and in the next clock (R27,
R42). -/
def issuable (s : State) (k : Nat) (x : SlotSt) : Bool :=
  x.state == .ready && !mustStop s x && !unwindStopped x && !(x.ganged && k % 2 == 1) &&
  rested s x && (!x.ganged || rested { s with cycle := s.cycle + 1 } (slotAt s (partnerOf k))) && decide (x.yieldUntil ≤ s.cycle) &&
  (slotNo k != 15 || (partOfSlot s k).isSome)

/-- The key of R26. -/
def wheelKey (x : SlotSt) : Nat := max (x.last.getD 0) x.rdy

/-- A core whose cluster makes no clock of its own in this main clock (R398). -/
def stalledCore (s : State) (core : Nat) : Bool := !isGateway core && (clusterAt s (clusterOfCore core)).stalled

/-- The candidates of a core; a core out of service issues nothing (R390), and neither does a core in a main clock in which its cluster
makes no clock of its own (R398). -/
def candidates (s : State) (core : Nat) : List (Nat × SlotSt) :=
  if (coreAt s core).outOfService || (clusterAt s (clusterOfCore core)).outOfService || stalledCore s core then [] else
  s.slots.filter fun e => coreOfSlot e.1 == core && issuable s e.1 e.2

/-- The candidate with the smallest key; ties go to the lower slot number. -/
def wheelBest : List (Nat × SlotSt) → Option (Nat × SlotSt)
  | [] => none
  | e :: rest =>
    match wheelBest rest with
    | none => some e
    | some f => if wheelKey f.2 < wheelKey e.2 then some f else some e

/-- The slot that the wheel of a core chooses at this clock (R26). -/
def wheelPick (s : State) (core : Nat) : Option Nat :=
  if (coreAt s core).pairClock = some s.cycle then none
  else (wheelBest (candidates s core)).map (·.1)

/-- The first core from the turn on whose wheel chooses a slot, with that slot. -/
def nextIssuer (s : State) : Option Nat :=
  s.slots.findSome? fun e =>
    let c := coreOfSlot e.1
    if s.turn ≤ c then wheelPick s c else none

/-- The first of the 32 application cores from the turn on that can issue. -/
def nextApp (s : State) : Option Nat :=
  (List.range 32).find? fun n =>
    let x := appAt s n
    let wakes := !x.pendingSources.isEmpty && x.sc.uienEn
    decide (s.turn ≤ 2 ^ 20 + n) && !x.halted && (!x.waiting || wakes) && x.park.isNone

/-- The state in which an application core issues: a HALT has ended, and its turn is over. -/
def issueApp (s : State) (n : Nat) : State :=
  modApp { s with cur := .app n, turn := 2 ^ 20 + n + 1 } n fun x => { x with waiting := false }

/-- The state in which a chosen slot issues: it is the executor, its clock is noted (R26), its core's turn is over. A ganged pair issues
in this clock and the next, in which the odd half issues: both count from there. -/
def issueState (s : State) (k : Nat) : State :=
  let g := (slotAt s k).ganged
  let s1 := modSlot s k fun x => { x with last := some (if g then s.cycle + 1 else s.cycle) }
  let s2 := if g then
      modCore (modSlot s1 (partnerOf k) fun x => { x with last := some (s.cycle + 1) }) (coreOfSlot k) fun c =>
        { c with pairClock := some (s.cycle + 1) }
    else s1
  countCore { s2 with cur := .slot k, turn := coreOfSlot k + 1 } (coreOfSlot k) 1 none 1

/-- A slot waits with reason 7 on an empty galley (source 5): of a matrix instruction that has not started, or its own. -/
def onEmptyGalley (s : State) (k : Nat) (p : Park) : Bool :=
  p.reason == .galley && (match p.cont with
    | .matrix | .matrixAgain => !matrixHeld s k
    | .galley n _ => (match lookup (coreAt s (coreOfSlot k)).galleys n with | some g => g.tags.isEmpty | none => false)
    | _ => false)

/-- What the issue position of this clock was for: a choice made in it counts when the slot issues, the second clock of a pair counts
here, and a position that nothing used counts as source 2 (R26, R397). -/
def countPosition (s : State) (core : Nat) : State :=
  let pair := (coreAt s core).pairClock
  if pair = some s.cycle then countCore s core 1 none 1
  else if pair = some (s.cycle + 1) || s.slots.any fun e => coreOfSlot e.1 == core && e.2.last == some s.cycle then s
  else countCore s core 2 none 1

/-- Clocks counted by the event counters that see a core (R397, sources 1 to 5). -/
def countClock (s : State) (core : Nat) : State :=
  let c := coreAt s core
  let mine := (s.slots.filter fun e => coreOfSlot e.1 == core).map fun e => (e.1, shownSlot s e.1)
  let s1 := countPosition s core
  let s2 := mine.foldl (fun t e => match e.2.state, e.2.park with
    | .parked, some p =>
      let r := match p.reason with
        | .memory => 0 | .notPresent => 1 | .matrix => 2 | .divide => 3 | .sequencer => 4 | .copy => 5 | .tile => 6
        | .galley => 7 | .wait => 8 | .barrier => 9 | .bank => 10 | .join => 11 | .held => 12 | .record => 13
      let t1 := countCore t core 3 (some (if heldNow t e.2 then 12 else r)) 1
      if onEmptyGalley s e.1 p then countCore t1 core 5 none 1 else t1
    | _, _ => t) s1
  if c.matrixRun.isSome then countCore s2 core 4 none 1 else s2

/-- The cores of a cluster and of a die, the hub being die 4. -/
def coresOfCluster (k : Nat) : List Nat := (List.range 16).map (k * 16 + ·)
def coresOfDie (d : Nat) : List Nat :=
  if d = 4 then (List.range 36).map (2048 + ·) else (List.range 512).map (d * 512 + ·)

/-- The cores that some counter of their own, of their cluster or of their die sees (R397); the others need no counting. A cluster that
makes no clock of its own counts none. -/
def countedCores (s : State) : List Nat :=
  let own := (s.cores.filter fun e => !e.2.evcnt.isEmpty).map (·.1)
  let mid := (s.clusters.filter fun e => !e.2.evcnt.isEmpty).flatMap fun e => coresOfCluster e.1
  let top := ((s.mod.dieCounters.map fun e => e.1 / 64).eraseDups).flatMap coresOfDie
  ((own ++ mid ++ top).eraseDups).filter fun c => !stalledCore s c

/-! ### A cluster's own clock (R398)

Stamps are main clocks. In a main clock in which a cluster makes no clock of its own, every stamp from which it counts its own clocks
moves on by one. -/

def stretchPark (p : Park) : Park :=
  match p.cont with
  | .divide d v due => { p with cont := .divide d v (due + 1) }
  | _ => p
def stretchSlot (x : SlotSt) : SlotSt :=
  { x with last := x.last.map (· + 1), rdy := x.rdy + 1, yieldUntil := x.yieldUntil + 1, park := x.park.map stretchPark }
def stretchCore (c : CoreSt) : CoreSt :=
  { c with galleys := c.galleys.map fun e => (e.1, { e.2 with pushed := e.2.pushed.map fun q => (q.1 + 1, q.2) }),
           matrixQueue := c.matrixQueue.map fun q => (q.1 + 1, q.2),
           matrixRun := c.matrixRun.map fun r => { r with due := r.due + 1 },
           pushClock := c.pushClock.map fun q => (q.1 + 1, q.2), inbox := c.inbox.map fun m => { m with since := m.since + 1 },
           inboxClock := c.inboxClock.map (· + 1), dequeClock := c.dequeClock.map (· + 1), sweepDue := c.sweepDue.map (· + 1),
           pairClock := c.pairClock.map (· + 1), vecClock := c.vecClock.map (· + 1) }
def stretchTile (k : Nat) (t : Tile) : Tile :=
  { t with requests := t.requests.map fun r => if r.cluster = k then { r with since := r.since.map (· + 1) } else r }

/-- The stamps of a cluster move on by one. -/
def stretch (s : State) (k : Nat) : State :=
  { s with slots := s.slots.map fun e => if clusterOfSlot e.1 = k then (e.1, stretchSlot e.2) else e,
           cores := s.cores.map fun e => if clusterOfCore e.1 = k then (e.1, stretchCore e.2) else e,
           parts := s.parts.map fun e => if e.2.clusters.contains k then
             (e.1, { e.2 with tiles := e.2.tiles.map fun t => (t.1, { t.2 with tile := t.2.tile.map (stretchTile k) }) }) else e }

/-- How far a cluster falls behind in a main clock; once by a whole clock, it makes none of its own in the next. -/
def nextClock (c : ClusterSt) : ClusterSt :=
  let p := c.phase + (120 - c.clock)
  if 120 ≤ p then { c with phase := p - 120, stalled := true } else { c with phase := p, stalled := false }

/-- The next main clock begins. A cluster counts its clocks below 1.2 GHz (R397, source 13). -/
def tick (s : State) : State :=
  let slow := (s.clusters.filter fun e => decide (e.2.clock < 120) && !e.2.stalled).map (·.1)
  let s1 := slow.foldl (fun t k => countCluster t k 13 1) ((countedCores s).foldl countClock s)
  let s2 := ((s.clusters.filter fun e => e.2.stalled).map (·.1)).foldl stretch s1
  { s2 with clusters := s2.clusters.map fun e => (e.1, nextClock e.2), cycle := s2.cycle + 1, turn := 0 }

end Sys2Proof.Machine
end

