-- ==== Sys2Proof/Machine/Schedule.lean ====
section
/-! DEFINITION. What the device does next (log entry 3): the operations of the management window's ports, the events whose time
has come, the events that may come about, the inputs from outside, and the issue of an instruction (R11, R26, R93, R335). -/

namespace Sys2Proof.Machine

/-- An instruction or an event, and then the stops that it asked for (R305). -/
def thenStops (o : Out) : Out :=
  match o with
  | .next t => .next (carryStops t)
  | .fault f => .fault f
  | .refused r => .refused r

/-- The word that the executor issues is noted; its slot keeps it for the rest of a parked instruction (R30). -/
def noteWord (s : State) (w : BitVec 32) : State :=
  match s.cur with
  | .slot k => modSlot { s with word := w } k fun x => { x with word := w }
  | .app _ => { s with word := w }

/-- The executor performs a word; one that is no instruction is illegal (R107). -/
noncomputable def performWord (s : State) (w : BitVec 32) : Out :=
  match decode w.toNat with
  | .ok i => thenStops (exec i { s with word := w })
  | .error _ => .next (carryStops (takeTrap { s with word := w } 0x01 (w.setWidth 64)))

/-- The state after an event. -/
noncomputable def perform (e : Instr) (s : State) : State :=
  match thenStops (exec e s) with
  | .next t => t
  | _ => s

/-- An event may come about when it changes the state. -/
noncomputable def enabled (s : State) (e : Instr) : Bool := decide (perform e s ≠ s)

/-! ### Operations of the ports (R335, R361, R383, R387) -/

/-- The port of an offset of the window; operations of one port are performed one at a time, in arrival order. The tier block of each
partition counts as one (R355). -/
def portOf (off : Nat) : Nat := if off < 0x1000 then off / 256 else if off < 0x3000 then 32 + (off - 0x1000) / 128 else 16

/-- The event of a word that a port takes alone. -/
noncomputable def portEvent (off : Nat) (w : Word) : Instr :=
  let op := w.toNat / 2 ^ 62
  if off = 0 then .partitionTeardown w
  else if off = 0x100 then
    (if op = 0 then .claimSupervisor w else if op = 1 then .claimHost w else if op = 2 then .claimRelease w else .claimEscalate w)
  else if off = 0x200 then .admissionWrite w
  else if off = 0x400 then (if op = 0 then .flipToHost w else .flipToDevice w)
  else if off = 0x500 then .wakePort w
  else if off = 0x600 then
    (if op = 0 then .scrub w else if op = 1 then .seal w else if op = 2 then .openPage w else .pageKeyInvalidOp w)
  else if 0x8000 ≤ off ∧ off < 0xCA00 then .counterWindowSelect off w
  else .registerWrite off w

/-- The first word of an operation of two words waits for the second. -/
def stageWord (s : State) (who off : Nat) (w : Word) : State :=
  modMod s fun m => { m with portStage := insert m.portStage (who * 2 ^ 16 + off) w }
def stagedWord (s : State) (who off : Nat) : Option Word := lookup s.mod.portStage (who * 2 ^ 16 + off)
def unstage (s : State) (who off : Nat) : State :=
  modMod s fun m => { m with portStage := erase m.portStage (who * 2 ^ 16 + off) }

/-- The bytes of n staged words from an offset on; none while one of them has not come. -/
def stagedBytes (s : State) (who off n : Nat) : Option (List Byte) :=
  ((List.range n).mapM fun i => stagedWord s who (off + 8 * i)).map fun l => l.flatMap fun w => leBytes 8 w.toNat
def unstageFrom (s : State) (who off n : Nat) : State := (List.range n).foldl (fun t i => unstage t who (off + 8 * i)) s

/-- The session port (R386). DESIGN CHOICE (log entry 93): the nonce stands in the words 0x0800 to 0x0838, and the word at 0x0840 opens the
session: bits 47:0 the DPA of the report, bits 61:56 the partition. The public key stands in the words 0x0880 to 0x08B0, and the word at
0x08B8 completes the exchange: bits 5:0 the session id, bits 15:8 P, bits 19:16 G, bit 20 whether G is given. -/
noncomputable def sessionPort (s : State) (who off : Nat) (w : Word) : State :=
  if off < 0x840 ∨ (0x880 ≤ off ∧ off < 0x8B8) then stageWord s who off w
  else if off = 0x840 then
    (match stagedBytes s who 0x800 8 with
    | some l => perform (.sessionOpen l (w.toNat % 2 ^ 48) (bits w.toNat 61 56)) (unstageFrom s who 0x800 8)
    | none => s)
  else if off = 0x8B8 then
    (match stagedBytes s who 0x880 7 with
    | some l =>
      perform (.sessionComplete (w.toNat % 64) l (bits w.toNat 15 8) (if bits w.toNat 20 20 = 1 then some (bits w.toNat 19 16) else none))
        (unstageFrom s who 0x880 7)
    | none => s)
  else s

/-- Take a word that reached the window. Flip words of no op have no effect. -/
noncomputable def takePort (s : State) (who off : Nat) (w : Word) : State :=
  let op := w.toNat / 2 ^ 62
  if (off = 0 ∧ op = 0) ∨ off = 0x700 then stageWord s who off w
  else if off = 8 then
    (match stagedWord s who 0 with
    | some v => perform (.partitionCreate v w) (unstage s who 0)
    | none => s)
  else if off = 0x708 then
    (match stagedWord s who 0x700 with
    | some v => perform (.heartbeat v w) (unstage s who 0x700)
    | none => s)
  else if off = 0x400 ∧ 2 ≤ op then s
  else if 0x800 ≤ off ∧ off < 0x900 then sessionPort s who off w
  else perform (portEvent off w) s

/-- The operation of a word is under way: its frame or its page is still moving, or a tier engine's move holds back the write of a tier
block (R355). -/
def portBusy (s : State) (off : Nat) (w : Word) : Bool :=
  if off = 0x400 then (match partAt s (flipPart w) with | some x => movingOf x (flipFrame w) == some 3 | none => false)
  else if off = 0x600 then s.mod.pageMoves.contains (portPage w)
  else if 0x1000 ≤ off ∧ off < 0x3000 then tierMoving s ((off - 0x1000) / 128)
  else false

/-- What the i-th word that reached the window does now; none when it can only wait. -/
noncomputable def portTry (s : State) (i : Nat) : Option State :=
  match s.mod.portWrites[i]? with
  | none => none
  | some (who, off, w) =>
    let s1 := modMod s fun m => { m with portReader := who }
    let drop := fun (t : State) => modMod t fun m => { m with portWrites := m.portWrites.eraseIdx i }
    if (s.mod.portWrites.take i).any fun q => portOf q.2.1 == portOf off then none
    else if s.mod.moduleFault then some (drop s)
    else
      let t := takePort s1 who off w
      if !portBusy t off w then some (drop t)
      else if t = s1 then none
      else some t

/-- The next step of the ports. -/
noncomputable def portStep (s : State) : Option State := (List.range s.mod.portWrites.length).findSome? (portTry s)

/-! ### Events whose time has come -/

/-- The samples and publishes of gvt (R288). -/
noncomputable def timedEvents (s : State) : List Instr :=
  s.parts.flatMap fun e => [.gvtSample e.1, .gvtPublish e.1]

def slotKeys (s : State) : List Nat := s.slots.map (·.1)

/-- Events that come about as soon as they can: deadlines and expiries, interrupts, completions (log entry 56). -/
noncomputable def dueEvents (s : State) : List Instr :=
  ((slotKeys s).flatMap fun k => [.divideDone k, .completionInterrupt k, .budgetExpiry k, .cleanupDeadline k, .waitTimerExpiry k]) ++
  (s.apps.flatMap fun e => [.waitTimerExpiry (2 ^ 20 + e.1), .appCoreInterrupt e.1]) ++
  (s.cores.map fun e => .matrixComplete e.1) ++
  (s.mod.sessions.flatMap fun e => [.sessionDeadline e.1, .sessionGraceEnd e.1]) ++
  (s.parts.flatMap fun e => e.2.tiles.flatMap fun t => match t.2.tile with
    | some x => (x.requests.map fun r => Instr.persistentRequest e.1 t.1 r.cluster)
    | none => [])

/-- The owner's start of a record comes first in a clock (R283), a complete gang starts (R277, R278), and an inbox delivers what its
hold has left (R285, R290). -/
noncomputable def coreDue (s : State) : List Instr :=
  ((s.cores.map (·.1)).flatMap fun c => [.dequeStart c, .inboxDeliver c, .inboxHoldExpiry c]) ++
  s.clusters.map fun e => .gangStart e.1

/-- A slot whose park's reason has cleared performs the rest of its instruction, and then it is Ready (R29, R30). -/
def canResume (x : SlotSt) : Bool := match x.park with | some p => p.cont == .resume | none => false

/-- A slot whose deferred exception may be taken: it stands at a boundary, or in a park that it can leave (R40). How a slot parked with
reason 2 or 4 leaves its park is said at freeze (log entry 86). -/
def deferredReady (s : State) (k : Nat) : Bool :=
  let x := slotAt s k
  x.vec.deferred.isSome && canStop s k && !heldNow s x &&
  (x.state == .ready || (match x.park with | some p => p.abandon | none => false))

/-- Take the deferred exception of a slot (R40). -/
def takeDeferred (s : State) (k : Nat) : State :=
  match (slotAt s k).vec.deferred with
  | none => s
  | some (cw, v) =>
    let s1 := modSlot (abandonPark s k) k fun x => { x with vec := { x.vec with deferred := none } }
    takeTrapOf s1 (.slot k) cw v (slotAt s1 k).sc.pc

/-- A state that follows when it is another one. -/
noncomputable def changed (s t : State) : Option State := if t = s then none else some t

/-- A park whose reason cleared while the session was HELD (R388). -/
def isCleared (x : SlotSt) : Bool := match x.park with | some p => p.cont == .cleared | none => false
/-- A TL2 entry that waited for a record entry may be made (R314). -/
def tl2Ready (s : State) (k : Nat) : Option (Nat × Word × Word) :=
  match (slotAt s k).park with
  | some { cont := .tl2 cw p v, .. } => if recordsOf (coreAt s (coreOfSlot k)) k < 2 then some (cw, p, v) else none
  | _ => none

/-- What a slot does before it issues again: it resumes a parked instruction (R30), goes on with an unwind that stopped between two
frames (R301), or takes its deferred exception (R40). One that is held waits until its session is LIVE again, and then does what it has
waited with (R388). -/
noncomputable def slotForced (s : State) (k : Nat) : Option Out :=
  let x := slotAt s k
  if heldNow s x then none
  else if isCleared x then some (.next (readyOf s (.slot k)))
  else if canResume x then some (performWord { readyOf s (.slot k) with cur := .slot k } x.word)
  else if unwindStopped x then (changed s (carryStops (unwindFrom s k 10))).map .next
  else if deferredReady s k then some (.next (carryStops (takeDeferred s k)))
  else (tl2Ready s k).map fun q => .next (tl2Entry s k q.1 q.2.2 q.2.1)

/-- Empty slots join the reservations of their clusters (R278). -/
noncomputable def joinStep (s : State) : Option State := s.clusters.findSome? fun e => changed s (joinSlots s e.1)

/-- The next forced step: the trees of gvt, then the ports, then what a slot has to do before it issues again, then what else is due. -/
noncomputable def forced (s : State) : Option Out :=
  match (timedEvents s).find? (enabled s) with
  | some e => some (.next (perform e s))
  | none => match portStep s with
    | some t => some (.next t)
    | none => match (slotKeys s).findSome? (slotForced s) with
      | some o => some o
      | none => match (dueEvents s).find? (enabled s) with
        | some e => some (.next (perform e s))
        | none => match joinStep s with
          | some t => some (.next t)
          | none => ((coreDue s).find? (enabled s)).map fun e => .next (perform e s)

/-! ### Events that may come about -/

/-- Events of slots and threads. -/
noncomputable def threadEvents (s : State) : List Instr :=
  let threads := ((s.iq.map fun (e : MemEv) => e.thread) ++ slotKeys s ++ (s.apps.map fun (e : Nat × AppSt) => 2 ^ 20 + e.1)).eraseDups
  (threads.flatMap fun t => [.accept t, .fenceStep t, .memoryReply t]) ++
  ((slotKeys s).flatMap fun k => [.sequencerEntryPerform k, .publish k, .faultRecordPost k]) ++
  (s.iq.flatMap fun e => [.bind e.id, .atomicStep e.id]) ++ (s.transit.map fun e => .advance e.id)

/-- The banks that a waiting BANKSET names, by cluster (R237). -/
def waitingBanks (s : State) : List (Nat × Nat) :=
  let of := fun (p : Option Park) => match p with | some { cont := .bankset _ c b _ _, .. } => [(c, b)] | _ => []
  ((s.slots.flatMap fun e => of e.2.park) ++ s.apps.flatMap fun e => of e.2.park).eraseDups

/-- Events of cores and clusters. -/
noncomputable def coreEvents (s : State) : List Instr :=
  let cores := ((s.cores.map (·.1)) ++ (s.slots.map fun e => coreOfSlot e.1)).eraseDups
  (cores.flatMap fun c => [.matrixStart c, .mmrNeighbourPush c false, .mmrNeighbourPush c true]) ++
  (s.slots.filterMap fun e => match e.2.park with
    | some { cont := .galley n _, .. } => some (.galleySpaceFreed (coreOfSlot e.1) n)
    | _ => none) ++
  (s.clusters.flatMap fun e => e.2.chans.flatMap fun c =>
    [Instr.copyWrite e.1 c.1, .copyTransferEnd e.1 c.1, .faultRecordPost (chanThread e.1 c.1)]) ++
  (waitingBanks s).map fun q => Instr.bankSwitchPoint q.1 q.2

/-- Tokens of a tile go from a cluster, or from its home entry, to a cluster. -/
noncomputable def tokenEvents (p i : Nat) (x : PartSt) : List Instr :=
  (x.clusters ++ [128]).flatMap fun src => x.clusters.map fun dst => Instr.tokenForward p i src dst

/-- Events of partitions, launches and interfaces. -/
noncomputable def partEvents (s : State) : List Instr :=
  (s.parts.flatMap fun e =>
    [Instr.gangPlace e.1, .tierDemote e.1 0, .tierDemote e.1 1] ++ (e.2.frameCounts.map fun f => Instr.tierPromote e.1 f.gpaFrame) ++
    (e.2.worlds.flatMap fun w => [Instr.revocationPoint e.1 w.1, .revocationDrainDone e.1 w.1]) ++
    (e.2.tiles.flatMap fun t => match t.2.tile with
      | some _ => Instr.frameSlotFreed e.1 t.1 :: tokenEvents e.1 t.1 e.2
      | none => [])) ++
  (s.launches.flatMap fun l => [.launchEligible l.id, .colophonWrite l.id]) ++
  (s.mod.ifaces.flatMap fun e => [.submit e.1, .cancel e.1, .launchFetch e.1]) ++
  (s.mod.ports.filterMap fun e => if e.2.up then none else some (.portDown e.1))

/-- The events that may come about now. -/
noncomputable def openEvents (s : State) : List Instr :=
  (threadEvents s ++ coreEvents s ++ partEvents s).filter (enabled s)

/-! ### Inputs -/

/-- The offset and the word of an operation that a port performs over more than one step. -/
noncomputable def longPortWord : Instr → Option (Nat × Word)
  | .flipToHost w | .flipToDevice w => some (0x400, w)
  | .scrub w | .seal w | .openPage w => some (0x600, w)
  | .registerWrite off w => if 0x1000 ≤ off ∧ off < 0x3000 then some (off, w) else none
  | _ => none

/-- What comes to the device from outside (R4, R244, R317, R359 to R370, R383 to R399). -/
noncomputable def isInput : Instr → Bool
  | .hostAccess _ _ _ _ | .peerMemoryAccess _ _ _ _ _ | .cxlCacheSnoop _ _ _ _ | .walkComplete _ _ => true
  | .partitionCreate _ _ | .partitionTeardown _ | .claimSupervisor _ | .claimHost _ | .claimRelease _ | .claimEscalate _ => true
  | .eventDelivery _ | .admissionWrite _ | .wakePort _ | .pageKeyInvalidOp _ | .heartbeat _ _ => true
  | .counterWindowSelect _ _ | .registerWrite _ _ | .sessionOpen _ _ _ | .sessionComplete _ _ _ _ => true
  | .flitRetransmit _ | .portDown _ | .linkRetrain _ | .remoteMessageArrival _ _ _ _ _ _ | .reductionBlockArrival _ _ => true
  | .deviceFault _ _ | .softError _ _ | .thresholdCrossing _ _ | .thermalThrottle _ _ => true
  | .voltageDroop _ | .voltageRecovery _ | .moduleReset | .powerOff => true
  | _ => false

/-- The next input comes about; the writer of a port's word is the host. -/
noncomputable def inputStep (s : State) : Out :=
  match s.agenda with
  | [] => .next s
  | e :: rest =>
    let s1 : State := { s with agenda := rest }
    match longPortWord e with
    | some (off, w) => .next (modMod s1 fun m => { m with portWrites := m.portWrites ++ [(0, off, w)] })
    | none => if isInput e then thenStops (exec e (modMod s1 fun m => { m with portReader := 0 })) else .next s1

/-! ### Issue -/

/-- The executor fetches and performs its next instruction. -/
noncomputable def issueAt (s : State) : Out :=
  match fetch s with
  | .error t => .next (carryStops t)
  | .ok (t, w) => performWord (noteWord t w) w

/-- The cores of partitions, which may sweep (R282). -/
def stealCores (s : State) : List Nat :=
  s.parts.flatMap fun e => e.2.clusters.flatMap fun cl => (List.range 16).map (cl * 16 + ·)

/-- The sweeps that begin or end in a clock, and the visits that arrive in it. Which of two steals that arrive in one clock came first
is a free choice (R283, log entry 56). -/
noncomputable def stealsIn : Nat → List Nat → State → State
  | 0, _, s => s
  | n + 1, l, s =>
    let (s1, i) := choose s l.length
    match l[i]? with
    | some c => stealsIn n (l.eraseIdx i) (perform (.stealVisit c) s1)
    | none => s

/-- The end of a clock, after the pushes of its instructions: the sweeps go on (R282, R283). -/
noncomputable def sweepClock (s : State) : State :=
  let l := (stealCores s).filter fun c => enabled s (.stealVisit c)
  stealsIn l.length l s

/-- The next clock begins; every 1,200,000 clocks the access counters are halved (R356). -/
noncomputable def clockStep (s : State) : State :=
  let t := tick (sweepClock s)
  if t.cycle % 1200000 = 0 then perform .accessCounterHalve t else t

/-- A core whose turn it is issues (R26), then an application core, else the next clock begins. -/
noncomputable def turnStep (s : State) : Out :=
  match nextIssuer s with
  | some k => issueAt (issueState s k)
  | none => match nextApp s with
    | some n => issueAt (issueApp s n)
    | none => .next (clockStep s)

/-- A free choice among the events that may come about, the next input and the turn of the cores. -/
noncomputable def chooseStep (s : State) : Out :=
  let evs := openEvents s
  let inputs := if s.agenda.isEmpty then 0 else 1
  let (s1, i) := choose s (evs.length + inputs + 1)
  match evs[i]? with
  | some e => thenStops (exec e s1)
  | none => if i < evs.length + inputs then inputStep s1 else turnStep s1

/-- One step of a device with power. -/
noncomputable def deviceStep (s : State) : Out :=
  match forced s with
  | some o => o
  | none => chooseStep s

/-! ### A program's first instruction -/

/-- Segment g0 of the slot that withFetchWord selects: its window of local memory, with every right but T (R110). -/
def firstCode : Seg := Seg.mk2 2 0 0xAFFF (rR + rW + rX)

/-- Slot 0 of core 0 with a window of 44 KiB, ready to issue at PC 0 at this clock. -/
def firstSlot (s : State) : SlotSt :=
  let x := slotAt s 0
  { x with state := .ready, park := none, last := none, rdy := 0, yieldUntil := 0, lmbase := 0, lmbound := 0xB000,
           sc := { x.sc with pc := 0, g := x.sc.g.set 0 firstCode } }

/-- The state in which the next step fetches an instruction from the local memory of core 0: nothing else is to be done first,
and core 0 has the turn. -/
def firstTurn (s : State) (bs : List Byte) : State :=
  { s with slots := insert s.slots 0 (firstSlot s), turn := 0, agenda := [], mem := memWriteBytes s.mem (flatLocal 0 0) bs,
           mod := { s.mod with portWrites := [] } }

end Sys2Proof.Machine
end

