-- ==== Sys2Proof/Machine/Step.lean ====
section
/-! DEFINITION. One step of the device, and the placing of a program's first instruction. -/

namespace Sys2Proof.Machine

/-- One step: a device without power takes none (R4). -/
noncomputable def step (s : State) : Host.Outcome State Fault Refusal :=
  if s.mod.powered then deviceStep s else .fault .poweredOff

/-- The state with an instruction of nbits bits, read as w, where step fetches its next one (log entry 30): in the local memory
of core 0, whose slot 0 is ready. It stands for the start of a task by a supervisor or by the launch controller. -/
def State.withFetchWord (s : State) (nbits w : Nat) : State := firstTurn s (bytesOfNat 4 (w % 2 ^ nbits))

end Sys2Proof.Machine
end

