-- ==== Sys2Proof/Safety.lean ====
section
/-! DEFINITION. What counts as a safe run, and the words in which statements say what an instruction changes. -/

namespace Sys2Proof.Safety

open Sys2Proof.Machine

/-- A property that every step of the device keeps. -/
def Kept (P : State → Prop) : Prop := ∀ s t : State, P s → step s = .next t → P t

/-- The states that n steps lead to. -/
def Reaches (n : Nat) (s t : State) : Prop := Host.Core.run Sys2Proof.core n s = .next t

/-- A run that never stops: it meets no fault and no refusal. -/
def RunsOn (s : State) : Prop := ∀ n, ∃ t, Reaches n s t

/-- The memory of a state is in its canonical form. -/
abbrev MemoryOk (s : State) : Prop := Memory.wf s.mem = true

/-! ### Words, by the formats of R94 -/

/-- A word of format A. -/
def wordA (major : Nat) (d a b : BitVec 5) (minor : Nat) : Nat :=
  major * 2 ^ 26 + d.toNat * 2 ^ 21 + a.toNat * 2 ^ 16 + b.toNat * 2 ^ 11 + minor

/-- A word of format I, and one of format B: two registers and 16 bits. -/
def wordI (major : Nat) (d a : BitVec 5) (imm : BitVec 16) : Nat :=
  major * 2 ^ 26 + d.toNat * 2 ^ 21 + a.toNat * 2 ^ 16 + imm.toNat

/-- A word that the decoder takes for no instruction. -/
def Illegal (w : Nat) : Prop := ∃ e, decode w = .error e

/-! ### Memory, byte by byte -/

/-- Every byte of memory reads as before. -/
def SameBytes (s t : State) : Prop := ∀ a, memRead t.mem a = memRead s.mem a

/-- Every byte reads as before but those of the n bytes from address a on, which read as the bytes given. -/
def BytesAt (s t : State) (a : Nat) (bs : List Byte) : Prop :=
  ∀ b, memRead t.mem b = if a ≤ b ∧ b < a + bs.length then bs.getD (b - a) 0 else memRead s.mem b

/-! ### The scalar registers of the executor -/

/-- Nothing has changed but scalar registers, loop counters and the PC of the executor: every segment, special register, trap
register and accumulator, every other slot and core, every byte of memory is as it was. -/
def OnlyScalar (s t : State) : Prop :=
  SameBytes s t ∧ ∃ x : ScalarSt, t = modScOf s s.cur (fun _ => x) ∧
    x = { scOf s s.cur with pc := x.pc, s := x.s, lc0 := x.lc0, lc1 := x.lc1 }

/-- An active loop counter ends at the PC of the executor (R131). -/
abbrev AtLoopEnd (s : State) : Prop :=
  tl s = 0 ∧ (((scOf s s.cur).lc0.active = true ∧ (scOf s s.cur).lc0.stop = pc s) ∨
    ((scOf s s.cur).lc1.active = true ∧ (scOf s s.cur).lc1.stop = pc s))

/-- The loop counters of the executor are as they were. -/
def SameLoops (s t : State) : Prop := ∀ n, getLoop (scOf t t.cur) n = getLoop (scOf s s.cur) n

/-- The executor has gone on to the next word, unless a loop ends at this one. -/
def GoneOn (s t : State) : Prop := ¬ AtLoopEnd s → pc t = pc s + 4 ∧ SameLoops s t

/-- Every register of the executor is as it was. -/
def SameRegs (s t : State) : Prop := ∀ r, rd t r = rd s r

/-- Register d of the executor holds v, where s0 discards it, and every other register is as it was. -/
def RegIs (s t : State) (d : BitVec 5) (v : Word) : Prop := ∀ r, rd t r = if r = d ∧ r ≠ 0 then v else rd s r

/-- The whole effect is register d, which takes v, and the step to the next word. -/
def Wrote (s t : State) (d : BitVec 5) (v : Word) : Prop := OnlyScalar s t ∧ RegIs s t d v ∧ GoneOn s t

/-- The instruction completes, and its whole effect is that register d takes v. -/
def Writes (i : Instr) (s : State) (d : BitVec 5) (v : Word) : Prop := ∃ t, exec i s = .next t ∧ Wrote s t d v

/-- The instruction completes with the PC at p; every register and every byte is as it was. -/
def GoesTo (i : Instr) (s : State) (p : Word) : Prop :=
  ∃ t, exec i s = .next t ∧ OnlyScalar s t ∧ SameRegs s t ∧ SameLoops s t ∧ pc t = p

/-- The instruction makes the change that leads from s to u and retires: the state after it is u but for the loop counters and
the PC of the executor, and the PC has gone on to the next word, unless a loop ends at this one. -/
def Does (i : Instr) (s u : State) : Prop :=
  u.cur = s.cur ∧ ∃ t x, exec i s = .next t ∧ t = modScOf u s.cur (fun _ => x) ∧
    x = { scOf u s.cur with pc := x.pc, lc0 := x.lc0, lc1 := x.lc1 } ∧
    (¬ AtLoopEnd s → x = { scOf u s.cur with pc := pc s + 4 })

/-- The same, with register d of the executor written as well. -/
def DoesAnd (i : Instr) (s u : State) (d : BitVec 5) (v : Word) : Prop := Does i s (setRegOf u s.cur d v)

/-- The instruction parks slot k, with a reason, in a class, with what remains of it; nothing else changes (R29, R30). -/
def Parks (i : Instr) (s : State) (k : Nat) (r : ParkReason) (abandon : Bool) (c : Cont) : Prop :=
  exec i s = .next (setSlot s k { slotAt s k with state := .parked, park := some { reason := r, abandon := abandon, cont := c } })

/-- The instruction takes a trap: a cause word and a value (R310). -/
def Traps (i : Instr) (s : State) (cause : Nat) (v : Word) : Prop := exec i s = .next (takeTrap s cause v)

/-- No world of slot k belongs to a HELD session: a park whose reason clears ends (R388). -/
abbrev NotHeld (s : State) (k : Nat) : Prop := heldNow s (slotAt s k) = false

/-! ### Accesses -/

/-- No access of a thread is under way in the ordering machine. -/
abbrev Quiet (s : State) (th : Nat) : Prop := ∀ e ∈ s.iq ++ s.transit, e.thread ≠ th

/-- The words of R247 to R251. Earlier events of e's thread that are not bound, accepted or performed, and its earlier writes in transit. -/
def Before (s : State) (e x : MemEv) : Prop := x ∈ s.iq ∧ x.thread = e.thread ∧ x.id < e.id
def SentBefore (s : State) (e x : MemEv) : Prop := x ∈ s.transit ∧ x.thread = e.thread ∧ x.id < e.id
/-- An atomic both reads and writes. -/
def ReadsMem (x : MemEv) : Prop := x.kind = .read ∨ ∃ op b c, x.kind = .atomic op b c
def WritesMem (x : MemEv) : Prop := x.kind = .write ∨ ∃ op b c, x.kind = .atomic op b c
/-- An acquire read, an acquire atomic or a fence. -/
def Blocks (x : MemEv) : Prop := x.kind = .fence ∨ ReadsMem x ∧ (x.order = .acquire ∨ x.order = .acqRel)
def Shares (x e : MemEv) : Prop := ∃ a ∈ x.addrs, a ∈ e.addrs
/-- A write in transit is performed at a scope: it has passed the points that come before the scope's own (R246). -/
def PerformedAt (sc : Scope) (x : MemEv) : Prop :=
  match sc with
  | .thread | .core => True
  | .cluster => ∀ p ∈ x.path, ∀ c, p ≠ .coreBuffer c
  | .partition => ∀ p ∈ x.path, (∀ c, p ≠ .coreBuffer c) ∧ ∀ c, p ≠ .cluster c
  | .system => x.path = []

/-- The conditions of R114 that come before the kind of the segment: the pointer, the rights, the range and the alignment. -/
abbrev PointerOk (p : Word) : Prop := p.toNat / 2 ^ 48 % 256 = 0 ∧ p.toNat / 2 ^ 59 < 22 ∧ p.toNat / 2 ^ 56 % 8 ≠ 7
abbrev SegmentOk (s : State) (g : BitVec 3) (need : Nat) : Prop :=
  (segOf s s.cur g).w0.toNat < 2 ^ 60 ∧ (segOf s s.cur g).w0.toNat / 2 ^ 57 ∈ [1, 2, 3, 4, 5] ∧
  (segOf s s.cur g).w1.toNat < 2 ^ 54 ∧ (segOf s s.cur g).rights &&& need = need ∧
  (need &&& 2 = 0 ∨ isApp s.cur = true ∨ tl s ≠ 2 ∨ g.toNat < 4)
def offsetOf (p : Word) (disp : Int) : Int := (p.toNat % 2 ^ 48 : Nat) + disp
abbrev InRange (s : State) (g : BitVec 3) (p : Word) (disp : Int) (n : Nat) : Prop :=
  0 ≤ offsetOf p disp ∧ offsetOf p disp + n ≤ (segOf s s.cur g).w1.toNat % 2 ^ 48 + 1
def cvaOf (s : State) (g : BitVec 3) (p : Word) (disp : Int) : Nat :=
  (segOf s s.cur g).w0.toNat % 2 ^ 57 + (offsetOf p disp).toNat

/-- An aligned access of n bytes that slot k may make to local memory through gK: it passes R114 and the window of R48. -/
abbrev LocalAccess (s : State) (k : Nat) (g : BitVec 3) (p : Word) (disp : Int) (n need : Nat) : Prop :=
  s.cur = .slot k ∧ PointerOk p ∧ SegmentOk s g need ∧ (segOf s s.cur g).w0.toNat / 2 ^ 57 = 2 ∧ InRange s g p disp n ∧
  cvaOf s g p disp % n = 0 ∧
  (if k % 16 = 15 then cvaOf s g p disp + n ≤ 0xC000
   else winBase (slotAt s k) ≤ cvaOf s g p disp ∧ cvaOf s g p disp + n ≤ winBase (slotAt s k) + winLen (slotAt s k) ∧
     cvaOf s g p disp + n ≤ 0xB000)

/-- The bytes of local memory of slot k's core from address a on. -/
def localBytes (s : State) (k a n : Nat) : List Byte := memReadBytes s.mem (flatLocal (coreOfSlot k) a) n

/-- A store or an atomic of slot k completes: the bytes are at their place, and every other byte, every register but d, the
other slots, the cores, the clusters and the partitions are as they were. -/
def Stored (s t : State) (k a : Nat) (bs : List Byte) (d : BitVec 5) (v : Word) : Prop :=
  BytesAt s t (flatLocal (coreOfSlot k) a) bs ∧ RegIs s t d v ∧ GoneOn s t ∧
  (∀ e : MemEv, e.id ≠ s.nextId → (e ∈ t.iq ↔ e ∈ s.iq)) ∧
  ∃ x, t = { modScOf s s.cur (fun _ => x) with mem := t.mem, iq := t.iq, nextId := t.nextId } ∧
    x = { scOf s s.cur with pc := x.pc, s := x.s, lc0 := x.lc0, lc1 := x.lc1 }

/-! ### The vector bank -/

/-- Slot k executes, and may hand an instruction to its sequencer: a bank is bound and not hidden, and an entry is free. -/
abbrev VecReady (s : State) (k : Nat) : Prop :=
  s.cur = .slot k ∧ vecHidden (slotAt s k) = false ∧ (slotAt s k).vec.bank ≠ none ∧ (slotAt s k).vec.seq.length < 16

/-- The instruction with what its hand-off fixes: two scalars, the seed and the lane class (R140). -/
def handed (s : State) (k : Nat) (i : Instr) (sa sb : Word) (seed : BitVec 32) : Handed :=
  { instr := i, pc := pc s, sa := sa, sb := sb, seed := seed, cls := (slotAt s k).vec.vtype, mask := 0, maskOdd := 0, lanes := [],
    extra := [] }

/-- The state with one more entry in slot k's sequencer, noted among the last 16 instructions handed over. -/
def withEntry (s : State) (k : Nat) (h : Handed) (e : SeqEntry) : State :=
  setSlot s k { slotAt s k with vec := { (slotAt s k).vec with seq := (slotAt s k).vec.seq ++ [e],
                                                               recent := (h :: (slotAt s k).vec.recent).take 16 } }

/-- The instruction completes, and its whole effect is one more entry of slot k's sequencer, with these scalars and this seed. -/
def HandsOver (i : Instr) (s : State) (k : Nat) (sa sb : Word) (seed : BitVec 32) : Prop :=
  let h := handed s k i sa sb seed
  Does i s (withEntry s k h { body := [h], step := 0, next := 0, last := 0, at_ := 0, pc := pc s,
                              ganged := (slotAt s k).ganged })

/-- The lane class of a width (R35). -/
def classOf (w : Nat) : Nat := if w = 32 then 0 else if w = 16 then 1 else 2

/-- The instruction is handed over in the lane class that its element type has, and is illegal in the others (R35, R107). -/
def HandsOverIfClass (i : Instr) (s : State) (k w : Nat) : Prop :=
  (VecReady s k → (slotAt s k).vec.vtype = classOf w → HandsOver i s k 0 0 0) ∧
  (s.cur = .slot k → vecHidden (slotAt s k) = false → (slotAt s k).vec.bank ≠ none → (slotAt s k).vec.vtype ≠ classOf w →
    Traps i s 0x01 (s.word.setWidth 64))

/-- A thread of slot k, single or ganged, with a bank of its own for each half (R32, R42). -/
abbrev BanksOk (s : State) (k : Nat) (ganged : Bool) : Prop :=
  (∃ b < 4, (slotAt s k).vec.bank = some b) ∧
  (ganged = true → k % 2 = 0 ∧ ∃ b < 4, (slotAt s (k + 1)).vec.bank = some b ∧ (slotAt s k).vec.bank ≠ some b)

/-- It is slot k's turn at the vector unit of its core (R38): the unit has accepted nothing in this clock, and no slot that comes before k
in the rotation has an entry that can be performed. -/
def UnitTurn (s : State) (k : Nat) : Prop :=
  let c := coreAt s (coreOfSlot k)
  c.vecClock ≠ some s.cycle ∧
    ∀ i < (slotNo k + 15 - c.vecLast % 16) % 16,
      performHead s (slotKey (coreOfSlot k) ((c.vecLast + 1 + i) % 16)) = s

/-- The head of slot k's sequencer is an entry of one instruction, the sequencer is not frozen, and it is the slot's turn. -/
abbrev HeadIs (s : State) (k : Nat) (e : SeqEntry) (rest : List SeqEntry) (h : Handed) : Prop :=
  (slotAt s k).vec.seq = e :: rest ∧ (slotAt s k).vec.frozen = false ∧ e.body = [h] ∧ e.step = 0 ∧ e.next = e.last ∧ e.at_ = 0 ∧
  BanksOk s k e.ganged ∧ UnitTurn s k

/-- Core c's vector unit has accepted this clock's instruction from slot k (R38). -/
def unitTook (s : State) (k : Nat) : State :=
  modCore s (coreOfSlot k) fun c => { c with vecClock := some s.cycle, vecLast := slotNo k }

/-- The lanes of a thread (R139), lane i of a register, and bit i of a mask: the odd slot holds the upper half (R42). -/
def laneCount (w : Nat) (ganged : Bool) : Nat := (if ganged then 2 else 1) * (1024 / w)
def halfOf (k w i : Nat) : Nat := if i < 1024 / w then k else k + 1
def lane (s : State) (k w : Nat) (r : BitVec 6) (i : Nat) : BitVec w :=
  BitVec.ofNat w ((bankReg (bankOfSlot s (halfOf k w i)) r.toNat).toNat / 2 ^ (w * (i % (1024 / w))))
def maskBit (s : State) (k w : Nat) (m : BitVec 3) (i : Nat) : Bool :=
  (bankMask (bankOfSlot s (halfOf k w i)) m).getLsbD (i % (1024 / w))

/-- The head entry of slot k is done: it has left, and but for flags of slot k, its park and its banks no slot and no byte of
memory has changed. -/
def Done (s t : State) (k : Nat) (rest : List SeqEntry) : Prop :=
  SameBytes s t ∧ (slotAt t k).vec.seq = rest ∧ (∀ j ≠ k, slotAt t j = slotAt s j) ∧
  (slotAt t k).sc = { (slotAt s k).sc with fpflags := (slotAt t k).sc.fpflags } ∧
  (slotAt t k).vec.bank = (slotAt s k).vec.bank ∧ (slotAt t k).tr = (slotAt s k).tr

/-- The flags of slot k are those it had and those of the lanes i that a set holds (R141). -/
def FlagsFrom (s t : State) (k n : Nat) (on : Nat → Bool) (f : Nat → FFlags) : Prop :=
  ∀ j < 64, ((slotAt t k).sc.fpflags.getLsbD j = true ↔
    (slotAt s k).sc.fpflags.getLsbD j = true ∨ (j < 5 ∧ ∃ i < n, on i = true ∧ (f i).getLsbD j = true))

/-- Register d of the thread holds the lanes given; its other registers and its masks are as they were. -/
def LanesAre (s t : State) (k w : Nat) (ganged : Bool) (d : BitVec 6) (v : Nat → BitVec w) : Prop :=
  (∀ i < laneCount w ganged, lane t k w d i = v i) ∧
  ∀ j ∈ halvesOf k ganged, (∀ r : BitVec 6, r ≠ d → bankReg (bankOfSlot t j) r.toNat = bankReg (bankOfSlot s j) r.toNat) ∧
    ∀ m, bankMask (bankOfSlot t j) m = bankMask (bankOfSlot s j) m

/-- Mask d of the thread holds the bits given, with 0 above them (m0 discards the write); its other masks and its registers
are as they were. -/
def MaskIs (s t : State) (k w : Nat) (ganged : Bool) (d : BitVec 3) (v : Nat → Bool) : Prop :=
  (d ≠ 0 → ∀ i < laneCount w ganged, maskBit t k w d i = v i) ∧
  ∀ j ∈ halvesOf k ganged, (∀ r : BitVec 6, bankReg (bankOfSlot t j) r.toNat = bankReg (bankOfSlot s j) r.toNat) ∧
    (d ≠ 0 → ∀ i ≥ 1024 / w, (bankMask (bankOfSlot t j) d).getLsbD i = false) ∧
    ∀ m ≠ d, bankMask (bankOfSlot t j) m = bankMask (bankOfSlot s j) m

/-- What slot k's sequencer does when it performs i, whose lanes take op of the lanes of a, b and d, with the flags fl: active lanes
take their result and inactive lanes keep theirs, unless a flag that the slot enables would be raised (R139, R141). -/
def laneRow (s : State) (k : Nat) (i : Instr) (w : Nat) (d a b : BitVec 6) (m : BitVec 3)
    (op : BitVec w → BitVec w → BitVec w → BitVec w) (fl : BitVec w → BitVec w → BitVec w → FFlags) : Prop :=
  HandsOverIfClass i s k w ∧
  ∀ (e : SeqEntry) (rest : List SeqEntry) (h : Handed), HeadIs s k e rest h → h.instr = i → classWidth h.cls = w →
    let n := laneCount w e.ganged
    let new := fun j => op (lane s k w a j) (lane s k w b j) (lane s k w d j)
    let flags := fun j => fl (lane s k w a j) (lane s k w b j) (lane s k w d j)
    (∀ j < n, maskBit s k w m j = true → flags j &&& enabledFlags s k = 0) →
    ∃ t, exec (.sequencerEntryPerform k) s = .next t ∧ Done s t k rest ∧
      LanesAre s t k w e.ganged d (fun j => if maskBit s k w m j then new j else lane s k w d j) ∧
      FlagsFrom s t k n (maskBit s k w m) flags

/-- The parts of a code of a format with infinities, and the classes of codes (R51). -/
def signOf (f : FFmt) (x : Nat) : Bool := x / 2 ^ (f.fb + f.eb) % 2 == 1
def expOf (f : FFmt) (x : Nat) : Nat := x / 2 ^ f.fb % 2 ^ f.eb
abbrev CodeOf (f : FFmt) (x : Nat) : Prop := x < 2 ^ (1 + f.eb + f.fb)
abbrev IsFinite (f : FFmt) (x : Nat) : Prop := CodeOf f x ∧ expOf f x ≠ 2 ^ f.eb - 1
abbrev IsInf (f : FFmt) (x : Nat) : Prop := CodeOf f x ∧ expOf f x = 2 ^ f.eb - 1 ∧ x % 2 ^ f.fb = 0
abbrev IsNaN (f : FFmt) (x : Nat) : Prop := CodeOf f x ∧ expOf f x = 2 ^ f.eb - 1 ∧ x % 2 ^ f.fb ≠ 0
/-- The value of a finite code, in units of the least subnormal number, and 1 in these units. -/
def unitsOf (f : FFmt) (x : Nat) : Int :=
  let m : Int := if expOf f x = 0 then (x % 2 ^ f.fb : Nat) else ((2 ^ f.fb + x % 2 ^ f.fb) * 2 ^ (expOf f x - 1) : Nat)
  if signOf f x then -m else m
def oneUnits (f : FFmt) : Int := 2 ^ (f.bias + f.fb - 1)
/-- Element i of a register, w bits wide. -/
def el (w : Nat) (v : VWord) (i : Nat) : Nat := v.toNat / 2 ^ (w * i) % 2 ^ w
/-- The head entry of a galley of a core as one number: bit n of it is bit n % 8 of byte n / 8 (R52). -/
def headEntry (s : State) (core : Nat) (g : Galley) : Nat :=
  leNat (memReadBytes s.mem (flatScratch (core / 16) (g.base + g.size * g.head)) g.size)
/-- The head entry of a galley by the layout of R172, with K elements to a vector: whether element x of vector v is present, its code, and
the scale byte of its block. In a bitmap entry the codes that are present stand close together after the map. -/
def isPresent (s : State) (core : Nat) (g : Galley) (K v x : Nat) : Bool := !g.bitmap || headEntry s core g / 2 ^ (v * K + x) % 2 == 1
def mapBits (g : Galley) (K : Nat) : Nat := if g.bitmap then 32 * K else 0
def codeOf (s : State) (core : Nat) (g : Galley) (K v x : Nat) : Nat :=
  let w := elemWidth g.fmt
  let place := if g.bitmap then ((List.range x).filter (isPresent s core g K v)).length else x
  headEntry s core g / 2 ^ (mapBits g K + w * (v * K + place)) % 2 ^ w
def scaleOf (s : State) (core : Nat) (g : Galley) (K v x : Nat) : Nat :=
  let b := blockLen g.blen
  headEntry s core g / 2 ^ (mapBits g K + 32 * K * elemWidth g.fmt + 8 * (v * (K / b) + x / b)) % 2 ^ 8
/-- The order of the codes that are no NaNs, with -0 below +0 (R145). -/
def orderOf (f : FFmt) (x : Nat) : Int :=
  if signOf f x then -((x % 2 ^ (f.fb + f.eb) : Nat) : Int) - 1 else (x % 2 ^ (f.fb + f.eb) : Nat)
/-- The codes of a zero, of an infinity and of the default NaN (R51, R55). -/
def zeroCode (f : FFmt) (neg : Bool) : Nat := if neg then 2 ^ (f.eb + f.fb) else 0
def infCode (f : FFmt) (neg : Bool) : Nat := zeroCode f neg + (2 ^ f.eb - 1) * 2 ^ f.fb
def nanCode (f : FFmt) : Nat := (2 ^ f.eb - 1) * 2 ^ f.fb + 2 ^ (f.fb - 1)

/-- The same for a comparison: the bit of an inactive lane is 0 (R139). -/
def compareRow (s : State) (k : Nat) (i : Instr) (w : Nat) (d : BitVec 3) (a b : BitVec 6) (m : BitVec 3)
    (op : BitVec w → BitVec w → Bool) : Prop :=
  HandsOverIfClass i s k w ∧
  ∀ (e : SeqEntry) (rest : List SeqEntry) (h : Handed), HeadIs s k e rest h → h.instr = i → classWidth h.cls = w →
    ∃ t, exec (.sequencerEntryPerform k) s = .next t ∧ Done s t k rest ∧
      MaskIs s t k w e.ganged d (fun j => maskBit s k w m j && op (lane s k w a j) (lane s k w b j)) ∧
      (slotAt t k).sc.fpflags = (slotAt s k).sc.fpflags

/-- The same for VSEL, whose mask selects (R144). -/
def selectRow (s : State) (k : Nat) (i : Instr) (w : Nat) (d a b : BitVec 6) (m : BitVec 3) : Prop :=
  HandsOverIfClass i s k w ∧
  ∀ (e : SeqEntry) (rest : List SeqEntry) (h : Handed), HeadIs s k e rest h → h.instr = i → classWidth h.cls = w →
    ∃ t, exec (.sequencerEntryPerform k) s = .next t ∧ Done s t k rest ∧
      LanesAre s t k w e.ganged d (fun j => if maskBit s k w m j then lane s k w a j else lane s k w b j) ∧
      (slotAt t k).sc.fpflags = (slotAt s k).sc.fpflags

/-! ### Engine commands -/

/-- Slot k of a cluster's core executes: the engine commands exist there (R372). -/
abbrev OnCluster (s : State) (k : Nat) : Prop := s.cur = .slot k ∧ k < 2 ^ 15

/-- A block of n bytes of local memory that slot k may reach through gK, aligned to al (R114, R48). -/
abbrev LocalBlock (s : State) (k : Nat) (g : BitVec 3) (p : Word) (disp : Int) (n al need : Nat) : Prop :=
  s.cur = .slot k ∧ PointerOk p ∧ SegmentOk s g need ∧ (segOf s s.cur g).w0.toNat / 2 ^ 57 = 2 ∧ InRange s g p disp n ∧
  cvaOf s g p disp % al = 0 ∧
  (if k % 16 = 15 then cvaOf s g p disp + n ≤ 0xC000
   else winBase (slotAt s k) ≤ cvaOf s g p disp ∧ cvaOf s g p disp + n ≤ winBase (slotAt s k) + winLen (slotAt s k) ∧
     cvaOf s g p disp + n ≤ 0xB000)

/-- The word that an endpoint register returns: the pointer with its displacement added (R168, R124). -/
def endpointAt (p : Word) (disp : Int) : Word :=
  let o := offsetOf p disp
  if 0 ≤ o ∧ o < 2 ^ 48 then BitVec.ofNat 64 (p.toNat / 2 ^ 48 * 2 ^ 48 + o.toNat)
  else BitVec.ofNat 64 (p.toNat / 2 ^ 56 * 2 ^ 56 + 0xFF * 2 ^ 48 + (o % 2 ^ 48).toNat)

/-- Slot k is as it was, but parked with this reason and continuation. -/
def ParkedAs (s t : State) (k : Nat) (r : ParkReason) (abandon : Bool) (c : Cont) : Prop :=
  (slotAt t k).state = .parked ∧ (slotAt t k).park = some { reason := r, abandon := abandon, cont := c } ∧
  (slotAt t k).sc = (slotAt s k).sc ∧ (slotAt t k).frames = (slotAt s k).frames ∧ ∀ j ≠ k, slotAt t j = slotAt s j
/-! ### Traps, kills and unwinding -/

/-- Slot k executes below TL2 and is a user slot: it may run no privileged instruction (R104). -/
abbrev UserMode (s : State) (k : Nat) : Prop := s.cur = .slot k ∧ k % 16 ≠ 15 ∧ (slotAt s k).tr.tl ≠ 2

/-- Slot k holds a task of one slot, with no call open and no unwinding under way. -/
abbrev TaskAlone (s : State) (k : Nat) : Prop :=
  let x := slotAt s k
  k % 16 ≠ 15 ∧ x.state ≠ .empty ∧ x.frames = [] ∧ x.unwind = none ∧ pairedWith s k = none

/-- The context of slot k has been killed (R313): the slot is Empty with its registers and its window zeroed, a kill record is
posted, and the launch's first fault is noted for its colophon. -/
def Killed (s t : State) (k kind cause level world : Nat) (p : Word) : Prop :=
  let x := slotAt s k
  let core := coreOfSlot k
  (slotAt t k).state = .empty ∧ (slotAt t k).vec.bank = none ∧ (slotAt t k).eng.tenures = [] ∧ (∀ r, regOf t (.slot k) r = 0) ∧
  (∀ j < winLen x, winBase x + j < 0xC000 → memRead t.mem (flatLocal core (winBase x + j)) = 0) ∧
  (recordsOf (coreAt s core) k < 2 → ∃ e, (coreAt t core).delivered = (coreAt s core).delivered ++ [e] ∧ e.recordOf = some k ∧
    e.payload = [w64 (level * 2 ^ 28 + world % 4096 * 2 ^ 16 + cause % 256 * 2 ^ 8 + kind * 2 ^ 4 + k % 16), p]) ∧
  ∀ l, launchOf s x.task.launch = some l → partOfSlot s k = some l.part → l.status = 0 →
    ∃ m, launchOf t x.task.launch = some m ∧ m.status = 1 ∧ m.cause = cause ∧ m.killKind = kind ∧ m.faultPc = p

/-- Slot k has left its innermost frame f by unwinding, with a status in s3 and the gate in s4 (R307). -/
def Resumed (s t : State) (k : Nat) (f : Frame) (status : Nat) : Prop :=
  let x := slotAt s k
  let y := slotAt t k
  y.state = .ready ∧ y.park = none ∧ y.unwind = none ∧ y.tr.tl = 0 ∧ y.tr.thandler = f.thandler ∧ y.world = f.caller ∧
  y.frames.length + 1 = x.frames.length ∧ y.sc.pc = f.ret ∧ y.sc.g = f.g ∧ y.sc.lc0 = f.lc0 ∧ y.sc.lc1 = f.lc1 ∧
  y.lmbase = f.lmbase ∧ y.lmbound = f.lmbound ∧ y.deadline = f.mark ∧ y.vec.bank = f.bank ∧
  (∀ i : Fin 21, regOf t (.slot k) (BitVec.ofNat 5 (i.val + 11)) = f.saved[i]) ∧
  regOf t (.slot k) 3 = w64 status ∧ regOf t (.slot k) 4 = f.gate ∧ (∀ i ∈ [5, 6, 7, 8, 9, 10], regOf t (.slot k) (BitVec.ofNat 5 i) = 0) ∧
  ∀ j < winLen x, winBase x + j < 0xC000 → memRead t.mem (flatLocal (coreOfSlot k) (winBase x + j)) = 0

/-- The cleanup of the innermost frame f of slot k has started, with a status in s3 and the gate in s4 (R307). -/
def CleansUp (s t : State) (k : Nat) (f : Frame) (status : Nat) : Prop :=
  let y := slotAt t k
  y.state = .ready ∧ y.park = none ∧ y.tr.tl = 0 ∧ y.tr.thandler = 0 ∧ y.sc.pc = w64 f.cleanup ∧ y.world = (slotAt s k).world ∧
  y.frames.length = (slotAt s k).frames.length ∧ y.deadline = some (s.cycle + 4096) ∧ inCleanup y = true ∧
  regOf t (.slot k) 3 = w64 status ∧ regOf t (.slot k) 4 = f.gate ∧ SameBytes s t

/-! ### Frames and ports of the host -/

/-- Partition p has moved frame f from tier src to the top place of the free stack of tier dst (R358): its entry names the new
place, the old one is on its tier's stack, no port keeps a translation of it, and what waited for it issues again. -/
def FrameMoved (s t : State) (p : Nat) (x : PartSt) (f src dst : Nat) : Prop :=
  let e := entryAt s p x f
  let place := leNat (memReadBytes s.mem (stackAt x dst + 4 * (stackCount x dst - 1)) 4) % 2 ^ 31
  let e1 := setField (setField e 62 32 place) 8 7 dst
  let here := fun (a : Nat) => entryFlat e1 ≤ a ∧ a < entryFlat e1 + 2 ^ 21
  (∃ y, partAt t p = some y ∧ movingOf y f = none ∧ stackCount y dst = stackCount x dst - 1 ∧
    stackCount y src = (stackCount x src + 1) % 2 ^ 64) ∧
  (∀ c, ∀ u ∈ (clusterAt t c).tlb, u.part = p → f ∉ u.frames) ∧
  (∀ k q b, partOfSlot s k = some p → NotHeld s k → (slotAt s k).park = some { reason := q, abandon := b, cont := .moving f } →
    (slotAt t k).state = .ready ∧ (slotAt t k).park = none) ∧
  (MemoryOk s → isWindow (x.stage2 + 8 * f) = false → (∀ i < 8, isMetadata (x.stage2 + 8 * f + i) = false) →
    memReadBytes t.mem (x.stage2 + 8 * f) 8 = leBytes 8 e1) ∧
  (MemoryOk s → (∀ i < 8, ¬ here (x.stage2 + 8 * f + i)) → (∀ i < 4, ¬ here (stackAt x src + 4 * stackCount x src + i)) →
    ∀ i < 2 ^ 21, memRead t.mem (entryFlat e1 + i) = memRead s.mem (entryFlat e + i))

/-- The state in which a port operation has answered its reader with a status (R335). -/
def answered (s : State) (v : Nat) : State :=
  { s with mod := { s.mod with portStatus := insert s.mod.portStatus s.mod.portReader (w64 v) } }

end Sys2Proof.Safety
end

