-- ==== Sys2Proof/Certificates/Slice0/Obligations.lean ====
section
/-! DEFINITION. The statements for the provers: what the rules of the spec say that the machine does. -/

open Sys2Proof Sys2Proof.Machine Sys2Proof.Safety

/-! ### Scalar registers: arithmetic, immediates, products, bits, pointers -/

/-- R117: the word of each minor of the ALU group reads as its instruction, a minor of 20 or more as none; each writes s[d] as its
row gives, and nothing else changes. -/
def Obligations.AluWritesItsRow : Prop :=
  ∀ (s : State) (d a b : BitVec 5),
    let x := rd s a
    let y := rd s b
    let n := y.toNat % 64
    Writes (.add d a b) s d (x + y) ∧ Writes (.sub d a b) s d (x - y) ∧
    Writes (.and d a b) s d (x &&& y) ∧ Writes (.or d a b) s d (x ||| y) ∧ Writes (.xor d a b) s d (x ^^^ y) ∧
    Writes (.andn d a b) s d (x &&& ~~~y) ∧
    Writes (.shl d a b) s d (BitVec.ofNat 64 (x.toNat * 2 ^ n)) ∧ Writes (.shr d a b) s d (BitVec.ofNat 64 (x.toNat / 2 ^ n)) ∧
    Writes (.sar d a b) s d (BitVec.ofInt 64 (x.toInt / 2 ^ n)) ∧
    Writes (.rol d a b) s d (x <<< n ||| x >>> (64 - n)) ∧
    Writes (.min d a b) s d (if x.toInt < y.toInt then x else y) ∧
    Writes (.max d a b) s d (if x.toInt < y.toInt then y else x) ∧
    Writes (.minn d a b) s d (if x.toNat < y.toNat then x else y) ∧
    Writes (.maxn d a b) s d (if x.toNat < y.toNat then y else x) ∧
    Writes (.slt d a b) s d (if x.toInt < y.toInt then 1 else 0) ∧
    Writes (.sltn d a b) s d (if x.toNat < y.toNat then 1 else 0) ∧
    Writes (.seq d a b) s d (if x = y then 1 else 0) ∧ Writes (.sne d a b) s d (if x = y then 0 else 1) ∧
    Writes (.addw d a b) s d (((x + y).setWidth 32).signExtend 64) ∧
    Writes (.subw d a b) s d (((x - y).setWidth 32).signExtend 64) ∧
    let is : List Instr := [.add d a b, .sub d a b, .and d a b, .or d a b, .xor d a b, .andn d a b, .shl d a b, .shr d a b,
      .sar d a b, .rol d a b, .min d a b, .max d a b, .minn d a b, .maxn d a b, .slt d a b, .sltn d a b, .seq d a b, .sne d a b,
      .addw d a b, .subw d a b]
    (∀ m i, is[m]? = some i → decode (wordA 0x01 d a b m) = .ok i) ∧
    ∀ m, 20 ≤ m → m < 2048 → Illegal (wordA 0x01 d a b m)

/-- R118, R119: the words of the immediate forms, of the shifts by a constant, of MOVI and of LIT, and what each writes. -/
def Obligations.ImmediatesWriteTheirRow : Prop :=
  ∀ (s : State) (d a : BitVec 5) (i : BitVec 16) (c : BitVec 6) (k : BitVec 2),
    let x := rd s a
    let sx := i.signExtend 64
    let zx := i.setWidth 64
    Writes (.addi d a i) s d (x + sx) ∧ Writes (.andi d a i) s d (x &&& sx) ∧
    Writes (.ori d a i) s d (x ||| zx) ∧ Writes (.xori d a i) s d (x ^^^ zx) ∧
    Writes (.shli d a c) s d (BitVec.ofNat 64 (x.toNat * 2 ^ c.toNat)) ∧
    Writes (.shri d a c) s d (BitVec.ofNat 64 (x.toNat / 2 ^ c.toNat)) ∧
    Writes (.sari d a c) s d (BitVec.ofInt 64 (x.toInt / 2 ^ c.toNat)) ∧
    Writes (.roli d a c) s d (x <<< c.toNat ||| x >>> (64 - c.toNat)) ∧
    Writes (.movi d i) s d sx ∧
    Writes (.slti d a i) s d (if x.toInt < i.toInt then 1 else 0) ∧
    Writes (.sltni d a i) s d (if x.toNat < i.toNat then 1 else 0) ∧
    Writes (.lit d k i) s d
      (BitVec.ofInt 64 (i.toInt * 2 ^ (16 * k.toNat) + ((rd s d).toNat % 2 ^ (16 * k.toNat) : Nat))) ∧
    decode (wordI 0x02 d a i) = .ok (.addi d a i) ∧ decode (wordI 0x03 d a i) = .ok (.andi d a i) ∧
    decode (wordI 0x04 d a i) = .ok (.ori d a i) ∧ decode (wordI 0x05 d a i) = .ok (.xori d a i) ∧
    decode (wordI 0x06 d a (0#2 ++ 0#8 ++ c)) = .ok (.shli d a c) ∧ decode (wordI 0x06 d a (1#2 ++ 0#8 ++ c)) = .ok (.shri d a c) ∧
    decode (wordI 0x06 d a (2#2 ++ 0#8 ++ c)) = .ok (.sari d a c) ∧ decode (wordI 0x06 d a (3#2 ++ 0#8 ++ c)) = .ok (.roli d a c) ∧
    decode (wordI 0x07 d 0 i) = .ok (.movi d i) ∧ decode (wordI 0x08 d (k.setWidth 5) i) = .ok (.lit d k i) ∧
    decode (wordI 0x09 d a i) = .ok (.slti d a i) ∧ decode (wordI 0x0A d a i) = .ok (.sltni d a i)

/-- R120 (the products), R122, R123: products, counts of bits, extensions and bit fields. BFX and BFI take position and width from
s[b]. The words of the BITS group read as its instructions. -/
def Obligations.ProductsAndBitsWriteTheirRow : Prop :=
  ∀ (s : State) (d a b : BitVec 5),
    let x := rd s a
    let y := rd s b
    let p := y.toNat % 64
    let w := min (y.toNat / 64 % 128) (64 - p)
    Writes (.mul d a b) s d (BitVec.ofNat 64 (x.toNat * y.toNat)) ∧
    Writes (.mulh d a b) s d (BitVec.ofInt 64 (x.toInt * y.toInt / 2 ^ 64)) ∧
    Writes (.mulhn d a b) s d (BitVec.ofNat 64 (x.toNat * y.toNat / 2 ^ 64)) ∧
    Writes (.mulw d a b) s d ((BitVec.ofNat 32 (x.toNat * y.toNat)).signExtend 64) ∧
    (∃ n ≤ 64, Writes (.clz d a) s d (BitVec.ofNat 64 n) ∧ (∀ i < n, x.getLsbD (63 - i) = false) ∧
      (n < 64 → x.getLsbD (63 - n) = true)) ∧
    (∃ n ≤ 64, Writes (.ctz d a) s d (BitVec.ofNat 64 n) ∧ (∀ i < n, x.getLsbD i = false) ∧
      (n < 64 → x.getLsbD n = true)) ∧
    Writes (.popc d a) s d (BitVec.ofNat 64 ((List.range 64).countP fun i => x.getLsbD i)) ∧
    (∃ v, Writes (.brev d a) s d v ∧ ∀ i < 64, v.getLsbD i = x.getLsbD (63 - i)) ∧
    Writes (.sextb d a) s d ((x.setWidth 8).signExtend 64) ∧ Writes (.sexth d a) s d ((x.setWidth 16).signExtend 64) ∧
    Writes (.sextw d a) s d ((x.setWidth 32).signExtend 64) ∧
    Writes (.zextb d a) s d (BitVec.ofNat 64 (x.toNat % 2 ^ 8)) ∧ Writes (.zexth d a) s d (BitVec.ofNat 64 (x.toNat % 2 ^ 16)) ∧
    Writes (.zextw d a) s d (BitVec.ofNat 64 (x.toNat % 2 ^ 32)) ∧
    Writes (.bfx d a b) s d (BitVec.ofNat 64 (x.toNat / 2 ^ p % 2 ^ w)) ∧
    (∃ v, Writes (.bfi d a b) s d v ∧
      ∀ i < 64, v.getLsbD i = if p ≤ i ∧ i < p + w then x.getLsbD (i - p) else (rd s d).getLsbD i) ∧
    let is : List Instr := [.clz d a, .ctz d a, .popc d a, .brev d a, .sextb d a, .sexth d a, .sextw d a, .zextb d a, .zexth d a,
      .zextw d a]
    (∀ m i, is[m]? = some i → decode (wordA 0x0C d a 0 m) = .ok i) ∧
    decode (wordA 0x0C d a b 10) = .ok (.bfx d a b) ∧ decode (wordA 0x0C d a b 11) = .ok (.bfi d a b)

/-- R124, R125: the words of the pointer instructions, and what each writes. An offset that leaves its 48 bits marks bits 55:48
with 0xFF. -/
def Obligations.PointersWriteTheirRow : Prop :=
  ∀ (s : State) (d a b : BitVec 5) (k : BitVec 3),
    let x := (rd s a).toNat
    let moved := fun (o : Int) =>
      if 0 ≤ o ∧ o < 2 ^ 48 then BitVec.ofNat 64 (x / 2 ^ 48 * 2 ^ 48 + o.toNat)
      else BitVec.ofNat 64 (x / 2 ^ 56 * 2 ^ 56 + 0xFF * 2 ^ 48 + (o % 2 ^ 48).toNat)
    let g := segOf s s.cur k
    Writes (.padd d a b) s d (moved ((x % 2 ^ 48 : Nat) + (rd s b).toInt)) ∧
    Writes (.psub d a b) s d (moved ((x % 2 ^ 48 : Nat) - (rd s b).toInt)) ∧
    Writes (.pfmt d a b) s d (BitVec.ofNat 64 ((rd s b).toNat % 256 * 2 ^ 56 + x % 2 ^ 56)) ∧
    Writes (.pmeta d a) s d (BitVec.ofNat 64 (x / 2 ^ 56)) ∧
    Writes (.pclr d a) s d (BitVec.ofNat 64 (x % 2 ^ 48)) ∧
    Writes (.pchk d a k) s d
      (if x / 2 ^ 48 % 256 ≠ 0 ∨ 22 ≤ x / 2 ^ 59 ∨ x / 2 ^ 56 % 8 = 7 then 5
       else if g.kind = 0 ∨ 6 ≤ g.kind ∨ 2 ^ 60 ≤ g.w0.toNat ∨ 2 ^ 54 ≤ g.w1.toNat then 4
       else if g.w1.toNat % 2 ^ 48 < x % 2 ^ 48 then 3 else 0) ∧
    decode (wordA 0x0D d a b 0) = .ok (.padd d a b) ∧ decode (wordA 0x0D d a b 1) = .ok (.psub d a b) ∧
    decode (wordA 0x0D d a b 2) = .ok (.pfmt d a b) ∧ decode (wordA 0x0D d a 0 3) = .ok (.pmeta d a) ∧
    decode (wordA 0x0D d a 0 4) = .ok (.pclr d a) ∧ decode (wordA 0x0D d a (k.setWidth 5) 5) = .ok (.pchk d a k) ∧
    (8 ≤ b.toNat → Illegal (wordA 0x0D d a b 5))

/-- R120, R121: a divide whose divisor may be used parks its slot with reason 3 and nothing else, and at its clock
DIVIDE_DONE writes the result of its row and goes on. On an application core the result is written at once (R116).
R121: a divide by zero with `ctl.idz` set traps with 0x07 and s[a], and writes nothing else. -/
def Obligations.DividesCompleteOrTrap : Prop :=
  (∀ (s : State) (d a b : BitVec 5) (i : Instr) (v : Word) (n : Nat),
     (let x := (rd s a)
      let y := (rd s b)
      let xw := (x.setWidth 32).toInt
      let yw := (y.setWidth 32).toInt
      let q := fun (p r : Int) => if r = 0 then BitVec.allOnes 64 else BitVec.ofInt 64 (Int.tdiv p r)
      let qw := fun (p r : Int) => if r = 0 then BitVec.allOnes 64 else (BitVec.ofInt 32 (Int.tdiv p r)).signExtend 64
      let m := fun (p r : Int) => BitVec.ofInt 64 (Int.tmod p r)
      (i = .div d a b ∧ v = q x.toInt y.toInt ∧ n = 34) ∨ (i = .rem d a b ∧ v = m x.toInt y.toInt ∧ n = 34) ∨
      (i = .divn d a b ∧ v = q x.toNat y.toNat ∧ n = 34) ∨ (i = .remn d a b ∧ v = m x.toNat y.toNat ∧ n = 34) ∨
      (i = .divw d a b ∧ v = qw xw yw ∧ n = 18) ∨ (i = .remw d a b ∧ v = m xw yw ∧ n = 18)) →
     ((if n = 18 then (rd s b).toNat % 2 ^ 32 else (rd s b).toNat) ≠ 0 ∨ (scOf s s.cur).fpmode.getLsbD 8 = false) →
     (∀ j, s.cur = .app j → Writes i s d v) ∧
     ∀ k, s.cur = .slot k →
       (∃ t, exec i s = .next t ∧ t = setSlot s k (slotAt t k) ∧
         slotAt t k = { slotAt s k with state := .parked, park := (slotAt t k).park } ∧
         (slotAt t k).park = some { reason := .divide, abandon := false, cont := .divide d v (s.cycle + n) }) ∧
       ∀ u : State, (slotAt u k).park = some { reason := .divide, abandon := false, cont := .divide d v (s.cycle + n) } →
         u.cur = .slot k → NotHeld u k → s.cycle + n ≤ u.cycle →
         ∃ t, exec (.divideDone k) u = .next t ∧ RegIs u t d v ∧ GoneOn u t ∧ SameBytes u t ∧
           (slotAt t k).state = .ready ∧ (slotAt t k).park = none ∧ (slotAt t k).rdy = u.cycle) ∧
  (∀ (s : State) (d a b : BitVec 5), (scOf s s.cur).fpmode.getLsbD 8 = true →
     (rd s b = 0 → Traps (.div d a b) s 0x07 (rd s a) ∧ Traps (.divn d a b) s 0x07 (rd s a) ∧
       Traps (.rem d a b) s 0x07 (rd s a) ∧ Traps (.remn d a b) s 0x07 (rd s a)) ∧
     ((rd s b).toNat % 2 ^ 32 = 0 → Traps (.divw d a b) s 0x07 (rd s a) ∧ Traps (.remw d a b) s 0x07 (rd s a)))

/-! ### Branches, jumps, loops -/

/-- R127, R128: a branch whose comparison holds and a jump go to their target, and JAL and JALR leave PC + 4 in their link;
a branch that does not hold goes on; a target below 0 or one that is not aligned traps. Their words are of formats B, J and A. -/
def Obligations.BranchesAndJumpsGoToTheirTarget : Prop :=
  ∀ (s : State) (d a b : BitVec 5) (o : BitVec 16) (f : BitVec 26),
    let x := rd s a
    let y := rd s b
    let go := fun (i : Instr) (holds : Prop) =>
      let p := (pc s).toNat + 4 * o.toInt
      (holds → 0 ≤ p → GoesTo i s (BitVec.ofInt 64 p)) ∧ (holds → p < 0 → Traps i s 0x03 (BitVec.ofInt 64 p)) ∧
      (¬ holds → ∃ t, exec i s = .next t ∧ OnlyScalar s t ∧ SameRegs s t ∧ GoneOn s t)
    let p := (pc s).toNat + 4 * f.toInt
    let links := fun (i : Instr) (l : BitVec 5) (q : Word) =>
      ∃ t, exec i s = .next t ∧ OnlyScalar s t ∧ SameLoops s t ∧ pc t = q ∧ RegIs s t l (pc s + 4)
    go (.beq a b o) (x = y) ∧ go (.bne a b o) (x ≠ y) ∧ go (.blt a b o) (x.toInt < y.toInt) ∧
    go (.bge a b o) (y.toInt ≤ x.toInt) ∧ go (.bltn a b o) (x.toNat < y.toNat) ∧ go (.bgen a b o) (y.toNat ≤ x.toNat) ∧
    (0 ≤ p → GoesTo (.j f) s (BitVec.ofInt 64 p) ∧ links (.jal f) 1 (BitVec.ofInt 64 p)) ∧
    (p < 0 → Traps (.j f) s 0x03 (BitVec.ofInt 64 p) ∧ Traps (.jal f) s 0x03 (BitVec.ofInt 64 p)) ∧
    (x.toNat % 4 = 0 → 0 ≤ x.toInt → GoesTo (.jr a) s x ∧ links (.jalr d a) d x) ∧
    (x.toNat % 4 ≠ 0 → Traps (.jr a) s 0x06 x ∧ Traps (.jalr d a) s 0x06 x) ∧
    (x.toNat % 4 = 0 → x.toInt < 0 → Traps (.jr a) s 0x03 x ∧ Traps (.jalr d a) s 0x03 x) ∧
    decode (wordI 0x10 a b o) = .ok (.beq a b o) ∧ decode (wordI 0x11 a b o) = .ok (.bne a b o) ∧
    decode (wordI 0x12 a b o) = .ok (.blt a b o) ∧ decode (wordI 0x13 a b o) = .ok (.bge a b o) ∧
    decode (wordI 0x14 a b o) = .ok (.bltn a b o) ∧ decode (wordI 0x15 a b o) = .ok (.bgen a b o) ∧
    decode (0x16 * 2 ^ 26 + f.toNat) = .ok (.j f) ∧ decode (0x17 * 2 ^ 26 + f.toNat) = .ok (.jal f) ∧
    decode (wordA 0x18 0 a 0 0) = .ok (.jr a) ∧ decode (wordA 0x18 d a 0 1) = .ok (.jalr d a)

/-- R130: LOOP sets up its counter and goes on, or skips the body when the count is 0; above level 0 it is illegal. Its offset lies
in 1 to 32,767.
R131: at the end of one active counter, an instruction that neither branches nor traps counts and goes to START, or ends
the counter and goes on. NOP's encoding, ADD of s0, stands for such an instruction. -/
def Obligations.LoopsCountTheirBody : Prop :=
  (∀ (s : State) (a : BitVec 5) (n : BitVec 1) (o : BitVec 16),
     (tl s ≠ 0 → Traps (.loop a n o) s 0x01 (s.word.setWidth 64)) ∧
     (tl s = 0 → ∃ t, exec (.loop a n o) s = .next t ∧ SameRegs s t ∧ SameBytes s t ∧
       (∃ x, t = { modScOf s s.cur (fun _ => x) with nextId := t.nextId } ∧
         x = { scOf s s.cur with pc := x.pc, lc0 := x.lc0, lc1 := x.lc1 }) ∧
       (rd s a = 0 → pc t = pc s + 4 * o.setWidth 64 + 4 ∧ (getLoop (scOf t t.cur) n).count = 0 ∧
         (getLoop (scOf t t.cur) n).active = false) ∧
       (rd s a ≠ 0 → ¬ AtLoopEnd s → o ≠ 0 → pc t = pc s + 4 ∧
         getLoop (scOf t t.cur) n = { count := rd s a, start := pc s + 4, stop := pc s + 4 * o.setWidth 64, active := true,
                                      order := s.nextId }) ∧
       (¬ AtLoopEnd s → ∀ m, m ≠ n → getLoop (scOf t t.cur) m = getLoop (scOf s s.cur) m)) ∧
     (if 1 ≤ o.toNat ∧ o.toNat ≤ 32767 then decode (wordI 0x19 a (n.setWidth 5) o) = .ok (.loop a n o)
      else Illegal (wordI 0x19 a (n.setWidth 5) o))) ∧
  (∀ (s : State) (n : BitVec 1),
     let l := getLoop (scOf s s.cur) n
     let o := getLoop (scOf s s.cur) (1 - n)
     tl s = 0 → l.active = true → l.stop = pc s → ¬ (o.active = true ∧ o.stop = pc s) →
     ∃ t, exec (.add 0 0 0) s = .next t ∧ OnlyScalar s t ∧ SameRegs s t ∧ getLoop (scOf t t.cur) (1 - n) = o ∧
       (l.count.toNat ≤ 1 → pc t = pc s + 4 ∧ getLoop (scOf t t.cur) n = { l with count := 0, active := false }) ∧
       (1 < l.count.toNat → pc t = l.start ∧ getLoop (scOf t t.cur) n = { l with count := l.count - 1 }))

/-! ### Special registers -/

/-- R228, R126: MFSR of a slot reads each register's value; a SUP register needs slot 15 or TL2. fpmode, fpflags and ctl are
read with the sequencer empty (R59). The reserved bits of a segment register read as 0 (R110). -/
def Obligations.MfsrReadsTheSlotsRegisters : Prop :=
  ∀ (s : State) (d : BitVec 5) (k : Nat), s.cur = .slot k →
    let x := slotAt s k
    let c := coreOfSlot k
    let reads := fun (n : BitVec 16) (v : Word) => Writes (.mfsr d n) s d v
    reads 0x00 (w64 (k % 16)) ∧ reads 0x01 (w64 (if 2048 ≤ c then c - 2048 else c % 16)) ∧
    reads 0x02 (w64 (if 2048 ≤ c then 0 else c / 16)) ∧ reads 0x03 (w64 (if 2048 ≤ c then 4 else c / 512)) ∧
    (∀ p, partOfSlot s k = some p → reads 0x04 (w64 p)) ∧
    reads 0x05 (w64 (x.world % 4096)) ∧ reads 0x06 (w64 x.tr.tl) ∧
    reads 0x07 x.tr.tcause1 ∧ reads 0x08 x.tr.tepc1 ∧ reads 0x09 x.tr.tval1 ∧ reads 0x0D x.tr.thandler ∧
    (x.vec.seq = [] → reads 0x0E x.sc.fpmode ∧ reads 0x0F x.sc.fpflags ∧
      reads 0x10 (w64 (x.sc.fpmode.toNat / 2 ^ 8 % 2))) ∧
    reads 0x11 (w64 x.vec.vtype) ∧ (x.frames = [] → reads 0x12 (match x.vec.bank with | some b => if b < 4 then w64 b else 4 | none => 4)) ∧
    reads 0x13 (if x.ganged then 1 else 0) ∧
    (∀ j : Fin 8, reads (BitVec.ofNat 16 (0x14 + j)) ((x.vec.seeds[j]).setWidth 64)) ∧
    reads 0x1C (coreAt s c).vtime ∧
    (∀ p y, partOfSlot s k = some p → partAt s p = some y → reads 0x1D (w64 y.gvt)) ∧
    (∀ j : Fin 8, reads (BitVec.ofNat 16 (0x1E + j)) (x.task.mbx[j])) ∧
    reads 0x26 x.sc.lc0.count ∧ reads 0x27 x.sc.lc1.count ∧ reads 0x28 x.sc.uepc ∧ reads 0x29 x.sc.xferid ∧
    reads 0x2A (w64 ((if x.sc.uienAct then 2 else 0) + if x.sc.uienEn then 1 else 0)) ∧
    reads 0x2B (w64 x.frames.length) ∧
    reads 0x2C (match x.deadline with | none => w64 (2 ^ 63) | some t => w64 ((t - s.cycle) % 2 ^ 48)) ∧
    reads 0x2D x.task.taskid ∧
    (∀ j : Fin 3, reads (BitVec.ofNat 16 (0x2E + j)) ((x.task.tile[j]).setWidth 64)) ∧
    reads 0x31 (w64 (x.task.launch % 2 ^ 32)) ∧ reads 0x32 (w64 s.cycle) ∧
    (∀ j : Fin 8, ∀ e, lookup (coreAt s c).evcnt j = some e → reads (BitVec.ofNat 16 (0x33 + j)) (w64 e.value.toNat)) ∧
    reads 0x3D (if x.quoin then 1 else 0) ∧
    (∀ j : Fin 8, reads (BitVec.ofNat 16 (0x100 + j)) ((x.sc.g[j]).w0 &&& 0xFFFFFFFFFFFFFFF) ∧
      reads (BitVec.ofNat 16 (0x108 + j)) ((x.sc.g[j]).w1 &&& 0x3FFFFFFFFFFFFF)) ∧
    (k % 16 = 15 ∨ x.tr.tl = 2 →
      reads 0x0A x.tr.tcause2 ∧ reads 0x0B x.tr.tepc2 ∧ reads 0x0C x.tr.tval2 ∧ reads 0x3B x.lmbase ∧ reads 0x3C x.lmbound ∧
      reads 0x3E x.hspill ∧ reads 0x3F x.sgbase ∧
      reads 0x40 (w64 ((clusterAt s (c / 16)).sticky.toNat * 256 + liveFlags s (c / 16))) ∧
      (∀ p y, partOfSlot s k = some p → partAt s p = some y → reads 0x41 (w64 (y.pend % 2 ^ 32)))) ∧
    (k % 16 ≠ 15 → x.tr.tl ≠ 2 → ∀ n : BitVec 16, n.toNat ∈ [0x0A, 0x0B, 0x0C, 0x3B, 0x3C, 0x3E, 0x3F, 0x40, 0x41] →
      Traps (.mfsr d n) s 0x02 (s.word.setWidth 64))

/-- R228, R229: MTSR of a register that a slot may write changes that register alone, its reserved bits dropped; a write of an
RO register does nothing; vtime only rises; faultq drops records from the head; a 1 written to a flag of clflags clears it, unless the flag is
raised in that clock (R61).
R111, R126: a write of segbK goes to the staging word; a write of seglK loads the whole of gK at slot 15 and TL2, below
them only when it narrows, and else traps with 0x04 and K, with gK and the staging word unchanged. That the reserved bits of gK are not
written is the model's reading of R9 (log entry 64). -/
def Obligations.MtsrWritesOneRegisterOrSegment : Prop :=
  (∀ (s : State) (a : BitVec 5) (k : Nat), s.cur = .slot k →
     let v := rd s a
     let x := slotAt s k
     let c := coreOfSlot k
     let does := fun (n : BitVec 16) (u : State) => Does (.mtsr a n) s u
     let sets := fun (n : BitVec 16) (y : SlotSt) => does n (setSlot s k y)
     sets 0x07 { x with tr := { x.tr with tcause1 := v &&& 0x3FFF } } ∧ sets 0x08 { x with tr := { x.tr with tepc1 := v } } ∧
     sets 0x09 { x with tr := { x.tr with tval1 := v } } ∧ sets 0x0D { x with tr := { x.tr with thandler := v } } ∧
     (x.vec.seq = [] → sets 0x0E { x with sc := { x.sc with fpmode := v &&& 0x17F } } ∧
       sets 0x0F { x with sc := { x.sc with fpflags := v &&& 0x1F } } ∧
       ∃ m : Word, sets 0x10 { x with sc := { x.sc with fpmode := m } } ∧
         ∀ i < 64, m.getLsbD i = if i = 8 then v.getLsbD 0 else x.sc.fpmode.getLsbD i) ∧
     (∀ j : Fin 8, sets (BitVec.ofNat 16 (0x14 + j)) { x with vec := { x.vec with seeds := x.vec.seeds.set j (v.setWidth 32) } }) ∧
     sets 0x26 { x with sc := { x.sc with lc0 := { x.sc.lc0 with count := v } } } ∧
     sets 0x27 { x with sc := { x.sc with lc1 := { x.sc.lc1 with count := v } } } ∧
     sets 0x28 { x with sc := { x.sc with uepc := v } } ∧ sets 0x2A { x with sc := { x.sc with uienEn := v.getLsbD 0 } } ∧
     does 0x1C (setCore s c { coreAt s c with vtime := if (coreAt s c).vtime.toNat ≤ v.toNat then v else (coreAt s c).vtime }) ∧
     (∀ j : Fin 8, does (BitVec.ofNat 16 (0x33 + j)) (setCore s c { coreAt s c with
       evcnt := insert (coreAt s c).evcnt j { lookupD (coreAt s c).evcnt j EvCounter.reset with value := v.setWidth 48 } })) ∧
     (∀ n : BitVec 16, n.toNat ∈ [0, 1, 2, 3, 4, 5, 6, 0x11, 0x12, 0x13, 0x1D, 0x1E, 0x1F, 0x20, 0x21, 0x22, 0x23, 0x24, 0x25,
       0x29, 0x2B, 0x2C, 0x2D, 0x2E, 0x2F, 0x30, 0x31, 0x32, 0x3D] → sets n x) ∧
     (k % 16 = 15 ∨ x.tr.tl = 2 →
       sets 0x0A { x with tr := { x.tr with tcause2 := v &&& 0x3FFF } } ∧ sets 0x0B { x with tr := { x.tr with tepc2 := v } } ∧
       sets 0x0C { x with tr := { x.tr with tval2 := v } } ∧
       sets 0x3B (if x.quoin then x else { x with lmbase := v &&& 0xFF00 }) ∧
       sets 0x3C (if x.quoin then x else { x with lmbound := v &&& 0xFF00 }) ∧
       sets 0x3E { x with hspill := v &&& 0x1FFFFFFFFFFFFFF } ∧ sets 0x3F { x with sgbase := v &&& 0xFFFF } ∧
       (let y := clusterAt s (c / 16)
        let kept := if y.raisedAt = s.cycle then y.raised &&& y.sticky else 0
        does 0x40 (setCluster s (c / 16) { y with sticky := (y.sticky &&& ~~~((v >>> 8).setWidth 5)) ||| kept })) ∧
       (∀ p y, partOfSlot s k = some p → partAt s p = some y → does 0x41 (setPart s p { y with pend := y.pend - v.toNat % 2 ^ 32 }))) ∧
     (k % 16 ≠ 15 → x.tr.tl ≠ 2 → ∀ n : BitVec 16, n.toNat ∈ [0x0A, 0x0B, 0x0C, 0x3B, 0x3C, 0x3E, 0x3F, 0x40, 0x41] →
       Traps (.mtsr a n) s 0x02 (s.word.setWidth 64))) ∧
  (∀ (s : State) (a : BitVec 5) (k : Nat) (j : BitVec 3), s.cur = .slot k →
     let v := rd s a
     let x := slotAt s k
     let old := x.sc.g[j.toNat]'(j.isLt)
     let new : Seg := { w0 := x.sc.staging &&& 0xFFFFFFFFFFFFFFF, w1 := v &&& 0x3FFFFFFFFFFFFF }
     let narrows := new.kind = old.kind ∧ new.rights &&& old.rights = new.rights ∧ old.base ≤ new.base ∧
       new.base + new.limit ≤ old.base + old.limit ∧ old.w1.getLsbD 53 = false ∧ new.w1.getLsbD 53 = false
     Does (.mtsr a (0x100 + j.setWidth 16)) s (setSlot s k { x with sc := { x.sc with staging := v } }) ∧
     (k % 16 = 15 ∨ x.tr.tl = 2 ∨ narrows → Does (.mtsr a (0x108 + j.setWidth 16)) s
       (setSlot s k { x with sc := { x.sc with g := x.sc.g.set j.toNat new j.isLt } })) ∧
     (¬ (k % 16 = 15 ∨ x.tr.tl = 2 ∨ narrows) → Traps (.mtsr a (0x108 + j.setWidth 16)) s 0x04 (w64 j.toNat)))

/-- R106, R228, R229: an application core reads its identity and its own registers, and writes those that may be written; every other number of
R228 reads 0, and MTSR of it is ignored; its segment writes are not limited. -/
def Obligations.ApplicationCoreSpecialRegisters : Prop :=
  ∀ (s : State) (d a : BitVec 5) (m : Nat) (j : BitVec 3), s.cur = .app m →
    let v := rd s a
    let x := appAt s m
    let reads := fun (n : BitVec 16) (v : Word) => Writes (.mfsr d n) s d v
    let sets := fun (n : BitVec 16) (y : AppSt) => Does (.mtsr a n) s (setApp s m y)
    reads 0x00 (BitVec.allOnes 64) ∧ reads 0x02 (BitVec.allOnes 64) ∧ reads 0x04 (BitVec.allOnes 64) ∧
    reads 0x05 (BitVec.allOnes 64) ∧ reads 0x01 (w64 (16 + m % 8)) ∧ reads 0x03 (w64 (m / 8)) ∧ reads 0x06 (w64 x.tr.tl) ∧
    reads 0x07 x.tr.tcause1 ∧ reads 0x08 x.tr.tepc1 ∧ reads 0x09 x.tr.tval1 ∧ reads 0x0D x.tr.thandler ∧
    reads 0x0E x.sc.fpmode ∧ reads 0x0F x.sc.fpflags ∧ reads 0x10 (w64 (x.sc.fpmode.toNat / 2 ^ 8 % 2)) ∧
    reads 0x26 x.sc.lc0.count ∧ reads 0x27 x.sc.lc1.count ∧
    reads 0x2A (w64 ((if x.sc.uienAct then 2 else 0) + if x.sc.uienEn then 1 else 0)) ∧ reads 0x32 (w64 s.cycle) ∧
    (∀ n : BitVec 16, n.toNat ≤ 0x41 →
      n.toNat ∉ [0, 1, 2, 3, 4, 5, 6, 7, 8, 9, 0x0D, 0x0E, 0x0F, 0x10, 0x26, 0x27, 0x2A, 0x32] → reads n 0 ∧ sets n x) ∧
    (∀ n : BitVec 16, n.toNat ∈ [0, 1, 2, 3, 4, 5, 6, 0x32] → sets n x) ∧
    reads (0x100 + j.setWidth 16) ((x.sc.g[j.toNat]'(j.isLt)).w0 &&& 0xFFFFFFFFFFFFFFF) ∧
    reads (0x108 + j.setWidth 16) ((x.sc.g[j.toNat]'(j.isLt)).w1 &&& 0x3FFFFFFFFFFFFF) ∧
    sets 0x07 { x with tr := { x.tr with tcause1 := v &&& 0x3FFF } } ∧ sets 0x08 { x with tr := { x.tr with tepc1 := v } } ∧
    sets 0x09 { x with tr := { x.tr with tval1 := v } } ∧ sets 0x0D { x with tr := { x.tr with thandler := v } } ∧
    sets 0x0E { x with sc := { x.sc with fpmode := v &&& 0x17F } } ∧ sets 0x0F { x with sc := { x.sc with fpflags := v &&& 0x1F } } ∧
    (∃ m : Word, sets 0x10 { x with sc := { x.sc with fpmode := m } } ∧
      ∀ i < 64, m.getLsbD i = if i = 8 then v.getLsbD 0 else x.sc.fpmode.getLsbD i) ∧
    sets 0x26 { x with sc := { x.sc with lc0 := { x.sc.lc0 with count := v } } } ∧
    sets 0x27 { x with sc := { x.sc with lc1 := { x.sc.lc1 with count := v } } } ∧
    sets 0x2A { x with sc := { x.sc with uienEn := v.getLsbD 0 } } ∧
    sets (0x100 + j.setWidth 16) { x with sc := { x.sc with staging := v } } ∧
    sets (0x108 + j.setWidth 16) (let new : Seg := { w0 := x.sc.staging &&& 0xFFFFFFFFFFFFFFF, w1 := v &&& 0x3FFFFFFFFFFFFF }
      { x with sc := { x.sc with g := x.sc.g.set j.toNat new j.isLt } })

/-! ### Loads, stores, atomics, fences -/

/-- R132, R134: a load and an LDO from local memory write s[d] with the extended bytes and nothing else changes; a store and an STO
put the low bytes of s[d] at their address, and no other byte changes. -/
def Obligations.LocalLoadsAndStoresComplete : Prop :=
  ∀ (s : State) (k : Nat) (d a : BitVec 5) (g : BitVec 3) (h : BitVec 2) (o : BitVec 11) (p w : BitVec 2) (c : BitVec 3),
    let loads := fun (i : Instr) (disp : Int) (n : Nat) (ext : Nat → Word) =>
      LocalAccess s k g (rd s a) disp n 1 → Quiet s k →
      Writes i s d (ext (leNat (localBytes s k (cvaOf s g (rd s a) disp) n)))
    loads (.ldb d a g h o) o.toInt 1 (fun m => (BitVec.ofNat 8 m).signExtend 64) ∧
    loads (.ldbn d a g h o) o.toInt 1 (BitVec.ofNat 64) ∧
    loads (.ldh d a g h o) (o.toInt * 2) 2 (fun m => (BitVec.ofNat 16 m).signExtend 64) ∧
    loads (.ldhn d a g h o) (o.toInt * 2) 2 (BitVec.ofNat 64) ∧
    loads (.ldw d a g h o) (o.toInt * 4) 4 (fun m => (BitVec.ofNat 32 m).signExtend 64) ∧
    loads (.ldwn d a g h o) (o.toInt * 4) 4 (BitVec.ofNat 64) ∧
    loads (.ldd d a g h o) (o.toInt * 8) 8 (BitVec.ofNat 64) ∧
    loads (.ldo d a g p c w) 0 (2 ^ w.toNat) (BitVec.ofNat 64) ∧
    let stores := fun (i : Instr) (disp : Int) (n : Nat) =>
      MemoryOk s → LocalAccess s k g (rd s a) disp n 2 → Quiet s k →
      ∃ t, exec i s = .next t ∧ Stored s t k (cvaOf s g (rd s a) disp) (leBytes n (rd s d).toNat) 0 0
    stores (.stb d a g h o) o.toInt 1 ∧ stores (.sth d a g h o) (o.toInt * 2) 2 ∧
    stores (.stw d a g h o) (o.toInt * 4) 4 ∧ stores (.std d a g h o) (o.toInt * 8) 8 ∧
    stores (.sto d a g p c w) 0 (2 ^ w.toNat)

/-- R135: an atomic on local memory returns the old value in s[d] and leaves the new one in memory; a compare that fails
writes nothing. -/
def Obligations.LocalAtomicsComplete : Prop :=
  ∀ (s : State) (k : Nat) (d a b : BitVec 5) (g : BitVec 3) (p : BitVec 2) (c : BitVec 3),
    let free := fun (n : Nat) => ∀ e ∈ s.transit, ∀ j < n, flatLocal (coreOfSlot k) (cvaOf s g (rd s a) 0 + j) ∉ e.addrs
    let wide := fun (i : Instr) (f : Word → Word → Word) =>
      MemoryOk s → LocalAccess s k g (rd s a) 0 8 11 → Quiet s k → free 8 →
      let old := BitVec.ofNat 64 (leNat (localBytes s k (cvaOf s g (rd s a) 0) 8))
      ∃ t, exec i s = .next t ∧ Stored s t k (cvaOf s g (rd s a) 0) (leBytes 8 (f old (rd s b)).toNat) d old
    let half := fun (i : Instr) (f : BitVec 32 → BitVec 32 → BitVec 32) =>
      MemoryOk s → LocalAccess s k g (rd s a) 0 4 11 → Quiet s k → free 4 →
      let old := BitVec.ofNat 32 (leNat (localBytes s k (cvaOf s g (rd s a) 0) 4))
      ∃ t, exec i s = .next t ∧
        Stored s t k (cvaOf s g (rd s a) 0) (leBytes 4 (f old ((rd s b).setWidth 32)).toNat) d (old.signExtend 64)
    wide (.amoadd d a b g p c) (· + ·) ∧ wide (.amoand d a b g p c) (· &&& ·) ∧ wide (.amoor d a b g p c) (· ||| ·) ∧
    wide (.amoxor d a b g p c) (· ^^^ ·) ∧ wide (.amomin d a b g p c) (fun x y => if x.toInt ≤ y.toInt then x else y) ∧
    wide (.amomax d a b g p c) (fun x y => if x.toInt ≤ y.toInt then y else x) ∧ wide (.amoswp d a b g p c) (fun _ y => y) ∧
    wide (.amocas d a b g p c) (fun x y => if x = rd s d then y else x) ∧
    half (.amowadd d a b g p c) (· + ·) ∧ half (.amowand d a b g p c) (· &&& ·) ∧ half (.amowor d a b g p c) (· ||| ·) ∧
    half (.amowxor d a b g p c) (· ^^^ ·) ∧ half (.amowmin d a b g p c) (fun x y => if x.toInt ≤ y.toInt then x else y) ∧
    half (.amowmax d a b g p c) (fun x y => if x.toInt ≤ y.toInt then y else x) ∧
    half (.amowswp d a b g p c) (fun _ y => y) ∧
    half (.amowcas d a b g p c) (fun x y => if x = (rd s d).setWidth 32 then y else x)

/-- R109, R112, R114, R138: the first condition of a scalar access that fails decides its trap: a bad pointer 0x05, a void
segment or a missing right 0x04, the range 0x03, the alignment 0x06.
R48, R46: a local-memory access of a user slot outside its window, or at 0xB000 or above, traps with 0x03 and its address. -/
def Obligations.ScalarAccessesTrapInOrderAndAtTheirWindow : Prop :=
  (∀ (s : State) (d a b : BitVec 5) (g : BitVec 3) (h : BitVec 2) (o : BitVec 11) (p w : BitVec 2) (c : BitVec 3) (i : Instr)
     (disp : Int) (n need : Nat),
     ((i = .ldb d a g h o ∧ disp = o.toInt ∧ n = 1 ∧ need = 1) ∨ (i = .ldbn d a g h o ∧ disp = o.toInt ∧ n = 1 ∧ need = 1) ∨
      (i = .ldh d a g h o ∧ disp = o.toInt * 2 ∧ n = 2 ∧ need = 1) ∨
      (i = .ldhn d a g h o ∧ disp = o.toInt * 2 ∧ n = 2 ∧ need = 1) ∨
      (i = .ldw d a g h o ∧ disp = o.toInt * 4 ∧ n = 4 ∧ need = 1) ∨
      (i = .ldwn d a g h o ∧ disp = o.toInt * 4 ∧ n = 4 ∧ need = 1) ∨
      (i = .ldd d a g h o ∧ disp = o.toInt * 8 ∧ n = 8 ∧ need = 1) ∨
      (i = .stb d a g h o ∧ disp = o.toInt ∧ n = 1 ∧ need = 2) ∨
      (i = .sth d a g h o ∧ disp = o.toInt * 2 ∧ n = 2 ∧ need = 2) ∨
      (i = .stw d a g h o ∧ disp = o.toInt * 4 ∧ n = 4 ∧ need = 2) ∨
      (i = .std d a g h o ∧ disp = o.toInt * 8 ∧ n = 8 ∧ need = 2) ∨
      (i = .ldo d a g p c w ∧ disp = 0 ∧ n = 2 ^ w.toNat ∧ need = 1) ∨
      (i = .sto d a g p c w ∧ disp = 0 ∧ n = 2 ^ w.toNat ∧ need = 2) ∨
      ((i = .amoadd d a b g p c ∨ i = .amoand d a b g p c ∨ i = .amoor d a b g p c ∨ i = .amoxor d a b g p c ∨
        i = .amomin d a b g p c ∨ i = .amomax d a b g p c ∨ i = .amoswp d a b g p c ∨ i = .amocas d a b g p c) ∧
       disp = 0 ∧ n = 8 ∧ need = 11) ∨
      ((i = .amowadd d a b g p c ∨ i = .amowand d a b g p c ∨ i = .amowor d a b g p c ∨ i = .amowxor d a b g p c ∨
        i = .amowmin d a b g p c ∨ i = .amowmax d a b g p c ∨ i = .amowswp d a b g p c ∨ i = .amowcas d a b g p c) ∧
       disp = 0 ∧ n = 4 ∧ need = 11)) →
     let q := rd s a
     let off := offsetOf q disp
     (¬ PointerOk q → Traps i s 0x05 q) ∧
     (PointerOk q → ¬ SegmentOk s g need → Traps i s 0x04 (BitVec.ofInt 64 off)) ∧
     (PointerOk q → SegmentOk s g need → ¬ InRange s g q disp n → Traps i s 0x03 (BitVec.ofInt 64 off)) ∧
     (PointerOk q → SegmentOk s g need → InRange s g q disp n → cvaOf s g q disp % n ≠ 0 →
       Traps i s 0x06 (w64 (cvaOf s g q disp)))) ∧
  (∀ (s : State) (k : Nat) (d a b : BitVec 5) (g : BitVec 3) (h : BitVec 2) (o : BitVec 11) (p w : BitVec 2) (c : BitVec 3),
     let q := rd s a
     let x := slotAt s k
     let out := fun (disp : Int) (n : Nat) => let c := cvaOf s g q disp
       c < winBase x ∨ winBase x + winLen x < c + n ∨ 0xB000 < c + n
     let traps := fun (i : Instr) (disp : Int) (n need : Nat) =>
       s.cur = .slot k → k % 16 ≠ 15 → PointerOk q → SegmentOk s g need → (segOf s s.cur g).w0.toNat / 2 ^ 57 = 2 →
       InRange s g q disp n → cvaOf s g q disp % n = 0 → out disp n → Traps i s 0x03 (w64 (cvaOf s g q disp))
     traps (.ldb d a g h o) o.toInt 1 1 ∧ traps (.ldbn d a g h o) o.toInt 1 1 ∧ traps (.ldh d a g h o) (o.toInt * 2) 2 1 ∧
     traps (.ldhn d a g h o) (o.toInt * 2) 2 1 ∧ traps (.ldw d a g h o) (o.toInt * 4) 4 1 ∧
     traps (.ldwn d a g h o) (o.toInt * 4) 4 1 ∧ traps (.ldd d a g h o) (o.toInt * 8) 8 1 ∧
     traps (.stb d a g h o) o.toInt 1 2 ∧ traps (.sth d a g h o) (o.toInt * 2) 2 2 ∧ traps (.stw d a g h o) (o.toInt * 4) 4 2 ∧
     traps (.std d a g h o) (o.toInt * 8) 8 2 ∧
     traps (.ldo d a g p c w) 0 (2 ^ w.toNat) 1 ∧ traps (.sto d a g p c w) 0 (2 ^ w.toNat) 2 ∧
     (∀ i ∈ [Instr.amoadd d a b g p c, .amoand d a b g p c, .amoor d a b g p c, .amoxor d a b g p c, .amomin d a b g p c,
       .amomax d a b g p c, .amoswp d a b g p c, .amocas d a b g p c], traps i 0 8 11) ∧
     ∀ i ∈ [Instr.amowadd d a b g p c, .amowand d a b g p c, .amowor d a b g p c, .amowxor d a b g p c, .amowmin d a b g p c,
       .amowmax d a b g p c, .amowswp d a b g p c, .amowcas d a b g p c], traps i 0 4 11)

/-- R133: a load from a place that neither local memory nor the L1D serves parks with reason 0 behind a read event; the event
binds to the bytes that its thread then sees (R249). R133, R134, R135, R137: the reply to a parked load, LDO or atomic writes s[d]
with the value bound, and the slot goes on; a parked store or fence goes on once its event has left the issue queue, and a park that
waits for a status writes it. -/
def Obligations.OtherLoadsParkUntilTheirReply : Prop :=
  (∀ (s s1 : State) (pl : Place) (d a : BitVec 5) (g : BitVec 3) (h : BitVec 2) (o : BitVec 11),
    let parks := fun (i : Instr) (n : Nat) (signed : Bool) =>
      onePlace (access s g (rd s a) (o.toInt * n) n n rR 0) = .ok (s1, pl) → s1.cur = s.cur →
      servedAtOnce s1 (hinted pl h) = false → (∀ e ∈ s1.iq, e.thread ≠ threadOf s.cur) →
      ∃ t e, exec i s = .next t ∧ t.iq = s1.iq ++ [e] ∧ e.id = s1.nextId ∧ e.thread = threadOf s.cur ∧ e.kind = .read ∧
        e.addrs = pl.addrs ∧ e.order = .relaxed ∧ e.scope = .thread ∧ e.space = pl.ty ∧ e.dom = pl.dom ∧
        parkOfAg t s.cur = some { reason := .memory, abandon := false, cont := .load d n signed s1.nextId } ∧
        scOf t s.cur = scOf s1 s.cur ∧ SameBytes s1 t
    parks (.ldb d a g h o) 1 true ∧ parks (.ldbn d a g h o) 1 false ∧ parks (.ldh d a g h o) 2 true ∧
    parks (.ldhn d a g h o) 2 false ∧ parks (.ldw d a g h o) 4 true ∧ parks (.ldwn d a g h o) 4 false ∧
    parks (.ldd d a g h o) 8 false) ∧
  ∀ (s : State) (k id : Nat) (d : BitVec 5) (n : Nat) (signed : Bool) (e : MemEv), k < 2 ^ 20 → s.cur = .slot k → NotHeld s k →
    let done := fun (d : BitVec 5) (v : Word) => ∃ t, exec (.memoryReply k) s = .next t ∧ RegIs s t d v ∧ GoneOn s t ∧
      SameBytes s t ∧ (slotAt t k).state = .ready ∧ (slotAt t k).park = none
    let parked := fun (c : Cont) => (slotAt s k).park = some { reason := .memory, abandon := false, cont := c }
    (evIn s.bound id = some e → e.poisoned = false →
      (parked (.load d n signed id) → done d (if signed then ofInt (sx (leNat e.data) (8 * n)) else w64 (leNat e.data))) ∧
      (parked (.atomic d true id) → done d (w64 (leNat e.data))) ∧
      (parked (.atomic d false id) → done d (ofInt (sx (leNat e.data) 32)))) ∧
    (evIn s.iq id = none → (parked (.store id) → done 0 0) ∧ (parked (.fence id) → done 0 0)) ∧
    ∀ v, parked (.reply d v) → done d v

/-- R249: a read event binds when its conditions hold, to the bytes that its thread sees, and no byte of memory changes. The events of a
saved context wait until it is restored (R231, R319).
R247, R248: Accept moves a thread's earliest write to the first point of its path; Advance moves a write that has one point
left to its home, whose bytes then hold its data.
R250: an atomic step reads the old bytes at the home and writes the new value there, in one step. No write but the device's own reaches the
metadata region (log entry 2). -/
def Obligations.MemoryEventsBindMoveAndUpdate : Prop :=
  (∀ (s : State) (e : MemEv), e.thread < 2 ^ 80 → evIn s.iq e.id = some e → e.kind = .read → e.footprint = none →
     bindOk s e = true → linkDown s e = false →
     ∃ t, exec (.bind e.id) s = .next t ∧ SameBytes s t ∧ (∀ x ∈ t.iq, x.id ≠ e.id) ∧
       ({ e with data := threadBytes s e.thread e.space e.addrs,
                 poisoned := e.poisoned || !(e.addrs.all (lineOpens s e.dom)) } : MemEv) ∈ t.bound) ∧
  (∀ (s : State) (e : MemEv),
     (e.thread < 2 ^ 80 → nextWrite s e.thread = some e → acceptOk s e = true → e.path ≠ [] →
       ∃ t w, exec (.accept e.thread) s = .next t ∧ SameBytes s t ∧ w ∈ t.transit ∧ w.id = e.id ∧ w.addrs = e.addrs ∧
         w.data = e.data ∧ w.path = e.path ∧ ∀ x ∈ t.iq, x.id ≠ e.id) ∧
     (MemoryOk s → evIn s.transit e.id = some e → advanceOk s e = true → linkDown s e = false → e.path.length = 1 →
       e.addrs.Nodup → e.data.length = e.addrs.length → (∀ a ∈ e.addrs, isWindow a = false ∧ isMetadata a = false) →
       ∃ t, exec (.advance e.id) s = .next t ∧ (∀ x ∈ t.transit, x.id ≠ e.id) ∧
         ∀ a, memRead t.mem a = (evByte e a).getD (memRead s.mem a))) ∧
  (∀ (s : State) (e : MemEv) (op : AmoOp) (b x : Nat), e.thread < 2 ^ 80 → evIn s.iq e.id = some e → e.kind = .atomic op b x →
     atomicOk s e = true → linkDown s e = false → e.addrs.all (lineOpens s e.dom) = true → MemoryOk s → e.addrs.Nodup →
     (∀ a ∈ e.addrs, isWindow a = false ∧ isMetadata a = false) →
     let old := e.addrs.map (memRead s.mem)
     let new := (amoNew op (8 * e.addrs.length) (leNat old) b x).map (leBytes e.addrs.length)
     ∃ t, exec (.atomicStep e.id) s = .next t ∧ (∀ y ∈ t.iq, y.id ≠ e.id) ∧
       (∃ y ∈ t.bound, y.id = e.id ∧ y.data = old ∧ y.poisoned = false) ∧
       ∀ a, memRead t.mem a = match new with
         | some l => (((e.addrs.zip l).find? fun q => q.1 == a).map (·.2)).getD (memRead s.mem a)
         | none => memRead s.mem a)

/-- R247 to R250: the conditions of Accept, Bind, Advance and the atomic step, in the words of the rules; while one of them fails, the step
does nothing. A write of which the bytes are not yet there is not accepted.
R249: each byte takes its value from the youngest write at the first point of the path, short of the home, that holds one, else from the home.
R251, R137: an acquire fence goes on when no earlier read or atomic of its slot is pending, another when every earlier event is performed at
its scope; else it parks with reason 0 behind a fence event, which a later step performs, and the reply lets the slot go on. -/
def Obligations.OrderingStepsWaitForTheirConditions : Prop :=
  (∀ (s : State) (e : MemEv),
    let near := e.space = .lm ∨ e.space = .sp
    let accepts := (∀ x, Before s e x → ¬ WritesMem x ∧ ¬ Blocks x ∧ (ReadsMem x → ¬ Shares x e ∧ ¬ near)) ∧
      (e.order = .release ∨ e.order = .acqRel → (∀ x, ¬ Before s e x) ∧ ∀ x, SentBefore s e x → PerformedAt e.scope x)
    let binds := ∀ x, Before s e x → ¬ Blocks x ∧ (WritesMem x ∨ ReadsMem x → ¬ Shares x e ∧ ¬ near) ∧
      (ReadsMem x → x.raw = true → e.raw = true → ∀ p a b l m, x.footprint = some (p, a :: l) → e.footprint = some (p, b :: m) →
        (footprintAt s p a).map (·.1) ≠ (footprintAt s p b).map (·.1))
    (acceptOk s e = true ↔ e.data.length = e.addrs.length ∧ accepts) ∧ (bindOk s e = true ↔ binds) ∧
    (atomicOk s e = true ↔ accepts ∧ binds ∧ ∀ x ∈ s.transit, ¬ Shares x e) ∧
    (∀ pre post, s.transit = pre ++ e :: post → (∀ x ∈ pre, x.id ≠ e.id) →
      (advanceOk s e = true ↔ ∀ x ∈ pre, x.path.head? = e.path.head? → ¬ Shares x e)) ∧
    (nextWrite s e.thread = some e → acceptOk s e = false → exec (.accept e.thread) s = .next s) ∧
    (evIn s.iq e.id = some e → e.kind = .read → e.footprint = none → bindOk s e = false → exec (.bind e.id) s = .next s) ∧
    (evIn s.transit e.id = some e → advanceOk s e = false → exec (.advance e.id) s = .next s) ∧
    (evIn s.iq e.id = some e → atomicOk s e = false → exec (.atomicStep e.id) s = .next s)) ∧
  (∀ (s : State) (k a : Nat) (ty : Space), k < 2 ^ 15 → (∀ e ∈ s.transit, e.data.length = e.addrs.length) →
    let core := coreOfSlot k
    let pa := Point.partition ((partOfCore s core).getD 64)
    let points : List Point := match ty with
      | .lm => []
      | .sp => [.coreBuffer core]
      | .dm => [.coreBuffer core, .cluster (core / 16)]
      | .pm | .hm => [.coreBuffer core, .cluster (core / 16), pa]
    let youngest := fun (p : Point) => (s.transit.filter fun e => e.path.head? == some p && e.addrs.contains a).getLast?
    threadBytes s k ty [a] = [match points.findSome? youngest with
      | some e => e.data.getD (e.addrs.idxOf a) 0
      | none => homeByte s k a] ∧
    (isWindow a = false → isMetadata a = false → homeByte s k a = memRead s.mem a)) ∧
  (∀ (s : State) (p : BitVec 2) (c : BitVec 3), p ≠ 0 → (∀ e ∈ s.iq, e.thread ≠ threadOf s.cur) →
    let holds := p = 1 ∨ ∀ x ∈ s.transit, x.thread = threadOf s.cur → x.id < s.nextId → PerformedAt (scopeOf c) x
    (holds → Does (.fence p c) s { s with nextId := s.nextId + 1 }) ∧
    (¬ holds → ∃ t e, exec (.fence p c) s = .next t ∧ t.iq = s.iq ++ [e] ∧ e.id = s.nextId ∧
      e.kind = .fence ∧ e.thread = threadOf s.cur ∧ e.order = Machine.orderOf p ∧ e.scope = scopeOf c ∧
      parkOfAg t s.cur = some { reason := .memory, abandon := false, cont := .fence s.nextId } ∧ SameBytes s t)) ∧
  ∀ (s : State) (f : MemEv), f.thread < 2 ^ 80 → (s.iq.find? fun e => e.thread == f.thread && e.kind.isFence) = some f →
    let holds := (f.order = .acquire ∧ ∀ x, Before s f x → ¬ ReadsMem x) ∨
      (f.order ≠ .acquire ∧ (∀ x, ¬ Before s f x) ∧ ∀ x, SentBefore s f x → PerformedAt f.scope x)
    (holds → ∃ t, exec (.fenceStep f.thread) s = .next t ∧ SameBytes s t ∧ ∀ x ∈ t.iq, x.id ≠ f.id) ∧
    (¬ holds → exec (.fenceStep f.thread) s = .next s)

/-! ### The vector instructions that compute in the bank -/

/-- R147, R139: the hand-off and the lanes of the integer instructions of the three classes. -/
def Obligations.IntegerVectorsWriteTheirRow : Prop :=
  ∀ (s : State) (k : Nat) (d a b : BitVec 6) (p m : BitVec 3),
    let row := fun (i : Instr) (w : Nat) (op : BitVec w → BitVec w → BitVec w) =>
      laneRow s k i w d a b m (fun x y _ => op x y) (fun _ _ _ => 0)
    let sat := fun (i : Instr) (w : Nat) (op : Int → Int → Int) =>
      let top : Int := 2 ^ (w - 1) - 1
      laneRow s k i w d a b m (fun x y _ => BitVec.ofInt w (max (-(2 ^ (w - 1))) (min top (op x.toInt y.toInt))))
        (fun x y _ => if op x.toInt y.toInt < -(2 ^ (w - 1)) ∨ top < op x.toInt y.toInt then fOF else 0)
    let cmp := fun (i : Instr) (w : Nat) (op : BitVec w → BitVec w → Bool) => compareRow s k i w p a b m op
    row (.vaddI32 d a b m) 32 (fun x y => x + y) ∧
    row (.vsubI32 d a b m) 32 (fun x y => x - y) ∧
    row (.vmulI32 d a b m) 32 (fun x y => x * y) ∧
    row (.vmulhI32 d a b m) 32 (fun x y => BitVec.ofInt 32 (x.toInt * y.toInt / 2 ^ 32)) ∧
    row (.vminI32 d a b m) 32 (fun x y => if x.toInt ≤ y.toInt then x else y) ∧
    row (.vmaxI32 d a b m) 32 (fun x y => if x.toInt ≤ y.toInt then y else x) ∧
    row (.vminnI32 d a b m) 32 (fun x y => if x.toNat ≤ y.toNat then x else y) ∧
    row (.vmaxnI32 d a b m) 32 (fun x y => if x.toNat ≤ y.toNat then y else x) ∧
    row (.vandI32 d a b m) 32 (fun x y => x &&& y) ∧
    row (.vorI32 d a b m) 32 (fun x y => x ||| y) ∧
    row (.vxorI32 d a b m) 32 (fun x y => x ^^^ y) ∧
    row (.vshlI32 d a b m) 32 (fun x y => x <<< (y.toNat % 64)) ∧
    row (.vshrI32 d a b m) 32 (fun x y => x >>> (y.toNat % 64)) ∧
    row (.vsarI32 d a b m) 32 (fun x y => x.sshiftRight (y.toNat % 64)) ∧
    sat (.vaddsI32 d a b m) 32 (fun x y => x + y) ∧
    sat (.vsubsI32 d a b m) 32 (fun x y => x - y) ∧
    cmp (.vcmpeqI32 p a b m) 32 (fun x y => x == y) ∧
    cmp (.vcmpltI32 p a b m) 32 (fun x y => decide (x.toInt < y.toInt)) ∧
    cmp (.vcmpltnI32 p a b m) 32 (fun x y => decide (x.toNat < y.toNat)) ∧
    selectRow s k (.vselI32 d a b m) 32 d a b m ∧
    row (.vaddI16 d a b m) 16 (fun x y => x + y) ∧
    row (.vsubI16 d a b m) 16 (fun x y => x - y) ∧
    row (.vmulI16 d a b m) 16 (fun x y => x * y) ∧
    row (.vmulhI16 d a b m) 16 (fun x y => BitVec.ofInt 16 (x.toInt * y.toInt / 2 ^ 16)) ∧
    row (.vminI16 d a b m) 16 (fun x y => if x.toInt ≤ y.toInt then x else y) ∧
    row (.vmaxI16 d a b m) 16 (fun x y => if x.toInt ≤ y.toInt then y else x) ∧
    row (.vminnI16 d a b m) 16 (fun x y => if x.toNat ≤ y.toNat then x else y) ∧
    row (.vmaxnI16 d a b m) 16 (fun x y => if x.toNat ≤ y.toNat then y else x) ∧
    row (.vandI16 d a b m) 16 (fun x y => x &&& y) ∧
    row (.vorI16 d a b m) 16 (fun x y => x ||| y) ∧
    row (.vxorI16 d a b m) 16 (fun x y => x ^^^ y) ∧
    row (.vshlI16 d a b m) 16 (fun x y => x <<< (y.toNat % 64)) ∧
    row (.vshrI16 d a b m) 16 (fun x y => x >>> (y.toNat % 64)) ∧
    row (.vsarI16 d a b m) 16 (fun x y => x.sshiftRight (y.toNat % 64)) ∧
    sat (.vaddsI16 d a b m) 16 (fun x y => x + y) ∧
    sat (.vsubsI16 d a b m) 16 (fun x y => x - y) ∧
    cmp (.vcmpeqI16 p a b m) 16 (fun x y => x == y) ∧
    cmp (.vcmpltI16 p a b m) 16 (fun x y => decide (x.toInt < y.toInt)) ∧
    cmp (.vcmpltnI16 p a b m) 16 (fun x y => decide (x.toNat < y.toNat)) ∧
    selectRow s k (.vselI16 d a b m) 16 d a b m ∧
    row (.vaddI8 d a b m) 8 (fun x y => x + y) ∧
    row (.vsubI8 d a b m) 8 (fun x y => x - y) ∧
    row (.vmulI8 d a b m) 8 (fun x y => x * y) ∧
    row (.vmulhI8 d a b m) 8 (fun x y => BitVec.ofInt 8 (x.toInt * y.toInt / 2 ^ 8)) ∧
    row (.vminI8 d a b m) 8 (fun x y => if x.toInt ≤ y.toInt then x else y) ∧
    row (.vmaxI8 d a b m) 8 (fun x y => if x.toInt ≤ y.toInt then y else x) ∧
    row (.vminnI8 d a b m) 8 (fun x y => if x.toNat ≤ y.toNat then x else y) ∧
    row (.vmaxnI8 d a b m) 8 (fun x y => if x.toNat ≤ y.toNat then y else x) ∧
    row (.vandI8 d a b m) 8 (fun x y => x &&& y) ∧
    row (.vorI8 d a b m) 8 (fun x y => x ||| y) ∧
    row (.vxorI8 d a b m) 8 (fun x y => x ^^^ y) ∧
    row (.vshlI8 d a b m) 8 (fun x y => x <<< (y.toNat % 64)) ∧
    row (.vshrI8 d a b m) 8 (fun x y => x >>> (y.toNat % 64)) ∧
    row (.vsarI8 d a b m) 8 (fun x y => x.sshiftRight (y.toNat % 64)) ∧
    sat (.vaddsI8 d a b m) 8 (fun x y => x + y) ∧
    sat (.vsubsI8 d a b m) 8 (fun x y => x - y) ∧
    cmp (.vcmpeqI8 p a b m) 8 (fun x y => x == y) ∧
    cmp (.vcmpltI8 p a b m) 8 (fun x y => decide (x.toInt < y.toInt)) ∧
    cmp (.vcmpltnI8 p a b m) 8 (fun x y => decide (x.toNat < y.toNat)) ∧
    selectRow s k (.vselI8 d a b m) 8 d a b m

/-- R144 to R146, R70: the hand-off and the lanes of the floating instructions of the three formats. The value of VSIN, VCOS and VEXP2 within
its bound is free (log entry 5), and so is whether it is tiny (log entry 76). What the arithmetic computes (R51, R55, R56, R58, R62): a sum,
a product, a fused product and sum, a quotient or a root that the format holds is that number and raises nothing, whatever the mode; the
signs of zeros; NaNs, infinities, and the invalid and the division by zero. -/
def Obligations.FloatVectorsWriteTheirRow : Prop :=
  ∀ (s : State) (k : Nat) (d a b : BitVec 6) (p m : BitVec 3),
    let rm := rmOf (slotAt s k).sc.fpmode.toNat
    let row := fun (i : Instr) (w : Nat) (op : Nat → Nat → Nat → Nat × FFlags) =>
      laneRow s k i w d a b m (fun x y z => BitVec.ofNat w (op x.toNat y.toNat z.toNat).1)
        (fun x y z => (op x.toNat y.toNat z.toNat).2)
    let quiet := fun (i : Instr) (w : Nat) (op : BitVec w → BitVec w → BitVec w) =>
      laneRow s k i w d a b m (fun x y _ => op x y) (fun _ _ _ => 0)
    let cmp := fun (i : Instr) (w : Nat) (op : FVal → FVal → Bool) (f : FFmt) =>
      compareRow s k i w p a b m (fun x y => op (decodeF f x.toNat) (decodeF f y.toNat))
    let approx := fun (i : Instr) (w : Nat) (f : FFmt) (op : FVal → Nat → Nat × FFlags) =>
      HandsOverIfClass i s k w ∧
      ∀ (e : SeqEntry) (rest : List SeqEntry) (h : Handed), HeadIs s k e rest h → h.instr = i → classWidth h.cls = w →
        let r := fun j => op (decodeF f (lane s k w a j).toNat) (Config.freeApprox (s.free + j))
        (∀ j < laneCount w e.ganged, maskBit s k w m j = true → (r j).2 &&& enabledFlags s k = 0) →
        ∃ t, exec (.sequencerEntryPerform k) s = .next t ∧ Done s t k rest ∧
          LanesAre s t k w e.ganged d (fun j => if maskBit s k w m j then BitVec.ofNat w (r j).1 else lane s k w d j) ∧
          FlagsFrom s t k (laneCount w e.ganged) (maskBit s k w m) (fun j => (r j).2)
    let nums := fun (x y : FVal) => !x.isNan && !y.isNan
    row (.vaddF32 d a b m) 32 (fAdd fp32 rm) ∧
    row (.vsubF32 d a b m) 32 (fSub fp32 rm) ∧
    row (.vmulF32 d a b m) 32 (fMul fp32 rm) ∧
    row (.vfmaF32 d a b m) 32 (fMadd fp32 rm) ∧
    row (.vfmsF32 d a b m) 32 (fMsub fp32 rm) ∧
    row (.vdivF32 d a b m) 32 (fDiv fp32 rm) ∧
    row (.vminF32 d a b m) 32 (fMin fp32) ∧
    row (.vmaxF32 d a b m) 32 (fMax fp32) ∧
    quiet (.vabsF32 d a m) 32 (fun x _ => BitVec.ofNat 32 (x.toNat % 2 ^ 31)) ∧
    quiet (.vnegF32 d a m) 32 (fun x _ => x ^^^ BitVec.ofNat 32 (2 ^ 31)) ∧
    row (.vsqrtF32 d a m) 32 (fun x _ _ => fSqrt fp32 rm x) ∧
    approx (.vsinF32 d a m) 32 fp32 (trigLane fp32 false) ∧
    approx (.vcosF32 d a m) 32 fp32 (trigLane fp32 true) ∧
    approx (.vexp2F32 d a m) 32 fp32 (exp2Lane fp32) ∧
    cmp (.vcmpeqF32 p a b m) 32 eqF fp32 ∧
    cmp (.vcmpltF32 p a b m) 32 (fun x y => nums x y && ltF x y) fp32 ∧
    cmp (.vcmpleF32 p a b m) 32 (fun x y => nums x y && (ltF x y || eqF x y)) fp32 ∧
    cmp (.vcmpunF32 p a b m) 32 (fun x y => !nums x y) fp32 ∧
    selectRow s k (.vselF32 d a b m) 32 d a b m ∧
    row (.vaddBf16 d a b m) 16 (fAdd bf16 rm) ∧
    row (.vsubBf16 d a b m) 16 (fSub bf16 rm) ∧
    row (.vmulBf16 d a b m) 16 (fMul bf16 rm) ∧
    row (.vfmaBf16 d a b m) 16 (fMadd bf16 rm) ∧
    row (.vfmsBf16 d a b m) 16 (fMsub bf16 rm) ∧
    row (.vdivBf16 d a b m) 16 (fDiv bf16 rm) ∧
    row (.vminBf16 d a b m) 16 (fMin bf16) ∧
    row (.vmaxBf16 d a b m) 16 (fMax bf16) ∧
    quiet (.vabsBf16 d a m) 16 (fun x _ => BitVec.ofNat 16 (x.toNat % 2 ^ 15)) ∧
    quiet (.vnegBf16 d a m) 16 (fun x _ => x ^^^ BitVec.ofNat 16 (2 ^ 15)) ∧
    row (.vsqrtBf16 d a m) 16 (fun x _ _ => fSqrt bf16 rm x) ∧
    approx (.vsinBf16 d a m) 16 bf16 (trigLane bf16 false) ∧
    approx (.vcosBf16 d a m) 16 bf16 (trigLane bf16 true) ∧
    approx (.vexp2Bf16 d a m) 16 bf16 (exp2Lane bf16) ∧
    cmp (.vcmpeqBf16 p a b m) 16 eqF bf16 ∧
    cmp (.vcmpltBf16 p a b m) 16 (fun x y => nums x y && ltF x y) bf16 ∧
    cmp (.vcmpleBf16 p a b m) 16 (fun x y => nums x y && (ltF x y || eqF x y)) bf16 ∧
    cmp (.vcmpunBf16 p a b m) 16 (fun x y => !nums x y) bf16 ∧
    selectRow s k (.vselBf16 d a b m) 16 d a b m ∧
    row (.vaddF16 d a b m) 16 (fAdd fp16 rm) ∧
    row (.vsubF16 d a b m) 16 (fSub fp16 rm) ∧
    row (.vmulF16 d a b m) 16 (fMul fp16 rm) ∧
    row (.vfmaF16 d a b m) 16 (fMadd fp16 rm) ∧
    row (.vfmsF16 d a b m) 16 (fMsub fp16 rm) ∧
    row (.vdivF16 d a b m) 16 (fDiv fp16 rm) ∧
    row (.vminF16 d a b m) 16 (fMin fp16) ∧
    row (.vmaxF16 d a b m) 16 (fMax fp16) ∧
    quiet (.vabsF16 d a m) 16 (fun x _ => BitVec.ofNat 16 (x.toNat % 2 ^ 15)) ∧
    quiet (.vnegF16 d a m) 16 (fun x _ => x ^^^ BitVec.ofNat 16 (2 ^ 15)) ∧
    row (.vsqrtF16 d a m) 16 (fun x _ _ => fSqrt fp16 rm x) ∧
    approx (.vsinF16 d a m) 16 fp16 (trigLane fp16 false) ∧
    approx (.vcosF16 d a m) 16 fp16 (trigLane fp16 true) ∧
    approx (.vexp2F16 d a m) 16 fp16 (exp2Lane fp16) ∧
    cmp (.vcmpeqF16 p a b m) 16 eqF fp16 ∧
    cmp (.vcmpltF16 p a b m) 16 (fun x y => nums x y && ltF x y) fp16 ∧
    cmp (.vcmpleF16 p a b m) 16 (fun x y => nums x y && (ltF x y || eqF x y)) fp16 ∧
    cmp (.vcmpunF16 p a b m) 16 (fun x y => !nums x y) fp16 ∧
    selectRow s k (.vselF16 d a b m) 16 d a b m ∧
    ∀ f ∈ [fp32, bf16, fp16], ∀ (mode : RMode) (x y z u : Nat), CodeOf f x → CodeOf f y → CodeOf f u →
      let v := unitsOf f
      let one := oneUnits f
      (IsFinite f x → IsFinite f y → IsFinite f z → v z ≠ 0 →
        (v x + v y = v z → fAdd f mode x y u = (z, 0)) ∧ (v x - v y = v z → fSub f mode x y u = (z, 0)) ∧
        (v x * v y = v z * one → fMul f mode x y u = (z, 0)) ∧
        (IsFinite f u → v u * one + v x * v y = v z * one → fMadd f mode x y u = (z, 0)) ∧
        (IsFinite f u → v u * one - v x * v y = v z * one → fMsub f mode x y u = (z, 0)) ∧
        (v y ≠ 0 → v x * one = v z * v y → fDiv f mode x y u = (z, 0)) ∧
        (0 < v z → v x * one = v z * v z → fSqrt f mode x = (z, 0))) ∧
      (IsFinite f x → IsFinite f y →
        let both := signOf f x && signOf f y
        let crossed := signOf f x != signOf f y
        (v x + v y = 0 → fAdd f mode x y u = (zeroCode f (mode == .rdn || v x == 0 && both), 0)) ∧
        (v x * v y = 0 → fMul f mode x y u = (zeroCode f crossed, 0)) ∧
        (v x = 0 → v y ≠ 0 → fDiv f mode x y u = (zeroCode f crossed, 0)) ∧
        (v x ≠ 0 → v y = 0 → fDiv f mode x y u = (infCode f crossed, fDZ)) ∧
        (v x = 0 → v y = 0 → fDiv f mode x y u = (nanCode f, fNV)) ∧
        (v x = 0 → fSqrt f mode x = (x, 0)) ∧ (v x < 0 → fSqrt f mode x = (nanCode f, fNV))) ∧
      (IsNaN f x ∨ IsNaN f y → fAdd f mode x y u = (nanCode f, 0) ∧ fSub f mode x y u = (nanCode f, 0) ∧
        fMul f mode x y u = (nanCode f, 0) ∧ fDiv f mode x y u = (nanCode f, 0)) ∧
      (IsNaN f x ∨ IsNaN f y ∨ IsNaN f u → fMadd f mode x y u = (nanCode f, 0) ∧ fMsub f mode x y u = (nanCode f, 0)) ∧
      (IsNaN f x → fSqrt f mode x = (nanCode f, 0)) ∧
      (IsInf f x →
        (IsFinite f y ∨ y = x → fAdd f mode x y u = (x, 0)) ∧ (IsInf f y → y ≠ x → fAdd f mode x y u = (nanCode f, fNV)) ∧
        (IsFinite f y → v y = 0 → fMul f mode x y u = (nanCode f, fNV)) ∧
        (IsInf f y ∨ (IsFinite f y ∧ v y ≠ 0) → fMul f mode x y u = (infCode f (signOf f x != signOf f y), 0)) ∧
        (IsInf f y → fDiv f mode x y u = (nanCode f, fNV)) ∧
        (IsFinite f y → fDiv f mode x y u = (infCode f (signOf f x != signOf f y), 0) ∧
          fDiv f mode y x u = (zeroCode f (signOf f x != signOf f y), 0)) ∧
        (signOf f x = false → fSqrt f mode x = (x, 0)) ∧ (signOf f x = true → fSqrt f mode x = (nanCode f, fNV)))

/-- R149, R164: the moving instructions, with every source lane read before any lane is written, and those that put a scalar
into lanes; what the scalars hold is fixed at the hand-off (R140). -/
def Obligations.LaneMovesWriteTheirRow : Prop :=
  ∀ (s : State) (k : Nat) (d a b : BitVec 6) (x y : BitVec 5) (m p : BitVec 3) (u : BitVec 1),
    (∀ i sa sb, ((∃ q, i = .vperm d a q m) ∧ sa = 0 ∧ sb = 0 ∨ i = .vslideup d a x m ∧ sa = 0 ∧ sb = rd s x ∨
        i = .vslidedn d a x m ∧ sa = 0 ∧ sb = rd s x ∨ i = .vbcast d x m ∧ sa = rd s x ∧ sb = 0 ∨
        i = .vinterl d a b m ∧ sa = 0 ∧ sb = 0 ∨ i = .vdeint d a m ∧ sa = 0 ∧ sb = 0 ∨ i = .vzero d m ∧ sa = 0 ∧ sb = 0 ∨
        i = .vmovv d x y ∧ sa = rd s x ∧ sb = rd s y ∨ i = .vsetl p x ∧ sa = rd s x ∧ sb = 0 ∨
        i = .vsmovm p x u ∧ sa = rd s x ∧ sb = 0) →
      VecReady s k → HandsOver i s k sa sb 0) ∧
    ∀ (e : SeqEntry) (rest : List SeqEntry) (h : Handed) (w : Nat), HeadIs s k e rest h → classWidth h.cls = w →
      let n := laneCount w e.ganged
      let va := lane s k w a
      let ends := fun (v : Nat → BitVec w) => ∃ t, exec (.sequencerEntryPerform k) s = .next t ∧ Done s t k rest ∧
        LanesAre s t k w e.ganged d v ∧ (slotAt t k).sc.fpflags = (slotAt s k).sc.fpflags
      let masks := fun (v : Nat → Bool) => ∃ t, exec (.sequencerEntryPerform k) s = .next t ∧ Done s t k rest ∧
        MaskIs s t k w e.ganged p v
      let moves := fun (i : Instr) (v : Nat → BitVec w) =>
        h.instr = i → ends (fun j => if maskBit s k w m j then v j else lane s k w d j)
      moves (.vperm d a b m) (fun j => let q := (lane s k w b j).toNat; if q < n then va q else 0) ∧
      moves (.vslideup d a x m) (fun j => if h.sb.toNat ≤ j then va (j - h.sb.toNat) else 0) ∧
      moves (.vslidedn d a x m) (fun j => if j + h.sb.toNat < n then va (j + h.sb.toNat) else 0) ∧
      moves (.vbcast d x m) (fun _ => h.sa.setWidth w) ∧
      moves (.vinterl d a b m) (fun j => if j % 2 = 0 then va (j / 2) else lane s k w b (j / 2)) ∧
      moves (.vdeint d a m) (fun j => if j < n / 2 then va (2 * j) else va (2 * (j - n / 2) + 1)) ∧
      moves (.vzero d m) (fun _ => 0) ∧
      (h.instr = .vmovv d x y → ends fun j => if j = h.sb.toNat then h.sa.setWidth w else lane s k w d j) ∧
      (h.instr = .vsetl p x → masks fun j => decide (j < h.sa.toNat)) ∧
      (h.instr = .vsmovm p x u → masks fun j => if j / 64 = u.toNat then h.sa.getLsbD (j % 64) else maskBit s k w p j)

/-- R148, R150: the reductions form one value from the active lanes and write it to every lane; a type code that the class
does not have is illegal. A floating sum is exact before its one rounding, and passes a NaN on; the greatest and the least leave NaNs out
unless there is nothing else. -/
def Obligations.ReductionsWriteOneValue : Prop :=
  (∀ (s : State) (k : Nat) (d a : BitVec 6) (c : BitVec 2) (m : BitVec 3) (i : Instr),
    let rm := rmOf (slotAt s k).sc.fpmode.toNat
    (i = .vredsum d a c m ∨ i = .vredmax d a c m ∨ i = .vredmin d a c m ∨ i = .vrediadd d a c m) →
    let fits := fun (ty : XTy) =>
      (i = .vredsum d a c m → ty.isFlt = true) ∧ (i = .vrediadd d a c m → ty.isFlt = false)
    (∀ ty, VecReady s k → xty (slotAt s k).vec.vtype c.toNat = some ty → fits ty → HandsOver i s k 0 0 0) ∧
    (VecReady s k → (∀ ty, xty (slotAt s k).vec.vtype c.toNat = some ty → ¬ fits ty) → Traps i s 0x01 (s.word.setWidth 64)) ∧
    ∀ (e : SeqEntry) (rest : List SeqEntry) (h : Handed) (w : Nat) (ty : XTy), HeadIs s k e rest h → h.instr = i →
      classWidth h.cls = w → xty h.cls c.toNat = some ty → fits ty →
      let n := laneCount w e.ganged
      let act := ((List.range n).filter (maskBit s k w m)).map fun j => lane s k w a j
      let ends := fun (v : BitVec w) (f : FFlags) => f &&& enabledFlags s k = 0 →
        ∃ t, exec (.sequencerEntryPerform k) s = .next t ∧ Done s t k rest ∧ LanesAre s t k w e.ganged d (fun _ => v) ∧
          FlagsFrom s t k 1 (fun _ => true) (fun _ => f)
      (∀ f, i = .vredsum d a c m → ty = .flt f → let r := sumLanes f rm (act.map fun x => decodeF f x.toNat)
        ends (BitVec.ofNat w r.1) r.2) ∧
      (∀ sg, i = .vrediadd d a c m → ty = .int sg →
        let sum : Int := act.foldl (fun (z : Int) x => z + (if sg then x.toInt else (x.toNat : Int))) 0
        let low : Int := if sg then -(2 ^ (w - 1)) else 0
        let top : Int := if sg then 2 ^ (w - 1) - 1 else 2 ^ w - 1
        ends (BitVec.ofInt w (max low (min top sum))) (if sum < low ∨ top < sum then fOF else 0)) ∧
      (∀ sg, ty = .int sg → act ≠ [] → let key := fun (x : BitVec w) => if sg then x.toInt else (x.toNat : Int)
        (i = .vredmax d a c m → ∃ v ∈ act, (∀ x ∈ act, key x ≤ key v) ∧ ends v 0) ∧
        (i = .vredmin d a c m → ∃ v ∈ act, (∀ x ∈ act, key v ≤ key x) ∧ ends v 0)) ∧
      (∀ sg, ty = .int sg → act = [] →
        (i = .vredmax d a c m → ends (if sg then BitVec.ofNat w (2 ^ (w - 1)) else 0) 0) ∧
        (i = .vredmin d a c m → ends (if sg then BitVec.ofNat w (2 ^ (w - 1) - 1) else BitVec.ofNat w (2 ^ w - 1)) 0)) ∧
      ∀ f, ty = .flt f → (i = .vredmax d a c m → ends (BitVec.ofNat w (redBest true w ty (act.map (·.toNat))).1) 0) ∧
        (i = .vredmin d a c m → ends (BitVec.ofNat w (redBest false w ty (act.map (·.toNat))).1) 0)) ∧
  ∀ f ∈ [fp32, bf16, fp16], ∀ (mode : RMode) (z w : Nat) (l : List Nat), (∀ x ∈ l, CodeOf f x) →
    let total := (l.map (unitsOf f)).sum
    let r := sumLanes f mode (l.map (decodeF f))
    let most := (redBest true w (.flt f) l).1
    let least := (redBest false w (.flt f) l).1
    ((∀ x ∈ l, IsFinite f x) → IsFinite f z → unitsOf f z ≠ 0 → total = unitsOf f z → r = (z, 0)) ∧
    ((∀ x ∈ l, IsFinite f x) → l ≠ [] → total = 0 →
      r = (zeroCode f (mode == .rdn || l.all fun x => x == zeroCode f true), 0)) ∧
    ((∃ x ∈ l, IsNaN f x) → r = (nanCode f, 0)) ∧
    ((∃ x ∈ l, ¬ IsNaN f x) →
      (most ∈ l ∧ ¬ IsNaN f most ∧ ∀ x ∈ l, ¬ IsNaN f x → orderOf f x ≤ orderOf f most) ∧
      (least ∈ l ∧ ¬ IsNaN f least ∧ ∀ x ∈ l, ¬ IsNaN f x → orderOf f least ≤ orderOf f x)) ∧
    (l ≠ [] → (∀ x ∈ l, IsNaN f x) → most = nanCode f ∧ least = nanCode f) ∧
    (l = [] → r = (0, 0) ∧ most = infCode f true ∧ least = infCode f false)

/-- R151: the mask instructions. They are not masked, and the bits from the lane count on become 0. -/
def Obligations.MaskInstructionsWriteTheirRow : Prop :=
  ∀ (s : State) (k : Nat) (d a b : BitVec 3),
    let row := fun (i : Instr) (bit : (Nat → Bool) → (Nat → Bool) → Nat → Bool) =>
      (VecReady s k → HandsOver i s k 0 0 0) ∧
      ∀ (e : SeqEntry) (rest : List SeqEntry) (h : Handed) (w : Nat), HeadIs s k e rest h → h.instr = i → classWidth h.cls = w →
        let n := laneCount w e.ganged
        let on := fun (p : BitVec 3) j => decide (j < n) && maskBit s k w p j
        ∃ t, exec (.sequencerEntryPerform k) s = .next t ∧ Done s t k rest ∧ MaskIs s t k w e.ganged d (bit (on a) (on b))
    row (.mand d a b) (fun x y j => x j && y j) ∧ row (.mor d a b) (fun x y j => x j || y j) ∧
    row (.mxor d a b) (fun x y j => xor (x j) (y j)) ∧ row (.mandn d a b) (fun x y j => x j && !y j) ∧
    row (.mnot d a) (fun x _ j => !x j) ∧
    row (.mlow d a) (fun x _ j => x j && (List.range j).all fun i => !x i) ∧
    row (.mbelow d a) (fun x _ j => (List.range (j + 1)).all fun i => !x i)

/-- R154 to R157, R152, R78: the conversions are handed over once the class, the block code and the register group pass; a bad group
or block code traps with 0x0A. Class w8 has no narrowing, widening or rotation, and VCVTF has ten codes. R165: a VLOOP whose checks pass
becomes one entry that replays the last n instructions s[a] times; with s[a] = 0 it has no effect. A count of instructions that is out
of range or that the slot has not handed over is illegal, and a replayed group that does not start at a multiple of its span traps
with 0x0A. -/
def Obligations.ConversionsAndLoopsAreHandedOver : Prop :=
  ∀ (s : State) (k : Nat) (d a : BitVec 6) (q : BitVec 3) (l c2 : BitVec 2) (c : BitVec 4) (m : BitVec 3) (n st : BitVec 6)
    (b : BitVec 5),
    let x := slotAt s k
    let lanes := (if x.ganged then 2 else 1) * (1024 / classWidth x.vec.vtype)
    let seed := x.vec.seeds.toList.getD q.toNat 0
    let span := fun (len : Nat) => max 1 (len / lanes)
    let grouped := fun (len : Nat) => d.toNat % span len = 0 ∧ a.toNat % span len = 0
    let len := if l = 0 then 0 else 4 ^ (l.toNat + 1)
    let row := fun (i : Instr) (turns : Bool) =>
      VecReady s k → x.vec.vtype < 2 →
        ((turns = true → l ≠ 0) → grouped len → HandsOver i s k 0 0 seed) ∧
        ((turns = true ∧ l = 0) ∨ ¬ grouped len → Traps i s 0x0A (w64 (tagOf l.toNat 0 seed.toNat)))
    let plain := fun (i : Instr) => VecReady s k → HandsOver i s k 0 0 0
    row (.vnar d a q l c) true ∧ row (.vnars d a q l c) true ∧ row (.vhad d a q l) true ∧ row (.vhadi d a q l) true ∧
    row (.vwid d a q l c) false ∧ (VecReady s k → x.vec.vtype < 2 → HandsOver (.vwidr d a c) s k 0 0 (x.vec.seeds.toList.getD 0 0)) ∧
    (c.toNat < 10 → plain (.vcvtf d a c)) ∧ plain (.vcvti d a c) ∧
    (VecReady s k → x.vec.vtype = 2 → ∀ i ∈ [.vnar d a q l c, .vnars d a q l c, .vwid d a q l c, .vwidr d a c, .vhad d a q l,
      .vhadi d a q l], Traps i s 0x01 (s.word.setWidth 64)) ∧
    (∀ f, VecReady s k → xty x.vec.vtype c2.toNat = some (.flt f) → HandsOver (.vtbl d a c2 l m) s k 0 0 0) ∧
    (VecReady s k →
    let body := (x.vec.recent.take n.toNat).reverse
    let count := (rd s b).toNat
    let lanesOf := fun (h : Handed) => (if x.ganged then 2 else 1) * (1024 / classWidth h.cls)
    (n.toNat = 0 ∨ 16 < n.toNat ∨ x.vec.recent.length < n.toNat → Traps (.vloop n b st) s 0x01 (s.word.setWidth 64)) ∧
    (1 ≤ n.toNat → n.toNat ≤ 16 → n.toNat ≤ x.vec.recent.length → (∀ h ∈ body, (vecFields h.instr).isSome = true) →
    count ≤ 65535 → (∀ h ∈ body, ∀ l, vecFields h.instr = some l → ∀ r ∈ l, r.toNat + count * st.toNat ≤ 63) →
    let groups := ∀ h ∈ body, ∀ l, vecFields h.instr = some l → ∀ r ∈ l, ∀ j < count,
      (r.toNat + (j + 1) * st.toNat) % max 1 (groupLen h.instr / lanesOf h) = 0
    (count = 0 → Does (.vloop n b st) s s) ∧
    (¬ groups → ∃ v, Traps (.vloop n b st) s 0x0A v) ∧
    (0 < count → groups →
      Does (.vloop n b st) s (withEntry s k (handed s k (.vloop n b st) (rd s b) 0 0)
        { body := body, step := st.toNat, next := 1, last := count, at_ := 0, pc := pc s, ganged := x.ganged }))))

/-- R88, R89, R152, R154 to R157: the sequencer performs a conversion. The registers of its group, d to d + span - 1, take the result, and
every other register and mask is as it was. The exact ones lane by lane: BF16 and FP16 to FP32 (R157), the integer widenings and the
saturating narrowings, where a half that is not written stays (R157, R69), and VWIDR of the integer and the floating formats of 8 bits or
fewer (R63). A group of zeros narrows and rotates to zeros (R66, R84); a block with a NaN or an infinity rotates to default NaNs (R156); a
table slot that is not loaded gives the default NaN (R152). -/
def Obligations.ConversionsWriteTheirGroup : Prop :=
  ∀ (s : State) (k : Nat) (d a : BitVec 6) (q : BitVec 3) (l c2 : BitVec 2) (c : BitVec 4) (m : BitVec 3),
    ∀ (e : SeqEntry) (rest : List SeqEntry) (h : Handed), HeadIs s k e rest h →
      let y := viewOfEntry s k e h
      let halves := halvesOf k e.ganged
      let reg := fun (u : State) (j r : Nat) => bankReg (bankOfSlot u j) r
      let frame := fun (t : State) (span : Nat) => Done s t k rest ∧
        (∀ j ∈ halves, ∀ r < 64, ¬ (d.toNat ≤ r ∧ r < d.toNat + span) → reg t j r = reg s j r) ∧
        ∀ j ∈ halves, ∀ z, bankMask (bankOfSlot t j) z = bankMask (bankOfSlot s j) z
      let same := fun (t : State) => (slotAt t k).sc.fpflags = (slotAt s k).sc.fpflags
      let does := fun (i : Instr) (o : VOut) (span : Nat) => h.instr = i → o.flags &&& enabledFlags s k = 0 →
        ∃ t, exec (.sequencerEntryPerform k) s = .next t ∧ frame t span ∧
          (∀ p ∈ halves.mapIdx (fun n j => (n, j)), ∀ r : BitVec 6,
            reg t p.2 r.toNat = match o.regs.find? fun z => z.1 == r.toNat with
              | some z => z.2.getD p.1 0
              | none => reg s p.2 r.toNat) ∧
          FlagsFrom s t k 1 (fun _ => true) (fun _ => o.flags)
      let w := classWidth h.cls
      let L := laneCount w e.ganged
      let n := if l = 0 then 0 else 4 ^ (l.toNat + 1)
      let span := max 1 (n / L)
      let wide := if h.cls = 0 then fp32 else bf16
      -- Lane z of the group, counted over the registers of the group and the halves of each.
      let lanesOf := fun (u : State) (r z : Nat) =>
        el w (reg u (halfOf k w (z % L)) (r + z / L)) (z % L % (1024 / w))
      let ends := fun (i : Instr) (ok : State → Prop) => h.instr = i →
        ∃ t, exec (.sequencerEntryPerform k) s = .next t ∧ frame t 1 ∧ same t ∧ ok t
      (h.cls < 2 →
        does (.vnar d a q l c) (effNarrow false y d a l c) span ∧ does (.vnars d a q l c) (effNarrow true y d a l c) span ∧
        does (.vwid d a q l c) (effWiden y d a l c) span ∧ does (.vwidr d a c) (effWiden y d a 0 c) 1 ∧
        does (.vhad d a q l) (effHad false y d a l) span ∧ does (.vhadi d a q l) (effHad true y d a l) span ∧
        (∀ i ∈ [.vnar d a q l c, .vnars d a q l c, .vhad d a q l, .vhadi d a q l], l ≠ 0 → d.toNat + span ≤ 64 → h.instr = i →
          (∀ z < span * L, lanesOf s a.toNat z % 2 ^ (w - 1) = 0) →
          ∃ t, exec (.sequencerEntryPerform k) s = .next t ∧ frame t span ∧ same t ∧
            ∀ j ∈ halves, ∀ r < span, reg t j (d.toNat + r) = 0) ∧
        (∀ i ∈ [.vhad d a q l, .vhadi d a q l], l ≠ 0 → d.toNat + span ≤ 64 → h.instr = i → enabledFlags s k = 0 →
          ∃ t, exec (.sequencerEntryPerform k) s = .next t ∧ frame t span ∧
            ∀ z < span * L, (∃ x < span * L, x / n = z / n ∧ ¬ IsFinite wide (lanesOf s a.toNat x)) →
              lanesOf t d.toNat z = nanCode wide) ∧
        (c.toNat < 8 → ends (.vwidr d a c) fun t => ∀ z < L,
          let x := reg s (halfOf k w z) a.toNat
          let v := lanesOf t d.toNat z
          let i := z % (1024 / w)
          let int := fun (u : Int) => IsFinite wide v ∧ unitsOf wide v = u * oneUnits wide ∧ (u = 0 → v = 0)
          let flt := fun (f : FFmt) => let u := el (1 + f.eb + f.fb) x i
            (f.special = 0 → IsFinite f u) → (f.special = 1 → u % 2 ^ (f.eb + f.fb) ≠ 2 ^ (f.eb + f.fb) - 1) →
              IsFinite wide v ∧ signOf wide v = signOf f u ∧ unitsOf wide v * oneUnits f = unitsOf f u * oneUnits wide
          (c = 0 → flt e4m3) ∧ (c = 1 → flt e5m2) ∧ (c = 2 → flt e3m2) ∧ (c = 3 → flt e2m3) ∧ (c = 4 → flt e2m1) ∧
          (c = 5 → int (BitVec.ofNat 8 (el 8 x i)).toInt) ∧ (c = 6 → int (el 8 x i)) ∧
          (c = 7 → int (BitVec.ofNat 4 (el 4 x i)).toInt))) ∧
      (c.toNat < 10 → does (.vcvtf d a c) (effCvtF y d a c) 1) ∧ does (.vcvti d a c) (effCvtI y d a c) 1 ∧
      does (.vtbl d a c2 l m) (effTbl y d a c2 l m) 1 ∧
      (∀ f, xty h.cls c2.toNat = some (.flt f) → lookup (coreAt s (coreOfSlot k)).tables l.toNat = none → enabledFlags s k = 0 →
        h.instr = .vtbl d a c2 l m → ∃ t, exec (.sequencerEntryPerform k) s = .next t ∧ frame t 1 ∧
          ∀ z < L, (maskBit s k w m z = true → lanesOf t d.toNat z = nanCode f) ∧
            (maskBit s k w m z = false → lanesOf t d.toNat z = lanesOf s d.toNat z)) ∧
      -- BF16 and FP16 to FP32: the codes take the low half or the high half of a.
      (∀ i < 2, c.toNat = 4 + i → ends (.vcvtf d a c) fun t => ∀ j ∈ halves, ∀ z < 32,
        let x := el 16 (reg s j a.toNat) (z + 32 * i)
        el 32 (reg t j d.toNat) z = if x % 2 ^ 15 ≤ 0x7F80 then x * 2 ^ 16 else nanCode fp32) ∧
      (∀ i < 2, c.toNat = 6 + i → ends (.vcvtf d a c) fun t => ∀ j ∈ halves, ∀ z < 32,
        let x := el 16 (reg s j a.toNat) (z + 32 * i)
        let v := el 32 (reg t j d.toNat) z
        (IsNaN fp16 x → v = nanCode fp32) ∧ (IsInf fp16 x → v = infCode fp32 (signOf fp16 x)) ∧
        (IsFinite fp16 x → IsFinite fp32 v ∧ signOf fp32 v = signOf fp16 x ∧ unitsOf fp32 v = 2 ^ 125 * unitsOf fp16 x)) ∧
      -- The integer widenings.
      (∀ i < 2, c.toNat = 8 + i → ends (.vcvti d a c) fun t => ∀ j ∈ halves, ∀ z < 32,
        BitVec.ofNat 32 (el 32 (reg t j d.toNat) z) = (BitVec.ofNat 16 (el 16 (reg s j a.toNat) (z + 32 * i))).signExtend 32) ∧
      (∀ i < 2, c.toNat = 12 + i → ends (.vcvti d a c) fun t => ∀ j ∈ halves, ∀ z < 64,
        BitVec.ofNat 16 (el 16 (reg t j d.toNat) z) = (BitVec.ofNat 8 (el 8 (reg s j a.toNat) (z + 64 * i))).signExtend 16) ∧
      (∀ i < 2, c.toNat = 14 + i → ends (.vcvti d a c) fun t => ∀ j ∈ halves, ∀ z < 64,
        el 16 (reg t j d.toNat) z = el 8 (reg s j a.toNat) (z + 64 * i)) ∧
      -- The saturating narrowings: lanes of u bits to the low or the high half.
      ∀ u ∈ [32, 16], ∀ i < 2, c.toNat = (if u = 32 then 6 else 10) + i → h.instr = .vcvti d a c →
        let val := fun (j z : Nat) => (BitVec.ofNat u (el u (reg s j a.toNat) z)).toInt
        let low : Int := -(2 ^ (u / 2 - 1))
        let high : Int := 2 ^ (u / 2 - 1) - 1
        let past := ∃ j ∈ halves, ∃ z < 1024 / u, val j z < low ∨ high < val j z
        (¬ past ∨ enabledFlags s k &&& fOF = 0) →
          ∃ t, exec (.sequencerEntryPerform k) s = .next t ∧ frame t 1 ∧
            (∀ j ∈ halves, ∀ z < 1024 / u,
              BitVec.ofNat (u / 2) (el (u / 2) (reg t j d.toNat) (z + 1024 / u * i)) = BitVec.ofInt (u / 2) (max low (min high (val j z)))) ∧
            (∀ j ∈ halves, ∀ z < 1024 / u, el (u / 2) (reg t j d.toNat) (z + 1024 / u * (1 - i)) =
              el (u / 2) (reg s j d.toNat) (z + 1024 / u * (1 - i))) ∧
            (¬ past → same t) ∧ (past → FlagsFrom s t k 1 (fun _ => true) (fun _ => fOF))

/-- R60, R141, R40: an entry whose flags the slot enables writes no lane and no mask: it freezes the sequencer, with itself at
its head, and the deferred cause 0x108 with the flags waits for the next boundary. A slot parked with reason 2 on a matrix instruction
that waits behind the entry leaves its park with the instruction unretired: the model's choice (log entry 86). -/
def Obligations.EnabledFlagsFreezeTheEntry : Prop :=
  ∀ (s : State) (k : Nat) (e : SeqEntry) (rest : List SeqEntry) (h : Handed), HeadIs s k e rest h →
    isMatrix h.instr = false → isVecLoad h.instr = false → isVecStore h.instr = false → isVecAtomic h.instr = false →
    let o := vecEffect h.instr (viewOfEntry s k e h)
    let later := fun (p : Park) => p.cont = .matrix ∧ p.reason ≠ .sequencer
    o.flags &&& enabledFlags s k ≠ 0 →
    ∃ t, exec (.sequencerEntryPerform k) s = .next t ∧ SameBytes s t ∧ t.clusters = s.clusters ∧
      (∀ j ≠ k, slotAt t j = slotAt s j) ∧ (slotAt t k).sc = (slotAt s k).sc ∧
      ((∀ p, (slotAt s k).park = some p → ¬ later p) → t.cores = (unitTook s k).cores ∧
        (slotAt t k).vec = { (slotAt s k).vec with frozen := true, deferred := some (0x108 + 512 * o.flags.toNat, e.pc) }) ∧
      ∀ p, (slotAt s k).park = some p → later p → (coreAt s (coreOfSlot k)).matrixRun = none →
        (slotAt t k).state = .ready ∧ (slotAt t k).park = none ∧
        (slotAt t k).vec = { (slotAt s k).vec with
          seq := (e :: rest).dropLast, frozen := true, deferred := some (0x108 + 512 * o.flags.toNat, e.pc) }

/-- R164, R142, R32, R33, R35: VWAIT and the reads of the bank complete once the sequencer is empty and park with reason 4 until
then; VBIND takes the lowest free bank, VFREE zeroes the bank and frees it, VTYPE writes the class, and without a bank each
traps with 0x10. -/
def Obligations.BankInstructionsComplete : Prop :=
  ∀ (s : State) (k : Nat) (d x : BitVec 5) (a : BitVec 6) (m : BitVec 3) (u : BitVec 1) (c : BitVec 2), s.cur = .slot k →
    let v := slotAt s k
    let w := classWidth v.vec.vtype
    let n := laneCount w v.ganged
    let bits := ((List.range n).filter (maskBit s k w m))
    let ready := vecHidden v = false ∧ v.vec.bank ≠ none
    let waits := fun (i : Instr) => Parks i s k .sequencer false (.retryAfter 0)
    (ready → v.vec.seq = [] → (v.ganged = true → k % 2 = 0) →
      Does .vwait s s ∧
      Writes (.vmovs d a x) s d (if (rd s x).toNat < n then (lane s k w a (rd s x).toNat).setWidth 64 else 0) ∧
      Writes (.vpopm d m) s d (w64 bits.length) ∧
      (∃ y, Writes (.vmmovs d m u) s d y ∧ ∀ j < 64,
        y.getLsbD j = (decide (64 * u.toNat + j < n) && maskBit s k w m (64 * u.toNat + j)))) ∧
    (ready → v.vec.seq ≠ [] → waits .vwait ∧ waits (.vmovs d a x) ∧ waits (.vpopm d m) ∧ waits (.vmmovs d m u) ∧
      (v.ganged = false → (tl s = 0 ∨ v.vec.frozen = false) → waits .vfree)) ∧
    (ready → v.ganged = false → (v.vec.seq = [] ∧ (v.vec.frozen = false ∨ tl s = 0)) → ∀ b < 4, v.vec.bank = some b →
      (coreAt s (coreOfSlot k)).bankQueue = [] →
      Does .vfree s (setSlot (setCore s (coreOfSlot k) (setHolder (setBank (coreAt s (coreOfSlot k)) b Bank.zero) b none)) k
        { v with vec := { v.vec with bank := none, seq := [], frozen := false, deferred := none, recent := [] } })) ∧
    (ready → c ≠ 3 → Does (.vtype c) s (setSlot s k { v with vec := { v.vec with vtype := c.toNat } })) ∧
    (vecHidden v = false → ∀ b, v.vec.bank = some b → Writes (.vbind d) s d (w64 b)) ∧
    (vecHidden v = false → v.vec.bank = none → ∀ b < 4, (coreAt s (coreOfSlot k)).holders.toList.getD b none = none →
      (∀ j < b, (coreAt s (coreOfSlot k)).holders.toList.getD j none ≠ none) →
      DoesAnd (.vbind d) s (setSlot (setCore s (coreOfSlot k) (setHolder (coreAt s (coreOfSlot k)) b (some k))) k
        { v with vec := { v.vec with bank := some b, recent := [] } }) d (w64 b)) ∧
    (¬ ready → Traps .vwait s 0x10 0 ∧ Traps (.vmovs d a x) s 0x10 0 ∧ Traps (.vpopm d m) s 0x10 0 ∧
      Traps (.vmmovs d m u) s 0x10 0 ∧ Traps .vfree s 0x10 0 ∧ Traps (.vtype c) s 0x10 0)

/-- R41, R44: the second GANG of two slots forms the pair, and both go on; the first waits with reason 11; UNGANG makes both
slots single again, at the next word. -/
def Obligations.GangsFormAndPart : Prop :=
  ∀ (s : State) (k : Nat), s.cur = .slot k → k % 16 < 14 →
    let j := partnerOf k
    let x := slotAt s k
    let y := slotAt s j
    let ready := vecHidden x = false ∧ x.vec.bank ≠ none
    (ready → x.ganged = false → y.park = none → y.state ≠ .splitWait → Parks .gang s k .join false .join) ∧
    (∀ r b, ready → tl s = 0 → x.ganged = false → y.park = some { reason := r, abandon := b, cont := .join } →
      y.vec.bank ≠ none → y.world = x.world →
      ∃ t, exec .gang s = .next t ∧ SameBytes s t ∧ (slotAt t k).ganged = true ∧ (slotAt t j).ganged = true ∧
        (slotAt t j).park = none ∧ (slotAt t j).state = .ready ∧
        (¬ AtLoopEnd s → (slotAt t k).sc = { x.sc with pc := x.sc.pc + 4 }) ∧ ∀ i, i ≠ k → i ≠ j → slotAt t i = slotAt s i) ∧
    (ready → x.ganged = true → k % 2 = 0 →
      ∃ t, exec .ungang s = .next t ∧ SameBytes s t ∧ (slotAt t k).ganged = false ∧ (slotAt t j).ganged = false ∧
        (slotAt t j).state = .ready ∧ (slotAt t j).sc = { y.sc with pc := (slotAt t k).sc.pc } ∧
        (¬ AtLoopEnd s → (slotAt t k).sc = { x.sc with pc := x.sc.pc + 4 }) ∧ ∀ i, i ≠ k → i ≠ j → slotAt t i = slotAt s i) ∧
    (ready → x.ganged = false → y.state ≠ .splitWait → Does .ungang s s)

/-- R165: each replay of a VLOOP performs its instruction with every vector register field advanced, and the entry leaves after the
last. -/
def Obligations.LoopsReplayTheirBody : Prop :=
  ∀ (s : State) (k : Nat),
    let x := slotAt s k
    ∀ (e : SeqEntry) (rest : List SeqEntry) (h : Handed), x.vec.seq = e :: rest → x.vec.frozen = false → UnitTurn s k →
      e.body[e.at_]? = some h → (vecFields h.instr).isSome = true →
      let o := vecEffect (vecShift h.instr (e.next * e.step)) (viewOfEntry s k e h)
      o.flags &&& enabledFlags s k = 0 →
      ∃ t, exec (.sequencerEntryPerform k) s = .next t ∧ SameBytes s t ∧
        (∀ j, bankOfSlot t j = bankOfSlot (writeHalves s (halvesOf k e.ganged) o) j) ∧
        (slotAt t k).sc.fpflags = x.sc.fpflags ||| o.flags.setWidth 64 ∧
        (slotAt t k).vec.seq =
          (if e.at_ + 1 < e.body.length then { e with at_ := e.at_ + 1 } :: rest
           else if e.next < e.last then { e with at_ := 0, next := e.next + 1 } :: rest else rest)

/-! ### Vector memory -/

/-- R158, R159, R160, R161, R162, R140: a vector access to local memory whose lanes pass their checks is handed over: one entry in
the sequencer, and relaxed events of the slot's thread at the bytes of the active lanes, in lane order (log entry 87); nothing is accessed
yet. Without an active lane the pointer, the segment and the base are checked all the same (log entry 66). -/
def Obligations.VectorAccessesAreHandedOver : Prop :=
  ∀ (s : State) (k : Nat) (v iv : BitVec 6) (vm g m sd : BitVec 3) (a b : BitVec 5) (l : BitVec 2), VecReady s k →
    let x := slotAt s k
    let w := classWidth x.vec.vtype
    let n := laneCount w x.ganged
    let p := rd s a
    let q : Int := offsetOf p 0
    let base := (segOf s s.cur g).w0.toNat % 2 ^ 57
    let bytes := fun (o : Int) (c : Nat) => (List.range c).map fun j => flatLocal (coreOfSlot k) (base + o.toNat + j)
    let fits := fun (o : Int) (c al need : Nat) => PointerOk p ∧ SegmentOk s g need ∧ (segOf s s.cur g).w0.toNat / 2 ^ 57 = 2 ∧
      0 ≤ o ∧ o + c ≤ (segOf s s.cur g).w1.toNat % 2 ^ 48 + 1 ∧ (base + o.toNat) % al = 0 ∧
      (if k % 16 = 15 then base + o.toNat + c ≤ 0xC000
       else winBase x ≤ base + o.toNat ∧ base + o.toNat + c ≤ winBase x + winLen x ∧ base + o.toNat + c ≤ 0xB000)
    let hands := fun (i : Instr) (write : Bool) (addrs : List Nat) (h : Handed) =>
      ∃ t evs, exec i s = .next t ∧ t.iq = s.iq ++ evs ∧ evs.flatMap (fun e => e.addrs) = addrs ∧
        evs.map (fun e => e.id) = (List.range evs.length).map (s.nextId + ·) ∧
        (∀ e ∈ evs, e.thread = k ∧ e.kind = (if write then .write else .read) ∧ e.order = .relaxed ∧ e.scope = .thread ∧
          e.space = .lm) ∧
        SameBytes s t ∧ SameRegs s t ∧ GoneOn s t ∧ (∀ j ≠ k, slotAt t j = slotAt s j) ∧
        (slotAt t k).vec.seq = x.vec.seq ++ [{
          body := [{ h with lanes := [(0, evs.map fun e => e.id)] }], step := 0, next := 0, last := 0, at_ := 0, pc := pc s,
          ganged := x.ganged }]
    let act := (List.range n).filter (maskBit s k w m)
    let masked := fun (i : Instr) => { handed s k i p 0 0 with mask := bankMask (bankOfSlot s k) m,
                                                               maskOdd := if x.ganged then bankMask (bankOfSlot s (k + 1)) m else 0 }
    let lanes := fun (i : Instr) (write : Bool) (need al : Nat) (on : List Nat) (off : Nat → Int) =>
      (m = 0 ∨ ∀ e ∈ x.vec.seq, ∀ h ∈ e.body, maskWritten h.instr ≠ some m) →
      PointerOk p → SegmentOk s g need → (segOf s s.cur g).w0.toNat / 2 ^ 57 = 2 → (∀ j ∈ on, fits (off j) (w / 8) al need) → hands i write (on.flatMap fun j => bytes (off j) (w / 8)) (masked i)
    let disp : Int := b.toInt * 128
    let per := if x.ganged then 64 else 32
    let index := fun (j : Nat) => (lane s k 32 (iv + BitVec.ofNat 6 (j / per)) (j % per)).toInt
    let gather := fun (i : Instr) (write : Bool) (need : Nat) => iv.toNat % (n / per) = 0 → x.vec.seq = [] →
      lanes i write need (w / 8) act (fun j => q + index j)
    (((base : Int) + q + disp) % 64 = 0 →
      lanes (.vld v a b g m) false 1 1 act (fun j => q + disp + (j * (w / 8) : Nat)) ∧
      lanes (.vst v a b g m) true 2 1 act (fun j => q + disp + (j * (w / 8) : Nat))) ∧
    (((base : Int) + q) % (w / 8 : Nat) = 0 →
      lanes (.vlds v a b g m) false 1 (w / 8) act (fun j => q + j * (rd s b).toInt) ∧
      lanes (.vsts v a b g m) true 2 (w / 8) act (fun j => q + j * (rd s b).toInt)) ∧
    (act = [] → m = 0 ∨ (∀ e ∈ x.vec.seq, ∀ h ∈ e.body, maskWritten h.instr ≠ some m) →
      (¬ PointerOk p → ∀ i ∈ [.vld v a b g m, .vst v a b g m, .vlds v a b g m, .vsts v a b g m, .vldb v a b g m], Traps i s 0x05 p) ∧
      ∀ need, PointerOk p → SegmentOk s g need → (segOf s s.cur g).w0.toNat / 2 ^ 57 = 2 →
        let bad := fun (i : Instr) (r al : Nat) (o : Int) => need = r → ((base : Int) + o) % (al : Nat) ≠ 0 →
          Traps i s 0x06 (BitVec.ofInt 64 (base + o))
        bad (.vld v a b g m) 1 64 (q + disp) ∧ bad (.vst v a b g m) 2 64 (q + disp) ∧ bad (.vlds v a b g m) 1 (w / 8) q ∧
        bad (.vsts v a b g m) 2 (w / 8) q) ∧
    lanes (.vldb v a b g m) false 1 (w / 8) (act.take 1) (fun _ => q + disp) ∧
    gather (.vldx v a iv g m) false 1 ∧ gather (.vstx v a iv g m) true 2 ∧ gather (.vstxa v a iv g m) true 11 ∧
    (let c := if x.ganged then 32 else 16
     (fits (q + disp) c 16 1 → hands (.vldm vm a b g) false (bytes (q + disp) c) (handed s k (.vldm vm a b g) p 0 0)) ∧
     (fits (q + disp) c 16 2 → hands (.vstm vm a b g) true (bytes (q + disp) c) (handed s k (.vstm vm a b g) p 0 0))) ∧
    (let code := p.toNat / 2 ^ 59
     let blen := p.toNat / 2 ^ 56 % 8
     let c := if code = 0 then (if x.ganged then 256 else 128) else n * elemWidth code / 8
     let len := if l = 0 then 0 else 4 ^ (l.toNat + 1)
     let seed := x.vec.seeds.toList.getD sd.toNat 0
     let aligned := fun (o : Int) => if code = 0 then (base + o.toNat) % 64 = 0 else o.toNat * 8 % elemWidth code = 0
     fmtOk code blen = true → isMx code = false → x.vec.vtype < 2 →
     (fits (q + disp) c 1 1 → aligned (q + disp) →
       hands (.vldf v a b g) false (bytes (q + disp) c) { handed s k (.vldf v a b g) p 0 0 with extra := [code, blen] }) ∧
     (fits q c 1 2 → aligned q → (isNarrow code = true → l ≠ 0 ∧ len ≤ n) →
       hands (.vstf v a l sd g) true (bytes q c) { handed s k (.vstf v a l sd g) p 0 seed with extra := [code, blen, len] }))

/-- R158, R159, R161: a vector load whose reads are all bound writes the active lanes of its register (or its mask), in lane order,
and leaves the sequencer.
R158, R161, R162: performing a vector store gives its waiting writes the bytes of the active lanes, in lane order, and the
entry leaves; VSTM stores the mask bits from the lane count on as 0 (log entry 44); VSTXA turns its writes into atomic additions of the lanes, and leaves once they are all performed. -/
def Obligations.VectorAccessesMoveTheirBytes : Prop :=
  (∀ (s : State) (k w : Nat) (e : SeqEntry) (rest : List SeqEntry) (h : Handed) (v iv : BitVec 6) (vm g m : BitVec 3)
     (a b : BitVec 5) (bs : List Byte), HeadIs s k e rest h → classWidth h.cls = w →
     boundBytes s (entryIds h) = some bs → (∀ y ∈ s.bound, y.id ∈ entryIds h → y.poisoned = false ∧ y.data ≠ []) →
     let n := laneCount w e.ganged
     let on := fun j => (if j < 1024 / w then h.mask else h.maskOdd).getLsbD (j % (1024 / w))
     let rank := fun j => ((List.range j).filter on).length
     let item := fun j => BitVec.ofNat w (leNat ((bs.drop (j * (w / 8))).take (w / 8)))
     let ends := fun (f : Nat → BitVec w) => ∃ t, exec (.sequencerEntryPerform k) s = .next t ∧ Done s t k rest ∧
       LanesAre s t k w e.ganged v f ∧ (slotAt t k).sc.fpflags = (slotAt s k).sc.fpflags ∧ ∀ y ∈ t.bound, y.id ∉ entryIds h
     (h.instr = .vld v a b g m ∨ h.instr = .vlds v a b g m ∨ h.instr = .vldx v a iv g m → bs.length = rank n * (w / 8) →
       ends (fun j => if on j then item (rank j) else lane s k w v j)) ∧
     (h.instr = .vldb v a b g m → bs.length = w / 8 → ends (fun j => if on j then BitVec.ofNat w (leNat bs) else lane s k w v j)) ∧
     (h.instr = .vldf v a b g → h.extra.getD 0 0 = 0 → bs.length = n * (w / 8) → ends item) ∧
     (h.instr = .vldm vm a b g → bs.length = (if e.ganged then 32 else 16) →
       ∃ t, exec (.sequencerEntryPerform k) s = .next t ∧ Done s t k rest ∧
         MaskIs s t k w e.ganged vm (fun j =>
           (leNat ((bs.drop (16 * (j / (1024 / w)))).take 16)).testBit (j % (1024 / w)))) ∧
     (h.instr = .vldf v a b g → ∀ code blen, h.extra = [code, blen] → code ≠ 0 → isMx code = false → h.cls < 2 →
       let wide := wideOf h.cls
       let elem := fun j => decodeRun code 1 [leNat bs / 2 ^ (elemWidth code * j) % 2 ^ elemWidth code] []
       let r := fun j => (widenRun wide (rmOf (slotAt s k).sc.fpmode.toNat) (elem j)).headD (0, 0)
       bs.length = n * elemWidth code / 8 → (∀ j < n, (r j).2 &&& enabledFlags s k = 0) →
       ∃ t, exec (.sequencerEntryPerform k) s = .next t ∧ Done s t k rest ∧
         LanesAre s t k w e.ganged v (fun j => BitVec.ofNat w (r j).1) ∧ FlagsFrom s t k n (fun _ => true) (fun j => (r j).2))) ∧
  (∀ (s : State) (k w : Nat) (e : SeqEntry) (rest : List SeqEntry) (h : Handed) (v iv : BitVec 6) (vm g m : BitVec 3)
     (a b : BitVec 5), HeadIs s k e rest h → classWidth h.cls = w → (entryIds h).Nodup →
     (∀ i ∈ entryIds h, ∃ y, evIn s.iq i = some y ∧ y.kind = .write) →
     let n := laneCount w e.ganged
     let on := fun j => (if j < 1024 / w then h.mask else h.maskOdd).getLsbD (j % (1024 / w))
     let act := (List.range n).filter on
     let sizes := (entryIds h).flatMap fun i => ((evIn s.iq i).map fun y => y.addrs).getD []
     let gives := fun (bytes : List Byte) => bytes.length = sizes.length →
       ∃ t, exec (.sequencerEntryPerform k) s = .next t ∧ Done s t k rest ∧
         ((entryIds h).flatMap fun i => ((evIn t.iq i).map fun y => y.data).getD []) = bytes ∧
         (∀ i ∈ entryIds h, (evIn t.iq i).map (fun y => y.addrs) = (evIn s.iq i).map (fun y => y.addrs)) ∧
         ∀ i ∉ entryIds h, evIn t.iq i = evIn s.iq i
     (h.instr = .vst v a b g m ∨ h.instr = .vsts v a b g m ∨ h.instr = .vstx v a iv g m →
       gives (act.flatMap fun j => leBytes (w / 8) (lane s k w v j).toNat)) ∧
     (h.instr = .vstm vm a b g → gives ((halvesOf k e.ganged).flatMap fun j =>
       leBytes 16 ((bankMask (bankOfSlot s j) vm).toNat % 2 ^ (1024 / w)))) ∧
     (h.instr = .vstxa v a iv g m → entryIds h ≠ [] → (entryIds h).length = act.length →
       (∀ i ∈ entryIds h, ∀ y, evIn s.iq i = some y → y.addrs.length = w / 8) →
       ∃ t, exec (.sequencerEntryPerform k) s = .next t ∧ SameBytes s t ∧ t.slots = s.slots ∧ t.cores = (unitTook s k).cores ∧
         ∀ q ∈ (entryIds h).zip act, ∃ y z, evIn s.iq q.1 = some y ∧ evIn t.iq q.1 = some z ∧ z.addrs = y.addrs ∧
           z.kind = .atomic .add (lane s k w v q.2).toNat 0) ∧
     ∀ (u : State) (bs : List Byte), HeadIs u k e rest h → h.instr = .vstxa v a iv g m →
       (∀ y ∈ u.iq, y.id ∈ entryIds h → y.kind ≠ .write) → boundBytes u (entryIds h) = some bs →
       (∀ y ∈ u.bound, y.id ∈ entryIds h → y.poisoned = false) →
       ∃ t, exec (.sequencerEntryPerform k) u = .next t ∧ Done u t k rest ∧ ∀ y ∈ t.bound, y.id ∉ entryIds h)

/-! ### Matrix, galleys, copies, tables -/

/-- R168, R186, R9: MSET, CPSET and their endpoint forms record what they are given with reserved bits cleared, and MGET and CPGET
return it; an endpoint register returns its pointer with the displacement added.
R197, R198: TBLOAD checks an image and parks with reason 0; at the end of the park the image is in its table slot, under the world that
loads it, and the slot goes on; TBINFO returns its bounds to that world only. -/
def Obligations.EngineRegistersAndTablesHoldTheirBits : Prop :=
  (∀ (s : State) (k : Nat) (a b : BitVec 5) (g : BitVec 3), OnCluster s k →
     let x := slotAt s k
     let v := rd s a
     let e : Endpoint := { seg := g, ptr := v, disp := b.toInt * 64 }
     let vec := fun (u : VecSt) => setSlot s k { x with vec := u }
     let eng := fun (u : EngineSt) => setSlot s k { x with eng := u }
     (x.ganged = false →
       Does (.mset 0 a) s (vec { x.vec with mkReg := v &&& 0xFFF }) ∧
       Does (.mset 1 a) s (vec { x.vec with mgal := v &&& 0x7777 }) ∧
       Does (.mset 3 a) s (vec { x.vec with mostr := v &&& 0xFFFFFF }) ∧
       Does (.mset 4 a) s (vec { x.vec with mofmt := v &&& 0xFFFFFFFF00000FFF }) ∧
       Does (.mset 5 a) s (vec { x.vec with motile := v &&& 0xFFFFFFFF }) ∧
       Does (.msetMout g a b) s (vec { x.vec with mout := e }) ∧
       Writes (.mget 0 a) s a x.vec.mkReg ∧ Writes (.mget 1 a) s a x.vec.mgal ∧
       Writes (.mget 2 a) s a (endpointAt x.vec.mout.ptr x.vec.mout.disp) ∧ Writes (.mget 3 a) s a x.vec.mostr ∧
       Writes (.mget 4 a) s a x.vec.mofmt ∧ Writes (.mget 5 a) s a x.vec.motile) ∧
     (x.ganged = true → Traps (.mset 0 a) s 0x01 (s.word.setWidth 64) ∧ Traps (.mget 0 a) s 0x01 (s.word.setWidth 64)) ∧
     Does (.cpsetEndpoint 0 g a b) s (eng { x.eng with cpsrc := e }) ∧
     Does (.cpsetEndpoint 1 g a b) s (eng { x.eng with cpdst := e }) ∧
     Writes (.cpget 0 a) s a (endpointAt x.eng.cpsrc.ptr x.eng.cpsrc.disp) ∧
     Writes (.cpget 1 a) s a (endpointAt x.eng.cpdst.ptr x.eng.cpdst.disp) ∧
     ∀ r : BitVec 5, ∀ h : r.toNat < 17, 2 ≤ r.toNat →
       Writes (.cpget r a) s a x.eng.cp[r.toNat] ∧
       Does (.cpset r a) s (eng { x.eng with cp := x.eng.cp.set r.toNat (v &&&
         (if r.toNat ≤ 5 then 0xFFFFFF else if r.toNat ≤ 11 then 0xFFFFFFFFFFFF else if r.toNat = 12 then 0xFFFFFFFF0007FFFF
          else if r.toNat = 13 ∨ r.toNat = 15 then 0xF else if r.toNat = 14 then 0xFFFFFFFFFFFF else BitVec.allOnes 64)) h })) ∧
  (∀ (s : State) (k : Nat) (q : BitVec 2) (g : BitVec 3) (a b : BitVec 5), OnCluster s k →
     let core := coreOfSlot k
     let bs := localBytes s k (cvaOf s g (rd s a) (b.toInt * 64)) 3104
     (LocalBlock s k g (rd s a) (b.toInt * 64) 3104 64 1 → Quiet s k →
       (tableOk bs = true → Parks (.tbload q g a b) s k .memory false (.table q.toNat bs) ∧
         ∀ u : State, (slotAt u k).park = some { reason := .memory, abandon := false, cont := .table q.toNat bs } → u.cur = .slot k →
           NotHeld u k → ∃ t, exec (.memoryReply k) u = .next t ∧ SameBytes u t ∧ SameRegs u t ∧ GoneOn u t ∧
             (slotAt t k).state = .ready ∧ (slotAt t k).park = none ∧
             (coreAt t core).tables = insert (coreAt u core).tables q.toNat { world := (slotAt u k).world, image := bs }) ∧
       (tableOk bs = false → Traps (.tbload q g a b) s 0x19 0)) ∧
     Writes (.tbinfo q a) s a (match lookup (coreAt s core).tables q.toNat with
       | some t => if t.world = (slotAt s k).world then
           w64 (leNat ((t.image.drop 4).take 4) * 2 ^ 32 + leNat (t.image.take 4)) else 0
       | none => 0))

/-- R169 to R176, R184: the galley commands. GLSET configures from a descriptor that R170 admits or frees with one of zeros; the
reads return; GLPOPD and GLFLUSH drop entries, or wait while an instruction or a transfer holds them; a push writes the entry at the
tail with its tag unless one of the same clock that comes after it stands there (R173); GLPOPD waits while any transfer runs into the
galley (log entry 40); a full ring waits, and the wait of a push ends
when there is room: the instruction is then done (R30). -/
def Obligations.GalleyCommandsComplete : Prop :=
  ∀ (s : State) (k : Nat) (n : BitVec 3) (a b : BitVec 5) (g : BitVec 3) (w : BitVec 2) (v : BitVec 6), OnCluster s k →
    (slotAt s k).ganged = false →
    let x := slotAt s k
    let core := coreOfSlot k
    let i := n.toNat
    let put := fun (u : State) (y : Option Galley) => setCore u core { coreAt u core with
      galleys := match y with | some z => insert (coreAt u core).galleys i z | none => erase (coreAt u core).galleys i }
    let free := heldByMatrix s core i = false ∧ heldByNeighbour s core i = false ∧ heldByCopy s core i = false
    let bs := localBytes s k (cvaOf s g (rd s a) (b.toInt * 64)) 32
    let turn := fun (u : State) (y : Galley) => ∀ c r, y.pushed = some (c, r) → c = u.cycle → r ≤ 18 + k % 16
    (LocalBlock s k g (rd s a) (b.toInt * 64) 32 32 1 → Quiet s k → free →
      (∀ y, galleyAt s core i = some y → y.tags = [] ∧ (y.world = x.world ∨ ∀ c ∈ bs, c = 0)) →
      ((∀ c ∈ bs, c = 0) → Does (.glset n g a b) s (put s none)) ∧
      (galleyOk bs = true → (∃ c ∈ bs, c ≠ 0) →
        ringScratch s (clusterOfSlot k) (galleyOf bs 0).base ((galleyOf bs 0).size * (galleyOf bs 0).count) = true →
        Does (.glset n g a b) s (put s (some (galleyOf bs x.world)))) ∧
      (galleyOk bs = false → (∃ c ∈ bs, c ≠ 0) → Traps (.glset n g a b) s 0x0F (w64 (i + 16 * 6)))) ∧
    Writes (.glget n w a) s a (match galleyAt s core i with | some y => y.raw[w.toNat]'(w.isLt) | none => 0) ∧
    Writes (.glhead n a) s a (match galleyAt s core i with
      | some y => if y.world = x.world then
          w64 (y.tags.length + 2 ^ 8 * y.head + 2 ^ 16 * ((y.head + y.tags.length) % y.count) + 2 ^ 24 +
            (if y.bitmap then 2 ^ 25 else 0)) else 0
      | none => 0) ∧
    (galleyAt s core i = none → Traps (.glpopd n a) s 0x0F (w64 i) ∧ Traps (.gltagRead n a) s 0x0F (w64 i) ∧
      Traps (.gltagWrite n a) s 0x0F (w64 i) ∧ Traps (.glflush n) s 0x0F (w64 i)) ∧
    ∀ y, galleyAt s core i = some y → (y.world ≠ x.world → Traps (.glpopd n a) s 0x0F (w64 (i + 16))) ∧ (y.world = x.world →
      Writes (.gltagRead n a) s a (match y.tags with | t :: _ => w64 t | [] => w64 (2 ^ 63)) ∧
      (let t := (rd s a).toNat % 2 ^ 36
       (tagOk t = true → Does (.gltagWrite n a) s (put s (some { y with pushTag := t }))) ∧
       (tagOk t = false → Traps (.gltagWrite n a) s 0x0A (w64 (tagOf (tagBlk t) 0 (tagSeed t))))) ∧
      (y.tags = [] → Writes (.glpopd n a) s a 1) ∧
      (heldByMatrix s core i = false → heldByCopy s core i = false → y.tags ≠ [] →
        DoesAnd (.glpopd n a) s (put s (some { y with head := (y.head + 1) % y.count, tags := y.tags.drop 1 })) a 0) ∧
      (free → Does (.glflush n) s (put s (some { y with head := (y.head + y.tags.length) % y.count, tags := [] }))) ∧
      (heldByMatrix s core i = true ∨ heldByCopy s core i = true → y.tags ≠ [] →
        Parks (.glpopd n a) s k .galley false (.galley i 1)) ∧
      (¬ free → Parks (.glflush n) s k .galley false (.galley i 2)) ∧
      (let lanes := 1024 / classWidth x.vec.vtype
       let regs := 32 * x.vec.mkReg.toNat / lanes
       vecHidden x = false → x.vec.bank ≠ none → y.bitmap = false → elemWidth y.fmt = classWidth x.vec.vtype →
       isMx y.fmt = false → x.vec.mkReg ≠ 0 → 32 * x.vec.mkReg.toNat % lanes = 0 → v.toNat + regs ≤ 64 →
       32 * x.vec.mkReg.toNat * elemWidth y.fmt / 8 ≤ y.size → x.vec.seq = [] →
       (y.tags.length < y.count → turn s y →
         let bytes := lanesBytes (elemWidth y.fmt) ((List.range regs).flatMap fun q =>
           laneList (elemWidth y.fmt) (bankReg (bankOfSlot s k) (v.toNat + q)))
         Does (.glpushv n v) s (put { setSlot s k { x with vec := { x.vec with
             recent := (handed s k (.glpushv n v) 0 0 0 :: x.vec.recent).take 16 } } with
           mem := memWriteBytes s.mem (flatScratch (clusterOfSlot k) (y.base + y.size * ((y.head + y.tags.length) % y.count)))
             (bytes.take y.size) } (some { y with tags := y.tags ++ [y.pushTag],
                                                   pushed := some (s.cycle, 18 + k % 16) }))) ∧
       (y.count ≤ y.tags.length → Parks (.glpushv n v) s k .galley false (.galley i 0)))) ∧
    ∀ u : State, ∀ r q, (slotAt u k).park = some { reason := r, abandon := q, cont := .galley i 0 } →
      lookup u.slots k = some (slotAt u k) → galleyAt u core i = some y → y.tags.length < y.count → turn u y →
      ∃ t, exec (.galleySpaceFreed core i) u = .next t ∧
        slotAt t k = { slotAt u k with park := some { reason := r, abandon := q, cont := .resume } } ∧ SameBytes u t

/-- R178 to R181, R36, R39, R72: a matrix instruction is handed over and parks its slot with reason 2; the engine takes it with its head entries
once its checks pass, writes the product when its clocks are over, pops both entries, and lets the slot go on; an enabled flag
leaves tile and galleys as they were. MZERO zeroes a tile.
R183: MMAS does the same on entries in bitmap mode, where absent elements add nothing. R92: tags that agree pass, and others take 0x09 at the
instruction. R172, R72, R73: an integer product is the sum of the products of the codes, without block scales; a floating one whose groups
the accumulator holds exactly is that number. R185: with out, the rows are written after the product, in order, as events of the slot.
R184: after its product, an MMR pushes its A entry to the west and its B entry to the north neighbour, each in a step of its
own that waits for room; the entry keeps its bytes and its tag. -/
def Obligations.MatrixInstructionsRunAndPush : Prop :=
  (∀ (s : State) (k : Nat) (o c z : BitVec 1), k < 2 ^ 15 →
     let x := slotAt s k
     let core := coreOfSlot k
     (VecReady s k → x.ganged = false → HandsOver (.mzero z) s k 0 0 0 ∧
       ∀ i, (i = .mma o c z ∨ i = .mmas o c z ∨ i = .mmr o c z) →
         ∃ t h, exec i s = .next t ∧ SameBytes s t ∧ ParkedAs s t k .matrix false .matrix ∧
           h.instr = i ∧ h.pc = pc s ∧ h.sa = x.vec.mout.ptr ∧
           h.extra = [x.vec.mkReg.toNat, x.vec.mgal.toNat, x.vec.mostr.toNat, x.vec.mofmt.toNat, x.vec.motile.toNat,
             x.sc.fpmode.toNat % 4, x.vec.mout.seg.toNat, (ofInt x.vec.mout.disp).toNat] ∧
           (slotAt t k).vec.seq = x.vec.seq ++ [{ body := [h], step := 0, next := 0, last := 0, at_ := 0, pc := pc s,
                                                  ganged := false }] ∧
           (x.vec.seq = [] → x.vec.frozen = false → (∀ q ∈ (coreAt s core).matrixQueue, q.2 ≠ k ∧ q.1 < s.cycle) →
             (coreAt s core).matrixRun = none →
             (coreAt t core).matrixQueue = (coreAt s core).matrixQueue ++ [(s.cycle, k)])) ∧
     (∀ e rest h, HeadIs s k e rest h → h.instr = .mzero z →
       ∃ t, exec (.sequencerEntryPerform k) s = .next t ∧ Done s t k rest ∧ ∀ j ∈ halvesOf k e.ganged, ∀ r : BitVec 6,
         bankReg (bankOfSlot t j) r.toNat = if r.toNat / 32 = z.toNat then 0 else bankReg (bankOfSlot s j) r.toNat) ∧
     (∀ e rest h rq a b kc ta tb la lb, ∀ c0 < s.cycle, (coreAt s core).matrixRun = none →
       (coreAt s core).matrixQueue = (c0, k) :: rq → (∀ q ∈ rq, q.2 ≠ k) →
       x.vec.seq = e :: rest → e.body[e.at_]? = some h → (h.instr = .mma 0 c z ∨ h.instr = .mmas 0 c z) →
       (∃ q, (q = .matrix ∨ q = .matrixAgain) ∧ x.park = some { reason := .matrix, abandon := false, cont := q }) →
       let K := h.extra.getD 0 0
       let ga := h.extra.getD 1 0 % 8
       let gb := h.extra.getD 1 0 / 16 % 8
       ga ≠ gb → galleyAt s core ga = some a → galleyAt s core gb = some b → a.world = x.world → b.world = x.world →
       let sparse := h.instr = .mmas 0 c z
       let fits := fun (g : Galley) => (isMx g.fmt = true → K % blockLen g.blen = 0) ∧
         (if sparse then 32 * K / 8 else 0) + (32 * K * elemWidth g.fmt / 8 + if isMx g.fmt then 32 * K / blockLen g.blen else 0) ≤ g.size
       (a.bitmap = true ↔ sparse) → (b.bitmap = true ↔ sparse) → pairKc a.fmt b.fmt (c == 1) = some kc →
       0 < K → K ≤ 2048 → K % kc = 0 → (sparse → K % 8 = 0) → fits a → fits b →
       ringScratch s (clusterOfSlot k) a.base (a.size * a.count) = true →
       ringScratch s (clusterOfSlot k) b.base (b.size * b.count) = true → a.tags = ta :: la → b.tags = tb :: lb →
       let blk := fun (t : Nat) => t / 2 ^ 34 % 4
       let alike := blk ta = blk tb ∧ ta % 2 ^ 32 = tb % 2 ^ 32 ∧ ta / 2 ^ 32 % 4 = 0 ∧ tb / 2 ^ 32 % 4 = 0
       (blk ta = 0 ∧ blk tb = 0 ∨ alike ∧ K % 4 ^ (blk ta + 1) = 0 →
         ∃ t n, exec (.matrixStart core) s = .next t ∧ SameBytes s t ∧ (coreAt t core).matrixQueue = rq ∧
           (coreAt t core).galleys = (coreAt s core).galleys ∧
           (coreAt t core).matrixRun = some { slot := k, run := h, pushWest := false, pushNorth := false, productDone := false,
                                              due := s.cycle + n, outs := [], tile := none, offs := [], flags := 0 } ∧
           (¬ sparse → n = K / kc) ∧ 1 ≤ n ∧ n ≤ K / kc ∧
           (slotAt t k).vec = x.vec ∧ (slotAt t k).park = x.park ∧ ∀ j ≠ k, slotAt t j = slotAt s j) ∧
       (¬ (blk ta = 0 ∧ blk tb = 0) →
         ∃ u, SameBytes s u ∧ u.cur = .slot k ∧ (slotAt u k).sc = { x.sc with pc := h.pc } ∧ (slotAt u k).vec.seq = rest ∧
           (coreAt u core).galleys = (coreAt s core).galleys ∧ (coreAt u core).banks = (coreAt s core).banks ∧
           (¬ alike → exec (.matrixStart core) s = .next (takeTrap u 0x09 (w64 (ta % 2 ^ 36 + ga * 2 ^ 36 + gb * 2 ^ 39)))) ∧
           (alike → K % 4 ^ (blk ta + 1) ≠ 0 →
             exec (.matrixStart core) s = .next (takeTrap u 0x0A (w64 (blk ta * 2 ^ 34 + ta % 2 ^ 32)))))) ∧
     ∀ r a b e rest, (coreAt s core).matrixRun = some r → r.slot = k → r.productDone = false → r.due ≤ s.cycle →
       (∃ c z, r.run.instr = .mma 0 c z ∨ r.run.instr = .mmas 0 c z ∨
         (r.run.instr = .mma 1 c z ∧ r.run.extra.getD 3 0 % 32 = (if c = 1 then 6 else 7) ∧
           r.run.extra.getD 3 0 / 2 ^ 11 % 2 = 0 ∧ 0 < r.run.extra.getD 0 0 ∧ r.outs.length = 32 ∧
           ∀ row ∈ r.outs, (row.map fun v => v.addrs.length).sum = 128)) →
       ((∃ c z, r.run.instr = .mma 1 c z) ∨ r.outs = []) → r.tile = none → galA r.run ≠ galB r.run →
       galleyAt s core (galA r.run) = some a → galleyAt s core (galB r.run) = some b → a.tags ≠ [] → b.tags ≠ [] →
       x.vec.seq = e :: rest → e.body = [r.run] → e.at_ = 0 → e.next = e.last → BanksOk s k false →
       let p := runProduct s core r a b
       (p.2 &&& enabledFlags s k ≠ 0 →
         ∃ t, exec (.matrixComplete core) s = .next t ∧ SameBytes s t ∧ (coreAt t core).galleys = (coreAt s core).galleys ∧
           (coreAt t core).banks = (coreAt s core).banks ∧ (coreAt t core).matrixRun = none ∧ (slotAt t k).vec.seq = e :: rest ∧
           (slotAt t k).vec.frozen = true ∧ (slotAt t k).vec.deferred = some (0x108 + 512 * p.2.toNat, r.run.pc)) ∧
       (p.2 &&& enabledFlags s k = 0 →
         ∃ t, exec (.matrixComplete core) s = .next t ∧ SameBytes s t ∧ (coreAt t core).matrixRun = none ∧
           (∀ q : BitVec 6, bankReg (bankOfSlot t k) q.toNat = if q.toNat / 32 = mxTile r.run then
             packLanes 32 (p.1.getD (q.toNat % 32) []) else bankReg (bankOfSlot s k) q.toNat) ∧
           (slotAt t k).sc.fpflags = (slotAt s k).sc.fpflags ||| p.2.setWidth 64 ∧ (slotAt t k).vec.seq = rest ∧
           (∃ evs, t.iq = s.iq ++ evs ∧ evs.map (·.addrs) = r.outs.flatten.map (·.addrs) ∧
             evs.map (·.kind) = r.outs.flatten.map (·.kind) ∧ (∀ v ∈ evs, s.nextId ≤ v.id) ∧
             (r.outs ≠ [] → (evs.map (·.data)).flatten = p.1.flatten.flatMap (leBytes 4))) ∧
           galleyAt t core (galA r.run) = some { a with head := (a.head + 1) % a.count, tags := a.tags.drop 1 } ∧
           galleyAt t core (galB r.run) = some { b with head := (b.head + 1) % b.count, tags := b.tags.drop 1 } ∧
           (NotHeld s k → (∃ q ab, x.park = some { reason := q, abandon := ab, cont := .matrix }) →
             (slotAt t k).state = .ready ∧ (slotAt t k).park = none))) ∧
  (∀ (s : State) (core : Nat) (r : MatrixRun) (a b : Galley) (o z : BitVec 1),
     let K := r.run.extra.getD 0 0
     let p := runProduct s core r a b
     let out := fun (i j : Nat) => (p.1.getD i []).getD j 0
     let acc0 := fun (i j : Nat) => el 32 (bankReg (bankOfSlot s r.slot) (32 * z.toNat + i)) j
     let both := fun (i j x : Nat) => isPresent s core a K i x && isPresent s core b K j x
     0 < K → K ≤ 2048 → (a.bitmap = true ∨ b.bitmap = true → K % 8 = 0) →
     ((r.run.instr = .mma o 1 z ∨ r.run.instr = .mmas o 1 z) → a.fmt ∈ [1, 20] → b.fmt ∈ [1, 20] → K % 8 = 0 →
       let byte := fun (g : Galley) (v x : Nat) => (BitVec.ofNat 8 (codeOf s core g K v x)).toInt
       let old := fun (i j : Nat) => (BitVec.ofNat 32 (acc0 i j)).toInt
       let small := fun (i j : Nat) => -(2 ^ 31) ≤ old i j - K * 2 ^ 14 ∧ old i j + K * 2 ^ 14 < 2 ^ 31
       (∀ i < 32, ∀ j < 32, small i j → out i j = (BitVec.ofInt 32 (old i j +
         ((List.range K).map fun x => if both i j x then byte a i x * byte b j x else 0).sum)).toNat) ∧
       ((∀ i < 32, ∀ j < 32, small i j) → p.2 = 0)) ∧
     ((r.run.instr = .mma o 0 z ∨ r.run.instr = .mmas o 0 z) → a.fmt = b.fmt → a.fmt ∈ [8, 9, 15] →
       (a.fmt = 15 → K % blockLen a.blen = 0 ∧ K % blockLen b.blen = 0) →
       let f := if a.fmt = 8 then fp16 else if a.fmt = 9 then bf16 else e4m3
       let kc := if a.fmt = 15 then 8 else 4
       let one : Int := oneUnits f * if a.fmt = 15 then 2 ^ 127 else 1
       let val := fun (g : Galley) (v x : Nat) => unitsOf f (codeOf s core g K v x) * if a.fmt = 15 then 2 ^ scaleOf s core g K v x else 1
       let plain := fun (g : Galley) => ∀ v < 32, ∀ x < K, if a.fmt = 15
         then codeOf s core g K v x % 2 ^ 7 ≠ 2 ^ 7 - 1 ∧ scaleOf s core g K v x ≠ 0xFF else IsFinite f (codeOf s core g K v x)
       K % kc = 0 → plain a → plain b → ∀ i < 32, ∀ j < 32, ∀ acc : Nat → Nat, acc 0 = acc0 i j → IsFinite fp32 (acc 0) →
         (∀ n < K / kc, IsFinite fp32 (acc (n + 1)) ∧ unitsOf fp32 (acc (n + 1)) ≠ 0 ∧
           (unitsOf fp32 (acc (n + 1)) - unitsOf fp32 (acc n)) * (one * one) = oneUnits fp32 *
             ((List.range kc).map fun x =>
               if both i j (n * kc + x) then val a i (n * kc + x) * val b j (n * kc + x) else 0).sum) →
         out i j = acc (K / kc))) ∧
  (∀ (s : State) (core : Nat) (north : Bool) (r : MatrixRun) (g x : Galley), core < 2048 → (coreAt s core).matrixRun = some r →
     r.productDone = true → r.pushWest = true → r.pushNorth = true →
     let own := if north then galB r.run else galA r.run
     let dest := if north then core - core % 16 + (core % 16 + 12) % 16 else core - core % 4 + (core % 4 + 3) % 4
     let n := if north then galN r.run else galW r.run
     galleyAt s core own = some g → galleyAt s dest n = some x →
     let rank := if north then 17 else 16
     (x.tags.length < x.count → (∀ c q, x.pushed = some (c, q) → c = s.cycle → q ≤ rank) → MemoryOk s → g.size ≤ x.size →
       ∃ t, exec (.mmrNeighbourPush core north) s = .next t ∧
         galleyAt t dest n = some { x with tags := x.tags ++ [g.tags.headD 0], pushed := some (s.cycle, rank) } ∧
         (coreAt t core).matrixRun = some (if north then { r with pushNorth := false } else { r with pushWest := false }) ∧
         BytesAt s t (flatScratch (core / 16) (x.base + x.size * ((x.head + x.tags.length) % x.count)))
           (memReadBytes s.mem (flatScratch (core / 16) (g.base + g.size * g.head)) g.size)) ∧
     (x.count ≤ x.tags.length → ∃ t, exec (.mmrNeighbourPush core north) s = .next t ∧ SameBytes s t ∧ t.cores = s.cores))

/-- R190, R191, R193 to R195: a launch claims an idle channel and starts its transfer, once its fence holds, with a fresh identifier
in the register, and until then waits with its claim; a busy channel answers 0; the commands that watch a channel answer to its world only; CPCANCEL ends a running
transfer, and CPWAITID parks while it runs and answers how it ended. -/
def Obligations.CopyCommandsComplete : Prop :=
  ∀ (s : State) (k : Nat) (a b : BitVec 5), OnCluster s k →
    let x := slotAt s k
    let cl := clusterOfSlot k
    let ch := (rd s b).toNat % 16
    let c := chanAt s cl ch
    let mine := c.id ≠ 0 ∧ c.job.world = x.world
    let lch := (x.eng.cp.toList.getD 15 0).toNat % 16
    let lc := chanAt s cl lch
    (lc.state = .running ∨ lc.claim.isSome = true → Writes (.cplaunch a) s a 0) ∧
    (∀ j, lc.state ≠ .running → lc.claim = none → resolveJob s = .ok j → (∀ e ∈ s.iq, e.thread ≠ k) →
      (∀ e ∈ s.transit, e.thread = k → writePerformed .system e = true) → j.total ≠ 0 →
      (∀ q ∈ (clusterAt s cl).chans, ∀ y, q.2.claim = some y → y.1 ≠ k) →
      let seq := if lc.seq = 4095 then 1 else lc.seq + 1
      DoesAnd (.cplaunch a) s (setChan { s with nextId := s.nextId + 1 } cl lch
        { Chan.reset with seq := seq, state := .running, id := lch * 4096 + seq, job := j }) a (w64 (lch * 4096 + seq))) ∧
    (∀ j, lc.state ≠ .running → lc.claim = none → resolveJob s = .ok j → (∃ e ∈ s.iq, e.thread = k ∧ e.id < s.nextId) →
      ∃ t e, exec (.cplaunch a) s = .next t ∧ ParkedAs s t k .memory false (.launch a s.nextId) ∧ SameBytes s t ∧
        chanAt t cl lch = { lc with claim := some (k, j) } ∧ t.iq = s.iq ++ [e] ∧ e.id = s.nextId ∧ e.thread = k ∧ e.kind = .fence ∧
        e.order = .release) ∧
    (∀ j n i r, x.park = some { reason := r, abandon := false, cont := .launch a i } → NotHeld s k → (∀ e ∈ s.iq, e.id ≠ i) →
      n < 16 → (∃ y, y.claim = some (k, j) ∧ (n, y) ∈ (clusterAt s cl).chans ∧ chanAt s cl n = y) → j.total ≠ 0 →
      (∀ q ∈ (clusterAt s cl).chans, ∀ y, q.2.claim = some y → y.1 = k → q = (n, chanAt s cl n)) →
      let was := (chanAt s cl n).seq
      let seq := if was = 4095 then 1 else was + 1
      ∃ t, exec (.memoryReply k) s = .next t ∧ RegIs s t a (w64 (n * 4096 + seq)) ∧ GoneOn s t ∧ (slotAt t k).state = .ready ∧
        (slotAt t k).park = none ∧ SameBytes s t ∧
        chanAt t cl n = { Chan.reset with seq := seq, state := .running, id := n * 4096 + seq, job := j }) ∧
    Writes (.cpwp a b) s a (if c.id ≠ 0 ∧ c.job.world = x.world then w64 (chanWp s cl ch) else 0) ∧
    Writes (.cpstat a b) s a (if c.id ≠ 0 ∧ c.job.world = x.world then
      w64 (c.cause % 256 * 2 ^ 24 + c.flags.toNat * 2 ^ 18 + chanCode c * 2 ^ 16 + c.id) else 0) ∧
    (c.id ≠ 0 → c.job.world ≠ x.world → Writes (.cpcancel a b) s a 2) ∧
    (mine → c.state ≠ .running → Writes (.cpcancel a b) s a 1) ∧
    (mine → c.state = .running → (∀ e ∈ s.transit, e.thread ≠ chanThread cl ch) → ∃ t, exec (.cpcancel a b) s = .next t ∧ RegIs s t a 0 ∧ (chanAt t cl ch).state = .cancelled) ∧
    (let id := (rd s a).toNat % 2 ^ 16
     let d := chanAt s cl (id / 4096)
     (d.id ≠ id ∨ id % 4096 = 0 ∨ d.job.world ≠ x.world → Writes (.cpwaitid a) s a 3) ∧
     (d.id = id → id % 4096 ≠ 0 → d.job.world = x.world →
       (d.state = .running → Parks (.cpwaitid a) s k .copy true (.transfer id)) ∧ (d.state = .idle → Writes (.cpwaitid a) s a 0) ∧
       (d.state = .faulted → Writes (.cpwaitid a) s a 1) ∧ (d.state = .cancelled → Writes (.cpwaitid a) s a 2)))

/-- R191, R192, R193, R196: a running channel writes its next destination bytes, in its order, or stops with a cause. The bytes for local
memory that stand ready leave it chunk by chunk, each to the address of its place in the destination's order, and every other byte of
memory is as it was; a copy of bytes from local memory that has none ready reads its next elements from there. That an event reads one unit
or writes one chunk is the model's choice (log entry 39). The end of the transfer sets the copy event and queues the completion, and
the interrupt enters the handler. -/
def Obligations.CopyTransfersRun : Prop :=
  ∀ (s : State) (k cl ch : Nat),
    let x := slotAt s k
    let c := chanAt s cl ch
    let at_ := fun (i : Nat) => flatLocal c.job.core (byteCva c.job i)
    (MemoryOk s → c.state = .running → c.waiting = false → c.job.dst.kind = 0 → c.job.dst.tile = none → isMx c.job.dst.fmt = false →
      c.entryScales = [] →
      let n := readyRun (byteCva c.job) 16 c.written c.entryBytes.length c.job.bytes
      let last := fun (b : Nat) => (List.range n).reverse.find? fun i => at_ (c.written + i) == b
      0 < n → (∀ i < n, lineOpens s c.job.dst.dom (at_ (c.written + i)) = true) →
      ∃ t, exec (.copyWrite cl ch) s = .next t ∧ t.slots = s.slots ∧
        (∀ b, memRead t.mem b = match last b with | some i => c.entryBytes.getD i 0 | none => memRead s.mem b) ∧
        (∀ i < n, (∀ j < n, at_ (c.written + j) = at_ (c.written + i) → j = i) →
          memRead t.mem (at_ (c.written + i)) = c.entryBytes.getD i 0) ∧
        chanAt t cl ch = { c with entryBytes := c.entryBytes.drop n, written := c.written + n }) ∧
    (∀ u, c.state = .running → c.waiting = false → (deliverUnit s cl ch).2 = .ok u → exec (.copyWrite cl ch) s = .next u) ∧
    (∀ u n, c.state = .running → c.waiting = false → deliverUnit s cl ch = (u, .error (.cause n)) →
      exec (.copyWrite cl ch) s = .next (endTransfer u cl ch .faulted n)) ∧
    (let j := c.job
     let n := c.written + c.entryBytes.length
     let from_ := fun (i : Nat) => flatLocal j.core (((j.src.base : Int) + (coordAt j (n + i)).1 +
       (coordAt j (n + i)).2.1 * j.srcStride 1 + (coordAt j (n + i)).2.2.1 * j.srcStride 2 +
       (coordAt j (n + i)).2.2.2 * j.srcStride 3).toNat)
     c.state = .running → c.waiting = false → j.dst.kind = 0 → j.src.kind = 0 → j.src.tile = none → j.src.fmt ∈ [0, 1, 2] → j.dst.fmt = j.src.fmt →
     j.srcMorton = false → j.dstMorton = false → j.group = 1 → j.same = true → c.entryScales = [] →
     readyRun (byteCva j) 16 c.written c.entryBytes.length j.bytes = 0 → n < j.total → 0 < unitLen j n →
     (∀ i < unitLen j n, lineOpens s j.src.dom (from_ i) = true) →
     ∃ t, exec (.copyWrite cl ch) s = .next t ∧ SameBytes s t ∧ t.slots = s.slots ∧
       chanAt t cl ch = { c with entryBytes := c.entryBytes ++ (List.range (unitLen j n)).map fun i => memRead s.mem (from_ i) }) ∧
    (c.state = .running → c.written = c.job.bytes → chanWp s cl ch = c.job.bytes →
      ∃ t, exec (.copyTransferEnd cl ch) s = .next t ∧ (chanAt t cl ch).state = .idle ∧ SameBytes s t) ∧
    (let n := c.job.bytes
     let j := c.job.slot
     c.state = .running → c.written = n → chanWp s cl ch = n → j < 2 ^ 15 → c.job.regs.toList.getD 14 0 ≠ 0 →
     (slotAt s j).eng.queue.length < 4 → (∀ y ∈ (slotAt s j).eng.queue, y.clock = s.cycle → y.chan ≤ ch) → (slotAt s j).park = none →
     ∃ t, exec (.copyTransferEnd cl ch) s = .next t ∧ (chanAt t cl ch).state = .idle ∧
       (slotAt t j).eng.pend = (slotAt s j).eng.pend ||| 18 ∧
       (slotAt t j).eng.queue = (slotAt s j).eng.queue ++ [{
         xfer := c.id, handler := (c.job.regs.toList.getD 14 0).toNat, depth := c.job.depth, clock := s.cycle }]) ∧
    ∀ e rest, x.eng.queue = e :: rest → x.tr.tl = 0 → x.sc.uienEn = true → hdepth x = e.depth → x.vec.deferred = none →
      x.unwind = none → (x.ganged = true → k % 2 = 0) → NotHeld s k →
      (x.state = .ready ∧ x.park = none ∨
        x.state = .parked ∧ ∃ r i, x.park = some { reason := r, abandon := true, cont := .transfer i }) →
      ∃ t, exec (.completionInterrupt k) s = .next t ∧ SameBytes s t ∧ (∀ j ≠ k, slotAt t j = slotAt s j) ∧
        (slotAt t k).sc = { x.sc with uepc := x.sc.pc, xferid := w64 e.xfer, uienEn := false, uienAct := true, pc := w64 e.handler } ∧
        (x.eng.pending = 0 → (slotAt t k).eng.queue = rest)

/-! ### Tiles -/

/-- R201 to R206, R209, R259, R263, R266, R267, R255, R273: TREG registers a record that passes its checks, TFREE frees an unused tile and parks
while pages of its published version are copied into the frames that its entries name (R352), and an invalid handle traps. TSTAT and TVER read.
A tenure request is answered at once, waits, or is refused with its code; that codes 5 and 4 come before code 3 of a split tile, and that a
standing `.nw` request counts for them, is the model's choice (log entry 84). TREL, PUBLISH and TABND end a tenure; tokens move to the cluster that
lacks them, and a request that reached the home 256 clocks ago becomes persistent unless its cluster has one. -/
def Obligations.TenuresAreGrantedAndReleased : Prop :=
  ∀ (s : State) (k p i : Nat) (t : Tile) (a b : BitVec 5) (g : BitVec 3) (w : BitVec 1), OnCluster s k →
    let x := slotAt s k
    let h := (rd s a).toNat % 2 ^ 32
    let cl := clusterOfSlot k
    let tok := lookupD t.tokens cl 0
    (let bs := localBytes s k (cvaOf s g (rd s a) (b.toInt * 64)) 64
     let y := recShape bs
     let base := recField bs 0 8
     LocalBlock s k g (rd s a) (b.toInt * 64) 64 64 1 → Quiet s k → fmtOk y.fmt y.blen = true →
     recTagOk y (recField bs 42 5 % 2 ^ 36) = true → recOk bs y = true → partOfSlot s k = some p →
     ∀ s2 pages q, footPages s p ((List.range (y.ext / 4096)).map fun j => base + 4096 * j) = .ok (s2, pages) →
       s2.cur = s.cur → scOf s2 s.cur = scOf s s.cur → partOfSlot s2 k = some p → partAt s2 p = some q →
       (∀ e ∈ q.tiles, ∀ z, e.2.tile = some z → z.base + z.ext ≤ base ∨ base + y.ext ≤ z.base) → freeIndex q < 2 ^ q.tileLog2 →
       ∃ u z, exec (.treg g a b) s = .next u ∧ RegIs s u a (w64 (genOf q (freeIndex q) * 2 ^ 20 + freeIndex q)) ∧
         tileAt u p (freeIndex q) = some z ∧ z.base = base ∧ z.ext = y.ext ∧ z.state = 0 ∧ z.version = 0 ∧
         z.basePages = pages ∧ z.shadow = none ∧ z.requests = [] ∧ z.pins = [] ∧ lookupD z.tokens cl 0 = 64) ∧
    (liveTile s h = none → Traps (.tfree a) s 0x0B (w64 h) ∧ Traps (.tacqr w a b) s 0x0B (w64 h) ∧
      Traps (.tacqw w a) s 0x0B (w64 h) ∧ Traps (.trel a) s 0x0B (w64 h) ∧ Traps (.tabnd a) s 0x0B (w64 h) ∧
      Traps (.tver a) s 0x0B (w64 h) ∧ Writes (.tstat a b) s a (BitVec.allOnes 64)) ∧
    (liveTile s h = some (p, i, t) → tileAt s p i = some t → tileHandle s p i = h →
      let own := t.owner = x.world ∨ x.world % 64 = 0
      (¬ own → Writes (.tfree a) s a 3) ∧ (own → t.state = 2 → Writes (.tfree a) s a 2) ∧
      (own → t.state ≠ 2 → (t.shadow.isSome = true ∨ t.pins ≠ []) → Writes (.tfree a) s a 1) ∧
      (own → t.state ≠ 2 → t.shadow = none → t.pins = [] → t.requests = [] → ∀ ix, tileIx s p i = some ix → ix.gen ≠ 4095 →
        let moved := pagesToReturn s p t
        ∃ u, exec (.tfree a) s = .next u ∧ tileIx u p i = some { ix with gen := ix.gen + 1, tile := none } ∧
          (moved = [] → RegIs s u a 0 ∧ SameBytes s u) ∧
          (moved ≠ [] → (slotAt u k).state = .parked ∧ (slotAt u k).sc = x.sc ∧
            (slotAt u k).park = some { reason := .memory, abandon := false, cont := .reply a 0 } ∧
            (MemoryOk s → (moved.map (·.2)).Nodup → (∀ q ∈ moved, q.1 % 4096 = 0 ∧ q.2 % 4096 = 0 ∧ ∀ r ∈ moved, q.2 ≠ r.1) →
              ∀ q ∈ moved, ∀ j < 4096, memRead u.mem (q.2 + j) = memRead s.mem (q.1 + j)))) ∧
      Writes (.tver a) s a (w64 (seenVersion t x.task.launch)) ∧
      ((rd s b).toNat % 8 = 0 → Writes (.tstat a b) s a (w64 (t.state + 4 * tenureCode (tenureOn s h) + 16 * tok))) ∧
      ((rd s b).toNat % 8 = 1 → Writes (.tstat a b) s a (w64 t.version)) ∧
      ((rd s b).toNat % 8 = 2 → Writes (.tstat a b) s a (w64 t.tag)) ∧
      ((rd s b).toNat % 8 = 3 → Writes (.tstat a b) s a (w64 t.parent)) ∧
      ((rd s b).toNat % 8 = 4 → Writes (.tstat a b) s a (match tenureOn s h with
        | some e => if e.granted = true ∧ e.write = false then w64 e.version else BitVec.allOnes 64
        | none => BitVec.allOnes 64)) ∧
      ((rd s b).toNat % 8 = 5 → Writes (.tstat a b) s a (w64 t.owner)) ∧
      (6 ≤ (rd s b).toNat % 8 → Writes (.tstat a b) s a 0) ∧
      (tenureOn s h = none → x.eng.tenures.length < 8 → t.state = 2 → t.requests = [] →
        (∃ u, exec (.tacqr w a b) s = .next u ∧ RegIs s u a (3 * 2 ^ 32) ∧ (slotAt u k).eng.tenures = x.eng.tenures) ∧
        ∃ u, exec (.tacqw w a) s = .next u ∧ RegIs s u a (3 * 2 ^ 32) ∧ (slotAt u k).eng.tenures = x.eng.tenures) ∧
      ((tenureOn s h).isSome = true → Writes (.tacqr w a b) s a (5 * 2 ^ 32) ∧ Writes (.tacqw w a) s a (5 * 2 ^ 32)) ∧
      (tenureOn s h = none → 8 ≤ x.eng.tenures.length →
        Writes (.tacqr w a b) s a (4 * 2 ^ 32) ∧ Writes (.tacqw w a) s a (4 * 2 ^ 32)) ∧
      (tenureOn s h = none → x.eng.tenures.length < 8 → t.state ≠ 2 → t.shadow = none → t.requests = [] →
        let seen := seenVersion t x.task.launch
        let v := if (rd s b).toNat % 2 ^ 32 = 0xFFFFFFFF then seen else (rd s b).toNat % 2 ^ 32
        let e := fun (write : Bool) (v : Nat) =>
          ({ handle := h, write := write, granted := true, version := v, depth := x.frames.length } : Tenure)
        (v ≤ seen → (frameOf t v).isSome = true → 1 ≤ tok →
          ∃ u z, exec (.tacqr w a b) s = .next u ∧ RegIs s u a (w64 v) ∧ GoneOn s u ∧ tileAt u p i = some z ∧
            z.pins = t.pins ++ [(k, v)] ∧ z.requests = [] ∧ (slotAt u k).eng.tenures = x.eng.tenures ++ [e false v]) ∧
        (v ≤ seen → (frameOf t v).isSome = false → ∃ u, exec (.tacqr w a b) s = .next u ∧
          RegIs s u a (w64 (2 ^ 32 + t.oldest)) ∧ (slotAt u k).eng.tenures = x.eng.tenures) ∧
        (tok = 64 → t.version < 0xFFFFFFFE →
          ∃ u z, exec (.tacqw w a) s = .next u ∧ RegIs s u a (w64 (nextVersion t)) ∧ GoneOn s u ∧ tileAt u p i = some z ∧
            z.shadow = some { slot := k, version := nextVersion t, frameNo := none, pages := t.basePages.map fun _ => none } ∧
            (slotAt u k).eng.tenures = x.eng.tenures ++ [e true (nextVersion t)]) ∧
        (tok < 64 → t.version < 0xFFFFFFFE →
          (∃ u, exec (.tacqw 0 a) s = .next u ∧ ParkedAs s u k .tile false (.tenure a h true 0)) ∧
          ∃ u, exec (.tacqw 1 a) s = .next u ∧ RegIs s u a (2 * 2 ^ 32))) ∧
      (∀ e, tenureHere s h = some e → e.handle = h → e.write = false → allPerformed s k .system = true →
        ∃ u z, exec (.trel a) s = .next u ∧ RegIs s u a (w64 e.version) ∧ tileAt u p i = some z ∧
          z.pins = t.pins.erase (k, e.version) ∧ (∀ y ∈ (slotAt u k).eng.tenures, y.handle ≠ h) ∧ SameBytes s u) ∧
      (∀ e sh, tenureHere s h = some e → e.handle = h → e.write = true → t.shadow = some sh → releaseReady s k t true = true →
        (∀ c ∈ s.clusters, ∀ y ∈ c.2.chans, y.2.state ≠ .running) → holdsPublishes s x.task.launch = false → t.requests = [] →
        let published := fun (u : State) => RegIs s u a (w64 sh.version) ∧ SameBytes s u ∧
          (∃ z, tileAt u p i = some z ∧ z.version = sh.version ∧ z.shadow = none) ∧ ∀ y ∈ (slotAt u k).eng.tenures, y.handle ≠ h
        (∃ u, exec (.trel a) s = .next u ∧ published u) ∧
        (NotHeld s k → (∃ r q, x.park = some { reason := r, abandon := q, cont := .publish a h }) →
          ∃ u, exec (.publish k) s = .next u ∧ published u ∧ (slotAt u k).park = none)) ∧
      (∀ e sh, tenureHere s h = some e → e.handle = h → e.write = true → t.shadow = some sh → Quiet s k →
        (∀ c ∈ s.clusters, ∀ y ∈ c.2.chans, y.2.state ≠ .running) → s.transit = [] → t.requests = [] →
        ∃ u z, exec (.tabnd a) s = .next u ∧ RegIs s u a (w64 (seenVersion t x.task.launch)) ∧ tileAt u p i = some z ∧
          z.shadow = none ∧ z.version = t.version ∧ z.frames = t.frames ∧ SameBytes s u ∧
          ∀ y ∈ (slotAt u k).eng.tenures, y.handle ≠ h)) ∧
    (∀ src dst, tileAt s p i = some t → restorers s (tileHandle s p i) dst = [] → src < 128 → dst < 128 → src ≠ dst →
      let n := tokensFrom s t src dst
      n ≠ 0 → ∃ u z, exec (.tokenForward p i src dst) s = .next u ∧ SameBytes s u ∧ tileAt u p i = some z ∧
        lookupD z.tokens src 0 = lookupD t.tokens src 0 - n ∧ lookupD z.tokens dst 0 = lookupD t.tokens dst 0 + n) ∧
    (∀ r, tileAt s p i = some t → lackingReq s t cl = some r → (∃ y ∈ t.requests, y.cluster = cl ∧ y.persistent ≠ none) →
      exec (.persistentRequest p i cl) s = .next s) ∧
    ∀ r c, tileAt s p i = some t → lackingReq s t cl = some r → r.since = some c → c + 256 ≤ s.cycle →
      (∀ y ∈ t.requests, y.cluster = cl → y.persistent = none) →
      ∃ u z, exec (.persistentRequest p i cl) s = .next u ∧ SameBytes s u ∧ tileAt u p i = some z ∧
        z.requests = t.requests.map (fun y => if y = r then
          { y with persistent := some (t.requests.foldl (fun m x => max m (x.persistent.getD 0)) 0 + 1) } else y) ∧ z.tokens = t.tokens

/-- R207 to R209, R268, R269, R273: TSPLIT gives a tile's bytes to its children, and writes 0 for a count or a dimension that cannot be split, which
R208 does not list (log entry 50); TJOIN takes them back; TRECL drops old frames that
nobody holds; TSTV and TLDV check the tile and are handed to the sequencer; a freed frame slot ends the wait of a TSTV, whose
access is then handed over (R30). -/
def Obligations.TilesSplitJoinAndMove : Prop :=
  ∀ (s : State) (k p i : Nat) (t : Tile) (v a b : BitVec 5) (g : BitVec 3), OnCluster s k →
    let x := slotAt s k
    let h := (rd s a).toNat % 2 ^ 32
    let dim := (rd s b).toNat % 4
    let c := (rd s b).toNat / 2 ^ 8 % 2 ^ 9
    liveTile s h = some (p, i, t) → tileAt s p i = some t → tileHandle s p i = h →
    (∀ e sh q first, tenureHere s h = some e → e.write = true → t.shadow = some sh → partAt s p = some q →
      splitOk t dim c = true → freeRun q c = some first → Quiet s k → (∀ y ∈ s.clusters, ∀ z ∈ y.2.chans, z.2.state ≠ .running) →
      s.transit = [] → t.requests = [] → (i < first ∨ first + c ≤ i) →
      ∃ u z, exec (.tsplit a b) s = .next u ∧ RegIs s u a (w64 (genOf q first * 2 ^ 20 + first)) ∧ SameBytes s u ∧
        tileAt u p i = some z ∧ z.state = 2 ∧ z.firstChild = first ∧ z.children = c ∧
        ∀ j < c, ∃ y, tileAt u p (first + j) = some y ∧ y.base = t.base + j * childStep t dim c ∧
          y.ext = (childShape t dim c).ext ∧ y.parent = h ∧ y.version = t.version ∧ y.state = 0) ∧
    (∀ e, tenureHere s h = some e → e.write = true → (splitOk t dim c = false ∨ ((partAt s p).bind (freeRun · c)) = none) →
      Writes (.tsplit a b) s a 0) ∧
    (t.state ≠ 2 → Writes (.tjoin a) s a 2) ∧
    (t.state = 2 → (∃ y ∈ childrenOf s p t h, y.2.shadow.isSome = true ∨ y.2.pins ≠ [] ∨ y.2.state = 2) →
      Writes (.tjoin a) s a 1) ∧
    (t.state = 2 → (∀ y ∈ childrenOf s p t h, y.2.shadow = none ∧ y.2.pins = [] ∧ y.2.state ≠ 2 ∧ y.1 ≠ i ∧ y.2.requests = []) →
      ∃ u z, exec (.tjoin a) s = .next u ∧ RegIs s u a 0 ∧ SameBytes s u ∧ tileAt u p i = some z ∧ z.state < 2 ∧ z.children = 0 ∧
        z.version = (childrenOf s p t h).foldl (fun m y => max m y.2.version) 0) ∧
    (let gvt := match partAt s p with | some q => q.gvt | none => 0
     let keep := t.frames.filter fun f => !(reclaimable t (min (rd s b).toNat gvt) f)
     ∃ u z, exec (.trecl a b) s = .next u ∧ RegIs s u a (w64 (t.frames.length - keep.length)) ∧ SameBytes s u ∧
       tileAt u p i = some z ∧ z.frames = keep) ∧
    (∀ n offs s1, VecReady s k → tileAccess s h (offsetOf (rd s b) 0).toNat g false = .ok (p, i, t, n, offs) →
      tilePages s p t 1 offs = .ok s1 → slotAt s1 k = x → s1.cur = s.cur →
      ∃ u q, exec (.tldv v g a b) s = .next u ∧ GoneOn s u ∧ SameRegs s u ∧ q.instr = .tldv v g a b ∧
        (slotAt u k).vec.seq = x.vec.seq ++ [{ body := [q], step := 0, next := 0, last := 0, at_ := 0, pc := pc s,
                                               ganged := x.ganged }] ∧
        ∃ evs, u.iq = s1.iq ++ evs ∧ entryIds q = evs.map (fun e => e.id) ∧ ∀ e ∈ evs, e.kind = .read ∧ e.thread = k) ∧
    (∀ n offs s1 u1 z, VecReady s k → tileAccess s h (offsetOf (rd s b) 0).toNat g true = .ok (p, i, t, n, offs) →
      tilePages s p t 2 offs = .ok s1 → slotAt s1 k = x → s1.cur = s.cur → shadowRoom s1 p t offs = true →
      takeShadow s1 p i x.task.launch offs = u1 → tileAt u1 p i = some z → slotAt u1 k = x → u1.cur = s.cur →
      (∀ o ∈ offs, lineOpens u1 (some t.kdom) (shadowFlat z x.task.launch o) = true) →
      ∃ u q evs, exec (.tstv v g a b) s = .next u ∧ GoneOn s u ∧ SameRegs s u ∧ q.instr = .tstv v g a b ∧
        (slotAt u k).vec.seq = x.vec.seq ++ [{ body := [q], step := 0, next := 0, last := 0, at_ := 0, pc := pc s,
                                               ganged := x.ganged }] ∧
        u.iq = u1.iq ++ evs ∧ evs.flatMap (fun e => e.addrs) = offs.map (shadowFlat z x.task.launch) ∧
        ∀ e ∈ evs, e.kind = .write ∧ e.thread = k) ∧
    ∀ u r q, tileAt u p i = some t → slotFree t = true → lookup u.slots k = some (slotAt u k) → partOfSlot u k = some p →
      (slotAt u k).park = some { reason := r, abandon := q, cont := .frame (tileHandle u p i) } →
      ∃ u1, exec (.frameSlotFreed p i) u = .next u1 ∧ SameBytes u u1 ∧
        slotAt u1 k = { slotAt u k with park := some { reason := r, abandon := q, cont := .resume } }

/-! ### Tasks -/

/-- R211 to R217, R280: the task commands. TSPAWN puts a record at the bottom of the deque with the spawner's launch and the greatest of three stamps;
TEXIT empties the slot and zeroes its window; MSEND sends a message with its payload and, with an acknowledgement, parks; CNTSET makes
a counter with a fresh name, CNTGET reads one, CNTGET.in takes the oldest entry; BARR waits for the gang. -/
def Obligations.TaskCommandsComplete : Prop :=
  ∀ (s : State) (k : Nat) (a b : BitVec 5) (g : BitVec 3), OnCluster s k →
    let x := slotAt s k
    let core := coreOfSlot k
    let c := coreAt s core
    let cl := clusterOfSlot k
    (let bs := localBytes s k (cvaOf s g (rd s a) (b.toInt * 64)) 32
     let r := parseRecord bs
     LocalBlock s k g (rd s a) (b.toInt * 64) 32 32 1 → Quiet s k → k % 16 ≠ 15 →
     (r.entry % 4 ≠ 0 → Traps (.tspawn g a b) s 0x06 (w64 r.entry)) ∧
     (r.entry % 4 = 0 → c.deque.length < 64 →
       Does (.tspawn g a b) s (setCore s core { c with
         pushClock := some (s.cycle, match c.pushClock with | some (d, n) => if d = s.cycle then n + 1 else 1 | none => 1),
         deque := { r with launch := x.task.launch, stamp := max r.stamp (max c.vtime.toNat (floorOf s (partOfSlot s k))) } ::
           ((c.deque.dropWhile (recordDead s)).reverse.dropWhile (recordDead s)).reverse }))) ∧
    (k % 16 ≠ 15 → x.frames = [] → tl s = 0 → x.ganged = false → x.task.counter = none →
      ∃ t, exec .texit s = .next t ∧ (slotAt t k).state = .empty ∧ (slotAt t k).vec.bank = none ∧ (slotAt t k).eng.tenures = [] ∧
        (∀ r, regOf t (.slot k) r = 0) ∧ ∀ j < winLen x, winBase x + j < 0xC000 → memRead t.mem (flatLocal core (winBase x + j)) = 0) ∧
    (k % 16 = 15 → Traps .texit s 0x01 (s.word.setWidth 64) ∧ Traps (.tspawn g a b) s 0x01 (s.word.setWidth 64) ∧
      Traps (.cntset a b) s 0x01 (s.word.setWidth 64)) ∧
    (let n := (rd s b).toNat % 16
     let name := (rd s a).toNat
     let sent := fun (t : State) => t.nextId = s.nextId + 1 ∧ SameBytes s t ∧ ∃ m e, t.network = s.network ++ [m] ∧ t.iq = s.iq ++ [e] ∧
       m.id = s.nextId ∧ e.id = s.nextId ∧ e.kind = .write ∧ e.thread = k ∧ e.scope = .partition ∧ m.name = name ∧
       m.payload = (List.range n).map (fun i => rd s (BitVec.ofNat 5 (3 + i))) ∧ m.launch = x.task.launch ∧ m.world = x.world ∧
       m.stamp = max c.vtime.toNat (floorOf s (partOfSlot s k)) ∧ m.cluster = cl ∧ m.core = core % 16
     n ≤ 8 → (name / 2 ^ 63 = 0 ∨ name / 2 ^ 38 % 2 ^ 25 = 0 ∧ name / 2 ^ 31 % 2 = 0) →
     (∃ t, exec (.msend 0 a b) s = .next t ∧ sent t ∧ GoneOn s t ∧ SameRegs s t) ∧
     ∃ t, exec (.msend 1 a b) s = .next t ∧ sent t ∧ ParkedAs s t k .memory false (.ack a s.nextId)) ∧
    (8 < (rd s b).toNat % 16 → Traps (.msend 0 a b) s 0x01 (s.word.setWidth 64)) ∧
    (let n := (rd s a).toNat
     let ix := freeCounterIx (clusterAt s cl)
     let gen := counterGen (clusterAt s cl) ix
     k % 16 ≠ 15 → (n = 0 ∨ 2 ^ 24 ≤ n → Traps (.cntset a b) s 0x01 (s.word.setWidth 64)) ∧
     (0 < n → n < 2 ^ 24 → (4096 ≤ ix → Writes (.cntset a b) s a 0) ∧
       (ix < 4096 → DoesAnd (.cntset a b) s (setCluster s cl { clusterAt s cl with
         counters := insert (clusterAt s cl).counters ix
           { gen := gen, live := true, count := n,
             record := { entry := (rd s b).toNat % 2 ^ 32, launch := x.task.launch, tile := x.task.tile, flags := 0, arg := 0,
                         counter := 0, stamp := 0 },
             ownerCore := core, world := x.world, part := (partOfSlot s k).getD 64, launch := x.task.launch,
             greatest := 0 } }) a (w64 (cl * 2 ^ 24 + gen * 2 ^ 12 + ix))))) ∧
    Writes (.cntget a b) s a (match counterAt s ((partOfSlot s k).getD 64) (rd s b).toNat with
      | some y => w64 y.count
      | none => w64 (2 ^ 63)) ∧
    (let mine := fun (d : Delivered) => d.world = x.world ∧ (k % 16 = 15 ∨ d.recordOf = none ∧ d.posted = false)
     ((∀ d ∈ c.delivered, ¬ mine d) → Writes (.cntgetIn a) s a (w64 (2 ^ 63))) ∧
     ∀ pre d post, c.delivered = pre ++ d :: post → (∀ e ∈ pre, ¬ mine e) → mine d → d.recordOf = none → d.payload.length ≤ 8 →
       (a.toNat < 3 ∨ 10 < a.toNat) → a ≠ 0 → s.network = [] → (∀ e ∈ c.delivered, e.fifo = none) →
       ∃ t, exec (.cntgetIn a) s = .next t ∧ rd t a = d.header ∧ GoneOn s t ∧ SameBytes s t ∧
         (∀ i < d.payload.length, rd t (BitVec.ofNat 5 (3 + i)) = d.payload.getD i 0) ∧
         (coreAt t core).delivered = pre ++ post) ∧
    (x.task.gangSize = 0 → ∃ v, exec .barr s = .next (takeTrap (bumpFree s) 0x17 v)) ∧
    (0 < x.task.gangSize → x.state ≠ .empty →
      (gangSlots s x.task.launch x.task.gang = [k] → allPerformed s k .cluster = true → x.ganged = false → NotHeld s k →
        ∃ t, exec .barr s = .next t ∧ GoneOn s t ∧ SameRegs s t ∧ SameBytes s t ∧ (slotAt t k).state = .ready ∧
          (slotAt t k).task.arrived = false) ∧
      ((∃ j ∈ gangSlots s x.task.launch x.task.gang, j ≠ k ∧ slotArrived s j = false ∧ j ≠ k + 1) →
        ∃ t, exec .barr s = .next t ∧ ParkedAs s t k .barrier false .barrier ∧ (slotAt t k).task.arrived = true ∧ SameBytes s t))

/-- R276 to R278, R280 to R283, R285, R287, R288, R328: the task machinery. A deque starts its bottom record on the lowest slot that may
take it, before the records that this clock has pushed, and drops records of ended launches that have reached an end; a sweep visits its victims in order, gangs reserve and start together, an inbox delivers its first message once virtual time or its hold allows, and
gvt is sampled and published. -/
def Obligations.TaskMachineryRuns : Prop :=
  ∀ (s : State) (core k p cl : Nat), core < 2048 → cl < 128 →
    let c := coreAt s core
    let starts := fun (t : State) (r : TaskRec) =>
      (slotAt t k).state = .ready ∧ (slotAt t k).sc.pc = w64 r.entry ∧ regOf t (.slot k) 3 = w64 r.arg ∧
      regOf t (.slot k) 2 = w64 (winLen (slotAt s k)) ∧ (slotAt t k).task.launch = r.launch ∧ (slotAt t k).task.tile = r.tile ∧
      (slotAt t k).world = launchWorld s r ∧ ∀ j ≠ k, slotAt t j = slotAt s j
    (let live := ((c.deque.dropWhile (recordDead s)).reverse.dropWhile (recordDead s)).reverse
     let n := match c.pushClock with | some (d, m) => if d = s.cycle then min m live.length else 0 | none => 0
     let older := (live.drop n).dropWhile (recordDead s)
     c.deque.length ≤ 64 →
     (∀ r rest, older = r :: rest → c.dequeClock ≠ some s.cycle → freeSlotOf s core = some k →
       ∃ t, exec (.dequeStart core) s = .next t ∧ starts t r ∧ (coreAt t core).deque = live.take n ++ rest ∧
         (coreAt t core).dequeClock = some s.cycle ∧ SameBytes s t) ∧
     (older = [] ∨ c.dequeClock = some s.cycle ∨ freeSlotOf s core = none →
       ∃ t, exec (.dequeStart core) s = .next t ∧ t.slots = s.slots ∧ (coreAt t core).deque = live ∧ SameBytes s t)) ∧
    (c.sweepDue = none → sweeps s core = true → ∀ v, (victims s core c.sweepStart)[0]? = some v →
      exec (.stealVisit core) s = .next (setCore s core { c with sweepAt := 0, sweepDue := some (s.cycle + v.2) })) ∧
    (∀ due w n r rest, c.sweepDue = some due → due ≤ s.cycle → c.dequeClock ≠ some s.cycle → sweeps s core = true →
      (victims s core c.sweepStart)[c.sweepAt]? = some (some w, n) → w ≠ core → (coreAt s w).deque = rest ++ [r] →
      rest.length ≤ 64 → recordDead s r = false → freeSlotOf s core = some k →
      ∃ t, exec (.stealVisit core) s = .next t ∧ starts t r ∧ (coreAt t w).deque = rest.dropWhile (recordDead s) ∧ (coreAt t core).sweepDue = none ∧
        (coreAt t core).sweepStart = c.sweepStart + 1 ∧ SameBytes s t) ∧
    (∀ l x, placeable s p = some l → partAt s p = some x →
      (x.clusters.filter fun q => (clusterAt s q).reservation.isNone && decide (gangTasks l ≤ slotsInService s q)).min? = some cl →
      ∃ t r, exec (.gangPlace p) s = .next t ∧ (clusterAt t cl).reservation = some r ∧ r.launch = l.id ∧ r.gang = l.again.headD l.nextGang ∧
        r.size = gangTasks l ∧ t.launches = s.launches.map (fun y => if y.id ≠ l.id then y
          else if y.again = [] then { y with nextGang := y.nextGang + 1 } else { y with again := y.again.drop 1 }) ∧
        t.slots = s.slots) ∧
    (∀ r l, (clusterAt s cl).reservation = some r → joinSlots s cl = s → launchOf s r.launch = some l →
      let held := gangSlotsOf (isPaired s r.launch) r.slots
      let ks := gangPlaces (isPaired s l.id) r.size held
      r.size ≤ held.length →
      ks.Nodup →
      ∃ t, exec (.gangStart cl) s = .next t ∧ (clusterAt t cl).reservation = none ∧ SameBytes s t ∧
        ∀ i, ∀ h : i < ks.length, (slotAt t ks[i]).state = .ready ∧ (slotAt t ks[i]).sc.pc = w64 l.entry ∧
          (slotAt t ks[i]).task.taskid = w64 (r.gang * gangTasks l + i) ∧ (slotAt t ks[i]).task.gang = r.gang ∧
          (slotAt t ks[i]).task.gangIndex = i ∧ (slotAt t ks[i]).world = l.world) ∧
    (∀ m held y, nextMessage s core = some (m, held) → counterAt s m.part m.name = some y → y.world = m.world → 1 < y.count →
      m.payload = [] → m.ack = none → isLate c m.stamp = false →
      let delivers := fun (t : State) => (coreAt t core).inbox = c.inbox.filter (fun z => !(z.id == m.id)) ∧
        (coreAt t core).inboxClock = some s.cycle ∧ SameBytes s t ∧
        counterAt t m.part m.name = some { y with count := y.count - 1, greatest := max y.greatest m.stamp }
      (m.stamp ≤ gvtOf s (some m.part) → ∃ t, exec (.inboxDeliver core) s = .next t ∧ delivers t) ∧
      (gvtOf s (some m.part) < m.stamp → exec (.inboxDeliver core) s = .next s) ∧
      (held = true → ∃ t, exec (.inboxHoldExpiry core) s = .next t ∧ delivers t) ∧
      (held = false → exec (.inboxHoldExpiry core) s = .next s)) ∧
    (∀ x, partAt s p = some x → x.sample = none → 65 ≤ s.cycle - x.created → (s.cycle - x.created - 1) % 64 = 0 →
      let g := max x.gvt ((sampleValues s p).min?.getD x.gvt)
      exec (.gvtSample p) s = .next (setPart s p { x with floor := max x.floor g, sample := some (s.cycle + 63, g) })) ∧
    ∀ x due g, partAt s p = some x → x.sample = some (due, g) → due ≤ s.cycle → x.retiring = [] →
      ∃ t y, exec (.gvtPublish p) s = .next t ∧ partAt t p = some y ∧ y.gvt = max x.gvt g ∧ y.sample = none ∧ SameBytes s t

/-! ### Encodings, steps, reset, the form of memory -/

/-- R93, R94, R107: words that the spec decodes: some are instructions, with the fields it gives; the others are illegal. -/
def Obligations.WordsDecodeAsTheSpecSays : Prop :=
  decode 0xACA60363 = .ok (.ldo 5 6 3 1 4 3) ∧ decode 0xF800000A = .ok (.slotkill 0 0) ∧
  decode 0x04221800 = .ok (.add 1 2 3) ∧ decode 0x0822FFFF = .ok (.addi 1 2 0xFFFF) ∧
  decode 0x5BFFFFFF = .ok (.j 0x3FFFFFF) ∧ decode 0xF8000003 = .ok .tret ∧
  ∀ w ∈ [0x00000000, 0x68000000, 0x04000014, 0xF1000000, 0xF8000015, 0xBC000018, 0xBC000068, 0xB0A6015B],
    ∃ e, decode w = .error e

/-- R94: every instruction that has a word is read back from it, with every operand at every value that the encoding admits;
the word has 32 bits. -/
def Obligations.EncodedInstructionsReadBack : Prop :=
  ∀ (i : Instr) (w : Nat), i.WellFormed → encode i = some w → w < 2 ^ 32 ∧ decode w = .ok i

/-- The other direction: what the decoder reads from a word of 32 bits is a well-formed instruction, and its word is that one. -/
def Obligations.DecodedWordsAreTheInstructionsOwn : Prop :=
  ∀ (w : Nat) (i : Instr), w < 2 ^ 32 → decode w = .ok i → i.WellFormed ∧ encode i = some w

/-- R93: the fetch through g0 when it is a window of local memory: a missing right X traps 0x04, a range that ends beyond the
limit 0x03, each with the PC as its value; else the word is the little-endian value of the four bytes at the PC. -/
def Obligations.FetchReadsTheWordAtThePc : Prop :=
  ∀ (s : State) (k : Nat), s.cur = .slot k →
    let g := segOf s s.cur 0
    let p := pc s
    let a := g.w0.toNat % 2 ^ 57 + p.toNat
    (¬ SegmentOk s 0 4 → fetch s = .error (takeTrap s 0x04 p)) ∧
    (SegmentOk s 0 4 → g.w1.toNat % 2 ^ 48 < p.toNat + 3 → fetch s = .error (takeTrap s 0x03 p)) ∧
    (SegmentOk s 0 4 → p.toNat + 3 ≤ g.w1.toNat % 2 ^ 48 → g.w0.toNat / 2 ^ 57 = 2 → a % 4 = 0 →
      (if k % 16 = 15 then a + 4 ≤ 0xC000
       else winBase (slotAt s k) ≤ a ∧ a + 4 ≤ winBase (slotAt s k) + winLen (slotAt s k) ∧ a + 4 ≤ 0xB000) →
      ∃ w, fetch s = .ok (s, w) ∧
        ∀ i < 4, BitVec.ofNat 8 (w.toNat / 2 ^ (8 * i)) = memRead s.mem (flatLocal (coreOfSlot k) (a + i)))

/-- A step runs the decoded instruction: when nothing else is forced and the choice falls on the cores, the slot that the
wheel chooses issues, and the step is exec of the decoded instruction followed by the stops that it asked for; a word that is
no instruction traps 0x01 with the word, and a fetch that fails has trapped (R23, R93, R107). The first slot whose park's reason has
cleared performs its noted word before anything issues (R30); one whose reason cleared while its session was HELD goes on once it is LIVE
again (R388). What is due first, and the free choice among open events, inputs and cores, are the model's (log entry 3). -/
def Obligations.StepRunsTheDecodedInstruction : Prop :=
  (∀ (s : State), s.mod.powered = true → forced s = none →
    let n := (openEvents s).length + if s.agenda.isEmpty then 0 else 1
    let u := (choose s (n + 1)).1
    (choose s (n + 1)).2 = n →
    ∀ v : State, ((∃ k, nextIssuer u = some k ∧ v = issueState u k) ∨
      (nextIssuer u = none ∧ ∃ m, nextApp u = some m ∧ v = issueApp u m)) →
      (∀ (t : State) (w : BitVec 32), fetch v = .ok (t, w) →
        (∀ i, decode w.toNat = .ok i → step s = thenStops (exec i (noteWord t w))) ∧
        (∀ e, decode w.toNat = .error e → step s = .next (carryStops (takeTrap (noteWord t w) 0x01 (w.setWidth 64))))) ∧
      (∀ t, fetch v = .error t → step s = .next (carryStops t))) ∧
  ∀ (s : State) (k : Nat) (pre post : List Nat) (r : ParkReason) (b : Bool) (i : Instr), s.mod.powered = true →
    (∀ e ∈ timedEvents s, enabled s e = false) → portStep s = none →
    slotKeys s = pre ++ k :: post → (∀ j ∈ pre, slotForced s j = none) →
    NotHeld s k →
    ((slotAt s k).park = some { reason := r, abandon := b, cont := .resume } → decode (slotAt s k).word.toNat = .ok i →
      step s = thenStops (exec i { readyOf s (.slot k) with cur := .slot k, word := (slotAt s k).word })) ∧
    ((slotAt s k).park = some { reason := r, abandon := b, cont := .cleared } →
      step s = .next (setSlot s k { slotAt s k with state := .ready, park := none, rdy := s.cycle }))

/-- No instruction and no event stops the machine; only a device without power takes no step (R4, R107). -/
def Obligations.EveryInstructionAnswersANextState : Prop :=
  (∀ (i : Instr) (s : State), ∃ t, exec i s = .next t) ∧
  (∀ s : State, s.mod.powered = true → ∃ t, step s = .next t) ∧
  ∀ s : State, s.mod.powered = false → step s = .fault .poweredOff

/-- R4, R235, R45: module reset leaves no partition, no launch, every bank in CACHE mode, every slot Empty or, slot 15, not
running, every main clock counted from 0, and nothing on the way to memory; no slot issues. That registers without a reset value are 0 (log
entry 34), that every byte of memory reads 0 (log entry 1) and that the application cores run from reset (log entry 30) are the model's
choices. -/
def Obligations.ResetLeavesNothingRunning : Prop :=
  let s := State.reset
  s.cycle = 0 ∧ s.parts = [] ∧ s.launches = [] ∧ s.iq = [] ∧ s.transit = [] ∧ s.network = [] ∧ MemoryOk s ∧
  (∀ a, memRead s.mem a = 0) ∧ (∀ k b : Nat, bankMode s k b = 0) ∧ (∀ k p, partAt s p = none ∧ partOfSlot s k = none) ∧
  (∀ k r, (slotAt s k).state = .empty ∧ regOf s (.slot k) r = 0 ∧ pcOf s (.slot k) = 0 ∧ tlOf s (.slot k) = 0) ∧
  (∀ n r, regOf s (.app n) r = 0 ∧ pcOf s (.app n) = 0 ∧ tlOf s (.app n) = 0) ∧
  nextIssuer s = none ∧ nextApp s = some 0

/-- Every step keeps memory in its canonical form, whatever it does (log entry 1). -/
def Obligations.EveryStepKeepsMemorysForm : Prop := Kept MemoryOk

/-! ### Traps and control codes -/

/-- R310, R311, R312, R314, R43, R106: a trap at tl = 0 with a handler enters it at TL1, a trap at TL1 enters TL2 in one step with
a record for slot 15, or waits while both records of the slot are taken; a ganged pair splits first; an application core enters its
handler, or halts at tl = 1. -/
def Obligations.TrapsEnterTheirHandlers : Prop :=
  ∀ (s : State) (k c : Nat) (v p : Word),
    let x := slotAt s k
    let core := coreOfSlot k
    let t := takeTrapOf s (.slot k) c v p
    let entered := fun (y : SlotSt) => { y with sc := { y.sc with pc := y.tr.thandler },
                                                tr := { y.tr with tcause1 := w64 c, tepc1 := p, tval1 := v, tl := 1 } }
    (x.tr.tl = 0 → x.tr.thandler ≠ 0 → inCleanup x = false →
      (x.ganged = false → t = setSlot s k (entered x)) ∧
      (x.ganged = true → t = setSlot (setSlot s k (entered { x with ganged := false })) (partnerOf k)
        { slotAt s (partnerOf k) with ganged := false, state := .splitWait, park := none,
                                      sc := { (slotAt s (partnerOf k)).sc with pc := p } })) ∧
    (k % 16 ≠ 15 → inCleanup x = false → x.ganged = false → x.tr.tl = 1 →
      (2 ≤ recordsOf (coreAt s core) k →
        t = setSlot s k { x with state := .parked, park := some { reason := .record, abandon := false, cont := .tl2 c p v } }) ∧
      (recordsOf (coreAt s core) k < 2 →
        let y := slotAt t k
        SameBytes s t ∧ y.state = .ready ∧ y.park = none ∧ y.world = worldId ((partOfSlot s k).getD 0) 0 ∧
        y.tr = { x.tr with tcause2 := w64 c, tepc2 := p, tval2 := v, tl := 2, heldWorld := x.world, heldG := y.tr.heldG } ∧
        (∀ i : Fin 4, y.tr.heldG[i] = x.sc.g[i.val]'(by omega)) ∧ y.sc = { x.sc with pc := 0, g := y.sc.g } ∧
        (∀ i : Fin 8, y.sc.g[i] = if i.val < 4 then
            { w0 := w64 (leNat (localBytes s k (x.sgbase.toNat + 16 * i.val) 8)),
              w1 := w64 (leNat (localBytes s k (x.sgbase.toNat + 16 * i.val + 8) 8)) } else x.sc.g[i]) ∧
        ∃ e, (coreAt t core).delivered = (coreAt s core).delivered ++ [e] ∧ e.recordOf = some k ∧
          e.header = w64 (2 ^ 28 + 2 * 2 ^ 12 + 0xFFF) ∧
          e.payload = [w64 (2 ^ 28 + x.world % 4096 * 2 ^ 16 + c % 256 * 2 ^ 8 + k % 16), p])) ∧
    (k % 16 = 15 → inCleanup x = false → x.ganged = false → x.frames = [] → (x.tr.tl ≠ 0 ∨ x.tr.thandler = 0) →
      t = deliverEvent (setSlot s k { x with
        unwind := none, state := .parked, park := some { reason := .held, abandon := false, cont := .stopped } })
        (64 + (partOfSlot s k).getD 0)) ∧
    ∀ n, let z := appAt s n
      (z.tr.tl = 0 → takeTrapOf s (.app n) c v p = setApp s n
        { z with sc := { z.sc with pc := z.tr.thandler },
                 tr := { z.tr with tcause1 := w64 c, tepc1 := p, tval1 := v, tl := 1 } }) ∧
      (z.tr.tl ≠ 0 → takeTrapOf s (.app n) c v p = deliverEvent (setApp s n { z with halted := true }) (166 + n))

/-- R310, R313, R314, R306, R307: a trap at TL2, or at tl = 0 with no handler and no call open, kills the context; with a call
open it is fatal, and its frame is discarded without a cleanup, with status 3 for the caller. A deadline of that frame that has passed already
governs: status 2. -/
def Obligations.TrapsWithoutAHandlerKillOrUnwind : Prop :=
  ∀ (s : State) (k c : Nat) (v p : Word),
    let x := slotAt s k
    let t := takeTrapOf s (.slot k) c v p
    x.ganged = false → inCleanup x = false →
    (TaskAlone s k → x.tr.tl = 2 → Killed s t k 1 (c % 256) 2 x.tr.heldWorld p) ∧
    (TaskAlone s k → x.tr.tl = 0 → x.tr.thandler = 0 → Killed s t k 2 (c % 256) 0 x.world p) ∧
    ∀ f rest, k % 16 ≠ 15 → x.tr.tl = 0 → x.tr.thandler = 0 → x.unwind = none → x.frames = f :: rest → rest.length < 4 →
      (∀ i h, 1 ≤ i → frameAt x i = some h → frameRevoked s h = false) →
      (expiredDepth s x = none → Resumed s t k f 3) ∧
      (expiredDepth s x = some x.frames.length → f.cleanup = 0 → Resumed s t k f 2)

/-- R104, R224, R225, R45, R106, R107: the privileged codes trap with 0x02 in user mode. WAIT takes the pending events of its mask or
parks until one comes, and one of a HELD session stays parked then (R388); YIELD delays the next issue; TRAP is the breakpoint; TRET returns
from TL1 and TL2, and parks while a matrix instruction that its slot has gone past is performed again (R39, R40); UIRET returns from a
completion interrupt; HALT stops slot 15 and kills the interrupted task at TL2; a claimed event interrupts an application core. -/
def Obligations.ControlCodesComplete : Prop :=
  ∀ (s : State) (k : Nat) (d a : BitVec 5) (e : BitVec 2), 
    let x := slotAt s k
    let m := rd s a
    (UserMode s k → ∀ i ∈ [Instr.halt, .pginv e a, .slotgo d a, .slotkill d a, .slotrd d a, .slotwr d a, .quoin d a, .wrevk d a,
      .cxsave d a, .cxrest d a, .keyld d a, .bankset d a], Traps i s 0x02 (s.word.setWidth 64)) ∧
    (m.toNat / 32 ≠ 0 → Traps (.wait d a) s 0x01 m) ∧
    (s.cur = .slot k →
      (m.toNat / 32 = 0 →
        let mask : BitVec 5 := m.setWidth 5
        let pend := x.eng.pend ||| (if mask.getLsbD 3 = true ∧ (rd s d).toNat ≤ s.cycle then 8 else 0) |||
          (if x.eng.queue = [] then 0 else 16)
        let p := pend &&& mask
        (p ≠ 0 ∨ mask = 0 →
          DoesAnd (.wait d a) s (setSlot s k { x with eng := { x.eng with pend := pend &&& ~~~p } }) d (p.setWidth 64)) ∧
        (p = 0 → mask ≠ 0 → Parks (.wait d a) s k .wait true (.wait mask (rd s d).toNat))) ∧
      Does .yield s (setSlot s k { x with yieldUntil := s.cycle + 16 }) ∧
      Traps (.trap a) s 0x18 m ∧
      (k % 16 ≠ 15 → x.ganged = false → inCleanup x = false → x.tr.tl = 0 → x.tr.thandler ≠ 0 →
        exec (.trap a) s = .next (setSlot s k { x with
          sc := { x.sc with pc := x.tr.thandler },
          tr := { x.tr with tcause1 := 0x18, tepc1 := x.sc.pc, tval1 := m, tl := 1 } })) ∧
      (x.tr.tl = 0 → Traps .tret s 0x01 (s.word.setWidth 64)) ∧
      (x.tr.tl = 1 →
        let again := ∃ y rest, x.vec.seq = y :: rest ∧ ∃ h ∈ y.body, isMatrix h.instr = true
        let back := { x with sc := { x.sc with pc := x.tr.tepc1 }, tr := { x.tr with tl := 0 }, vec := { x.vec with frozen := false } }
        ∃ t, exec .tret s = .next t ∧ SameBytes s t ∧ (∀ j ≠ k, slotAt t j = slotAt s j) ∧ (¬ again → slotAt t k = back) ∧
          (again → slotAt t k = { back with
            state := .parked, park := some { reason := .matrix, abandon := false, cont := .matrixAgain } })) ∧
      (x.tr.tl = 2 → ∃ g : Vector Seg 8, (∀ i : Fin 8, g[i] = if h : i.val < 4 then x.tr.heldG[i.val]'h else x.sc.g[i]) ∧
        exec .tret s = .next (setSlot s k { x with sc := { x.sc with pc := x.tr.tepc2, g := g }, tr := { x.tr with tl := 1 },
                                                   world := x.tr.heldWorld })) ∧
      (x.sc.uienAct = true → exec .uiret s = .next (setSlot s k
        { x with sc := { x.sc with pc := x.sc.uepc, uienEn := true, uienAct := false } })) ∧
      (x.sc.uienAct = false → Traps .uiret s 0x01 (s.word.setWidth 64)) ∧
      (k % 16 = 15 →
        (supervisorWork s (coreOfSlot k) = true → Does .halt s s) ∧
        (supervisorWork s (coreOfSlot k) = false → Parks .halt s k .wait false .halt)) ∧
      (TaskAlone s k → x.tr.tl = 2 → ∃ t, exec .halt s = .next t ∧ Killed s t k 3 0 2 x.tr.heldWorld x.sc.pc)) ∧
    (∀ mask due r b, k < 2 ^ 20 → x.park = some { reason := r, abandon := b, cont := .wait mask due } →
      (mask.getLsbD 3 = true → due ≤ s.cycle → NotHeld s k → exec (.waitTimerExpiry k) s = .next (setSlot s k { x with
        eng := { x.eng with pend := x.eng.pend ||| 8 }, state := .ready, park := none, rdy := s.cycle })) ∧
      (mask.getLsbD 3 = true → due ≤ s.cycle → ¬ NotHeld s k → exec (.waitTimerExpiry k) s = .next (setSlot s k { x with
        eng := { x.eng with pend := x.eng.pend ||| 8 }, park := some { reason := r, abandon := b, cont := .cleared } })) ∧
      (mask.getLsbD 3 = false ∨ s.cycle < due → exec (.waitTimerExpiry k) s = .next s)) ∧
    ∀ n, let z := appAt s n
      (s.cur = .app n → Does .yield s s ∧ Does .halt s (setApp s n { z with waiting := true }) ∧
        (z.tr.tl = 0 → Traps .tret s 0x01 (s.word.setWidth 64)) ∧
        (z.tr.tl ≠ 0 → exec .tret s = .next (setApp s n
          { z with sc := { z.sc with pc := z.tr.tepc1, uienEn := z.sc.uienEn || z.tr.tcause1.toNat % 256 == 0x20 },
                   tr := { z.tr with tl := 0 } })) ∧
        (m.toNat / 32 = 0 →
          let mask : BitVec 5 := m.setWidth 5
          let due := (rd s d).toNat
          let late := mask.getLsbD 3 = true ∧ due ≤ s.cycle
          (late → Writes (.wait d a) s d 8) ∧ (mask = 0 → Writes (.wait d a) s d 0) ∧
          (¬ late → mask ≠ 0 → exec (.wait d a) s = .next (setApp s n
            { z with park := some { reason := .wait, abandon := true, cont := .wait mask due } })))) ∧
      (∀ mask due r b, n < 2 ^ 20 → z.park = some { reason := r, abandon := b, cont := .wait mask due } →
        (mask.getLsbD 3 = true → due ≤ s.cycle → exec (.waitTimerExpiry (2 ^ 20 + n)) s = .next (setApp s n { z with park := none })) ∧
        (mask.getLsbD 3 = false ∨ s.cycle < due → exec (.waitTimerExpiry (2 ^ 20 + n)) s = .next s)) ∧
      ∀ src, z.pendingSources.min? = some src → z.tr.tl = 0 → z.sc.uienEn = true → z.halted = false → z.park = none →
        exec (.appCoreInterrupt n) s = .next (setApp s n { z with
          waiting := false, pendingSources := z.pendingSources.filter (fun i => !(i == src)),
          sc := { z.sc with uienEn := false, pc := z.tr.thandler },
          tr := { z.tr with tcause1 := 0x20, tepc1 := z.sc.pc, tval1 := w64 src, tl := 1 } })

/-! ### Gates -/

/-- R220, R221, R222, R302 to R305: GCALL pushes the caller's state, carves and zeroes the callee's window, and enters; its checks
trap in order. At depth 4 to 7 it parks with reason 0 while a frame spills, and then enters (R301). GRET puts the caller's state back and
zeroes the window, and from depth 5 on parks with reason 0 while a frame is refilled; GWDR, GSTAT and GWIN answer. GWIN rewrites the window
descriptor of the frame (log entry 12). -/
def Obligations.GateCallsReturnAndAnswer : Prop :=
  ∀ (s : State) (k : Nat) (d a b : BitVec 5), s.cur = .slot k →
    let x := slotAt s k
    let id := rd s a
    let wd := rd s b
    let n := x.frames.length
    let early := id.toNat / 2 ^ 16 ≠ 0 ∨ x.tr.tl ≠ 0 ∨ x.ganged = true ∨ inCleanup x = true
    (x.vec.seq = [] →
      (early → Traps (.gcall a b) s 0x01 id) ∧
      (¬ early → (gateAt s id.toNat = none → Traps (.gcall a b) s 0x11 id) ∧
        ∀ g p, gateAt s id.toNat = some g → partOfSlot s k = some p →
          let denied := isRevoked s (worldId p g.callee) = true ∨ g.allow.getLsbD (x.world % 64) = false ∨
            (g.vec = true ∧ showsBank x = true) ∨ winLen x < g.ldem * 256
          let deep := n = 8 ∨ (4 ≤ n ∧ x.hspill = 0)
          let base := winBase x + winLen x - g.ldem * 256
          (denied → Traps (.gcall a b) s 0x11 id) ∧ (¬ denied → deep → Traps (.gcall a b) s 0x12 id) ∧
          (¬ denied → ¬ deep → windowOk s wd.toNat g = false → Traps (.gcall a b) s 0x13 wd) ∧
          (¬ denied → ¬ deep → 4 ≤ n → windowOk s wd.toNat g = true → ∀ u, spillFrame s = .ok u → u.cur = s.cur →
            exec (.gcall a b) s = .next (setSlot u k { slotAt u k with
              state := .parked, park := some { reason := .memory, abandon := false, cont := .call id wd g } })) ∧
          (¬ denied → n < 4 → windowOk s wd.toNat g = true → g.ldem < 128 →
            ∃ t f, exec (.gcall a b) s = .next t ∧ (∀ j ≠ k, slotAt t j = slotAt s j) ∧
              BytesAt s t (flatLocal (coreOfSlot k) base) (List.replicate (min (g.ldem * 256) (0xC000 - base)) 0) ∧
              (slotAt t k).frames = f :: x.frames ∧ f.caller = x.world ∧ f.ret = x.sc.pc + 4 ∧ f.g = x.sc.g ∧
              f.lmbase = x.lmbase ∧ f.lmbound = x.lmbound ∧ f.thandler = x.tr.thandler ∧ f.lc0 = x.sc.lc0 ∧ f.lc1 = x.sc.lc1 ∧
              f.window = wd ∧ f.gate = id ∧ f.mark = x.deadline ∧ f.bank = x.vec.bank ∧ f.cleanup = g.cleanup ∧
              (∀ i : Fin 21, f.saved[i] = x.sc.s[i.val + 11]'(by omega)) ∧
              (slotAt t k).world = x.world / 64 * 64 + g.callee ∧ (slotAt t k).sc.pc = w64 g.entry ∧
              (slotAt t k).tr = { x.tr with thandler := 0 } ∧ (slotAt t k).vec.bank = none ∧
              (slotAt t k).lmbase = w64 base ∧ (slotAt t k).lmbound = w64 (g.ldem * 256) ∧
              (slotAt t k).sc.lc0.active = false ∧ (slotAt t k).sc.lc1.active = false ∧
              (∀ r : BitVec 5, regOf t (.slot k) r = if 11 ≤ r.toNat then 0 else regOf s (.slot k) r) ∧
              (slotAt t k).deadline = (match x.deadline with
                | none => if g.budget = 0 then none else some (s.cycle + g.budget)
                | some c => if g.budget = 0 then some c else some (min (s.cycle + g.budget) c)) ∧
              (∀ i : Fin 7, (slotAt t k).sc.g[i.val]'(by omega) =
                (let q := g.set[i.val]'(by omega)
                 if q.w0.toNat / 2 ^ 57 % 8 = 2 then (if g.ldem = 0 then Seg.void else { q with w0 := q.w0 + w64 base }) else q)) ∧
              (slotAt t k).sc.g[7] = (let len := wd.toNat / 2 ^ 32 % 2 ^ 24
                let r := wd.toNat / 2 ^ 56 % 8
                if len = 0 then Seg.void else
                  { w0 := w64 (5 * 2 ^ 57), w1 := w64 ((r % 4 + r / 4 * 8) * 2 ^ 48 + (len - 1)) })))) ∧
    (x.frames = [] → Traps .gret s 0x01 (s.word.setWidth 64) ∧ Writes (.gwdr d a) s d (BitVec.allOnes 64)) ∧
    (∀ f rest, x.frames = f :: rest →
      (x.vec.seq = [] → (∃ e ∈ x.eng.tenures, e.granted = true ∧ e.depth = n) → ∃ v, exec .gret s = .next (takeTrap (bumpFree s) 0x0E v)) ∧
      (x.vec.seq = [] → (∀ e ∈ x.eng.tenures, e.granted = true → e.depth ≠ n) → n ≤ 4 → inCleanup x = false → x.park = none →
        ∃ t, exec .gret s = .next t ∧
          BytesAt s t (flatLocal (coreOfSlot k) (winBase x)) (List.replicate (min (winLen x) (0xC000 - winBase x)) 0) ∧
          (slotAt t k).frames = rest ∧ (slotAt t k).world = f.caller ∧ (slotAt t k).sc.pc = f.ret ∧ (slotAt t k).sc.g = f.g ∧
          (slotAt t k).sc.lc0 = f.lc0 ∧ (slotAt t k).sc.lc1 = f.lc1 ∧ (slotAt t k).tr = { x.tr with thandler := f.thandler } ∧
          (slotAt t k).lmbase = f.lmbase ∧ (slotAt t k).lmbound = f.lmbound ∧ (slotAt t k).deadline = f.mark ∧
          (slotAt t k).vec.bank = f.bank ∧
          ∀ r : BitVec 5, regOf t (.slot k) r = if h : 11 ≤ r.toNat then f.saved[r.toNat - 11]'(by omega) else regOf s (.slot k) r) ∧
      (x.vec.seq = [] → (∀ e ∈ x.eng.tenures, e.granted = true → e.depth ≠ n) → 5 ≤ n → ∀ u, refillPage s = .ok u → u.cur = s.cur →
        exec .gret s = .next (setSlot u k { slotAt u k with
          state := .parked, park := some { reason := .memory, abandon := false, cont := .ret } })) ∧
      Writes (.gwdr d a) s d (match id.toNat % 8 with
        | 0 => w64 (f.caller % 4096) | 1 => f.gate | 2 => f.window | 3 => w64 n | _ => 0) ∧
      (let g := x.sc.g[7]
       let off := id.toNat
       let len := wd.toNat
       let inside := f.window.toNat / 2 ^ 32 % 2 ^ 24 ≠ 0 ∧ g.w0.toNat / 2 ^ 60 = 0 ∧ g.w0.toNat / 2 ^ 57 = 5 ∧ g.w1.toNat / 2 ^ 54 = 0 ∧ off + len ≤ g.w1.toNat % 2 ^ 48 + 1
       (¬ inside → ∃ v, exec (.gwin d a b) s = .next (takeTrap (bumpFree s) 0x13 v)) ∧
       (inside → f.window.toNat % 2 ^ 32 + off < 2 ^ 32 → ∃ t h, exec (.gwin d a b) s = .next t ∧ RegIs s t d 0 ∧ GoneOn s t ∧
         SameBytes s t ∧ (slotAt t k).frames = h :: rest ∧
         h = { f with window := w64 (f.window.toNat / 2 ^ 56 * 2 ^ 56 + len % 2 ^ 24 * 2 ^ 32 + f.window.toNat % 2 ^ 32 + off) } ∧
         (slotAt t k).sc.g[7] = if len = 0 then Seg.void else
           { w0 := g.w0, w1 := w64 (g.w1.toNat / 2 ^ 48 * 2 ^ 48 + (len - 1)) }))) ∧
    (∀ u i w g r q, (slotAt u k).park = some { reason := r, abandon := q, cont := .call i w g } → k < 2 ^ 20 → g.ldem < 128 →
      ∃ t, exec (.memoryReply k) u = .next t ∧ (slotAt t k).world = (slotAt u k).world / 64 * 64 + g.callee ∧
        (slotAt t k).sc.pc = w64 g.entry ∧ (slotAt t k).frames.length = (slotAt u k).frames.length + 1 ∧
        (NotHeld u k → sessionHeld u ((slotAt u k).world / 64 * 64 + g.callee) = false →
          (slotAt t k).state = .ready ∧ (slotAt t k).park = none)) ∧
    Writes (.gstat d a) s d (match (if id.toNat / 2 ^ 16 = 0 then gateAt s id.toNat else none) with
      | none => 0
      | some g => w64 (1 + (if g.allow.getLsbD (x.world % 64) then 2 else 0) + (if g.vec then 4 else 0) + 2 ^ 16 * g.budget))

/-- R222, R298, R305, R306, R307: GPUB checks an image and its segment set in order and publishes it or withdraws the gate; a deadline
that has passed unwinds with status 2, through the frame's cleanup when it has one, which 4,096 clocks or its GRET end. -/
def Obligations.GatesPublishExpireAndCleanUp : Prop :=
  ∀ (s : State) (k : Nat) (d a : BitVec 5) (g : BitVec 3),
    let x := slotAt s k
    let ix := (rd s d).toNat
    (s.cur = .slot k → (1024 ≤ ix → Writes (.gpub d a g) s d 3) ∧
      (let bs := localBytes s k (cvaOf s g (rd s a) 0) 32
       let zero := ∀ c ∈ bs, c = 0
       let w := x.world
       ix < 1024 → LocalBlock s k g (rd s a) 0 32 32 1 → Quiet s k →
       (zero → DoesAnd (.gpub d a g) s (setGate s w ix none) d 0) ∧
       (¬ zero → imageCallee bs ≠ w % 64 → Writes (.gpub d a g) s d 1) ∧
       (¬ zero → imageCallee bs = w % 64 → imageOk bs = false → Writes (.gpub d a g) s d 2) ∧
       ∀ p v pl, ¬ zero → imageCallee bs = w % 64 → imageOk bs = true → partOfSlot s k = some p →
         pagePart s p (imageSet bs) 112 1 3 (w64 (imageSet bs)) (some w) = .ok (v, pl) →
         (placeDown v pl = true → ∃ y, exec (.gpub d a g) s = .next (takeTrap (bumpFree v) 0x16 y)) ∧
         (placeDown v pl = false →
         let u := notePlace v pl
         let set := threadBytes u k pl.ty pl.addrs
         ((∀ i < 7, setSegOk u p (w % 64) (imageLdem bs) (segAt set (16 * i)) = true) →
           DoesAnd (.gpub d a g) s (setGate u w ix (some (burgeeOf bs set))) d 0) ∧
         ((∃ i < 7, setSegOk u p (w % 64) (imageLdem bs) (segAt set (16 * i)) = false) → DoesAnd (.gpub d a g) s u d 2)))) ∧
    (expiredDepth s x = none → exec (.budgetExpiry k) s = .next s) ∧
    ∀ f rest, x.frames = f :: rest →
      (∀ c, x.deadline = some c → c ≤ s.cycle → (∀ i ≤ rest.length, ∀ h, frameAt x i = some h → ∀ m, h.mark = some m → s.cycle < m) →
        (∀ m, f.mark = some m → s.cycle < m) → (∀ i h, 1 ≤ i → frameAt x i = some h → frameRevoked s h = false) →
        x.unwind = none → x.tr.tl ≠ 2 → x.state = .ready → x.park = none →
        (f.cleanup = 0 → rest.length < 4 → ∃ t, exec (.budgetExpiry k) s = .next t ∧ Resumed s t k f 2) ∧
        (f.cleanup ≠ 0 → f.cleaning = false → (worldOf s f.callee).live = true → isRevoked s f.callee = false →
          (worldOf s f.callee).epoch = f.epoch → ∃ t, exec (.budgetExpiry k) s = .next t ∧ CleansUp s t k f 2)) ∧
      ∀ u due, x.unwind = some u → u.cleanup = some due → u.kill = none → u.halts = false → u.affected = rest.length + 1 →
        f.cleaning = true → x.state = .ready → x.park = none →
        (due ≤ s.cycle → rest.length < 4 → ∃ t, exec (.cleanupDeadline k) s = .next t ∧ Resumed s t k f u.status) ∧
        (s.cycle < due → exec (.cleanupDeadline k) s = .next s) ∧
        (s.cur = .slot k → x.vec.seq = [] → (∀ e ∈ x.eng.tenures, e.granted = true → e.depth ≠ rest.length + 1) → rest.length < 4 →
          ∃ t, exec .gret s = .next t ∧ Resumed s t k f u.status)

/-! ### Gateway cores and links -/

/-- R219, R366 to R369, R371 to R375: GWQ pops the queue of a port or frees a block slot, BARQ adds two blocks, GWSEND sends one;
they are illegal elsewhere. A block that arrives takes a free slot or waits; a port goes down after 64 retransmissions and comes
back by a retrain; a message of a peer reaches the owner's inbox with its stamp raised to the gvt of the partition; whether a flit is
the one that failed last is free (log entry 82). BARQ of INT8 adds byte by byte and saturates with OF; a block of MXINT8 whose sums
keep the binade of the common scale is the plain sums; a block of -0 elements stays so (R56, R66, R374). The formats BARQ adds and what
its trap leaves are log entry 57, and what GWQ and GWSEND answer for a port that is not the core's own is log entry 94. What GWQ leaves in
s[a] when it frees a slot is not stated: it is free (log entry 4). -/
def Obligations.GatewaysAndLinksCarryBlocks : Prop :=
  (∀ (s : State) (k : Nat) (a b : BitVec 5), s.cur = .slot k →
    let x := slotAt s k
    let core := coreOfSlot k
    let p := (rd s b).toNat % 64
    let mine := p < 36 ∧ partOfPort s p = partOfSlot s k ∧ partOfSlot s k ≠ none
    let q := portAt s p
    let put := fun (u : State) (y : Port) => { u with mod := { u.mod with ports := insert u.mod.ports p y } }
    (core < 2048 → ∀ i ∈ [Instr.gwq a b, .barq a b, .gwsend a b], Traps i s 0x01 (s.word.setWidth 64)) ∧
    (2048 ≤ core →
      (¬ mine → Writes (.gwq a b) s a (BitVec.allOnes 64)) ∧
      (mine → (rd s b).msb = false →
        (q.queue = [] → Writes (.gwq a b) s a (BitVec.allOnes 64)) ∧
        ∀ i rest, q.queue = i :: rest → DoesAnd (.gwq a b) s (put s { q with queue := rest }) a (w64 i)) ∧
      (mine → (rd s b).msb = true → (rd s a).toNat % 16 ∈ q.used → q.waiting = [] →
        ∃ v, DoesAnd (.gwq a b) s (put { s with free := s.free + 1 }
          { q with used := q.used.filter fun j => !(j == (rd s a).toNat % 16) }) a v) ∧
      ∀ (n m : Nat),
        let X := localBytes s k (cvaOf s 3 (rd s a) 0) n
        let Y := localBytes s k (cvaOf s 3 (rd s b) 0) m
        let h := headOfBlock (X.take 64)
        n = h.size → Quiet s k →
        (LocalBlock s k 3 (rd s a) 0 n 1 3 → m = (headOfBlock (Y.take 64)).size → LocalBlock s k 3 (rd s b) 0 m 1 1 →
          (h ≠ headOfBlock (Y.take 64) ∨ h.adds = false → Writes (.barq a b) s a 1) ∧
          (h = headOfBlock (Y.take 64) → h.adds = true →
            let r := sumBlocks h X Y
            (r.2 &&& enabledFlags s k ≠ 0 → ∃ v, exec (.barq a b) s = .next (takeTrap (bumpFree s) (0x08 + r.2.toNat * 512) v)) ∧
            (r.2 &&& enabledFlags s k = 0 → MemoryOk s →
              ∃ t, exec (.barq a b) s = .next t ∧ RegIs s t a 0 ∧ GoneOn s t ∧
                BytesAt s t (flatLocal core (cvaOf s 3 (rd s a) 0)) (X.take 64 ++ r.1) ∧
                (slotAt t k).sc.fpflags = x.sc.fpflags ||| r.2.setWidth 64))) ∧
        (LocalBlock s k 3 (rd s a) 0 n 1 1 →
          (¬ mine → p < 36 → partOfPort s p = none → DoesAnd (.gwsend a b) s (countDie s 4 12 (partOfSlot s k) 1) a 1) ∧
          (¬ mine → ¬ (p < 36 ∧ partOfPort s p = none) → Writes (.gwsend a b) s a 1) ∧
          (mine → q.up = false → Writes (.gwsend a b) s a 1) ∧
          (mine → q.up = true →
            ∃ t, exec (.gwsend a b) s = .next t ∧ ParkedAs s t k .memory false (.reply a 0) ∧
              (portAt t p).sent = q.sent ++ [X] ∧ (portAt t p).retries = 0 ∧
              ((portAt s (core - 2048)).waiting = [] → SameBytes s t))))) ∧
  (∀ (s : State) (port : Nat) (block : List (BitVec 8)),
    let x := portAt s port
    let putIn := fun (u : State) (y : Port) => { u with mod := { u.mod with ports := insert u.mod.ports port y } }
    let put := putIn s
    let flit := choose s 2
    let tries := if flit.2 = 1 then x.retries + 1 else 1
    (partOfPort s port = none ∨ 36 ≤ port → ∃ t, exec (.reductionBlockArrival port block) s = .next t ∧ SameBytes s t ∧
      t.mod.ports = s.mod.ports) ∧
    (partOfPort s port ≠ none → port < 36 →
      (∀ i, freeBlock x = some i → MemoryOk s → ∃ t, exec (.reductionBlockArrival port block) s = .next t ∧
        BytesAt s t (flatLocal (2048 + port) (2048 * i)) (block.take 2048) ∧
        (portAt t port).queue = x.queue ++ [i] ∧ (portAt t port).used = x.used ++ [i]) ∧
      (freeBlock x = none → exec (.reductionBlockArrival port block) s = .next (put { x with waiting := x.waiting ++ [block] }))) ∧
    (36 ≤ port ∨ x.up = false → exec (.flitRetransmit port) s = .next s) ∧
    (port < 36 → x.up = true → ∃ t, exec (.flitRetransmit port) s = .next t ∧
      if tries < 64 then t = putIn flit.1 { x with retries := tries } else (portAt t port).up = false) ∧
    (port < 36 → ∃ t, exec (.portDown port) s = .next t ∧ (portAt t port).up = false ∧
      (x.up = true → (claimAt t (128 + port)).occurred = true ∧
        (s.mod.faultLog.length < 64 → ∃ r, t.mod.faultLog = s.mod.faultLog ++ [r] ∧ r.kind = 7 ∧ r.number = port ∧
          r.cycle = s.cycle))) ∧
    (port < 36 → exec (.linkRetrain port) s = .next (put { x with up := true, retries := 0 })) ∧
    ∀ (part : Nat) (name : BitVec 64) (cluster core stamp : Nat) (payload : List (BitVec 64)) (y : PartSt),
      partAt s part = some y → payload.length ≤ 8 → s.network = [] →
      (∀ c, counterAt s part (name.toNat % 2 ^ 31) = some c → inboxFull s c.ownerCore = false →
        ∃ t m, exec (.remoteMessageArrival part name cluster core stamp payload) s = .next t ∧ SameBytes s t ∧
          (coreAt t c.ownerCore).inbox = (coreAt s c.ownerCore).inbox ++ [m] ∧ m.stamp = max stamp y.gvt ∧
          m.payload = payload ∧ m.name = name.toNat % 2 ^ 31 ∧ m.cluster = cluster ∧ m.core = core) ∧
      (counterAt s part (name.toNat % 2 ^ 31) = none →
        ∃ t, exec (.remoteMessageArrival part name cluster core stamp payload) s = .next t ∧ SameBytes s t ∧
          t.network = [] ∧ t.cores = s.cores)) ∧
  ∀ (h : BlockHead) (X Y : List (BitVec 8)),
    let n := h.count
    let one := fun (i : Nat) => (X.getD (64 + i) 0).toInt + (Y.getD (64 + i) 0).toInt
    64 + n ≤ X.length → 64 + n ≤ Y.length →
    (h.fmt = 1 →
      (sumBlocks h X Y).1 = (List.range n).map (fun i => BitVec.ofInt 8 (max (-128) (min 127 (one i)))) ∧
      (sumBlocks h X Y).2 = if (List.range n).all (fun i => decide (-128 ≤ one i) && decide (one i ≤ 127)) then 0 else fOF) ∧
    (n ≤ blockLen h.blen → 0 < n → 64 + n < X.length → 64 + n < Y.length →
      let c := X.getD (64 + n) 0
      (h.fmt = 20 → c ≠ 0xFF → Y.getD (64 + n) 0 = c → (∀ i < n, -127 ≤ one i ∧ one i ≤ 127) → (∃ i < n, 64 ≤ one i ∨ one i ≤ -64) →
        sumBlocks h X Y = ((List.range n).map (fun i => BitVec.ofInt 8 (one i)) ++ [c], 0)) ∧
      (h.fmt = 15 → c ≠ 0xFF → Y.getD (64 + n) 0 ≠ 0xFF →
        (∀ i < n, X.getD (64 + i) 0 = 0x80 ∧ Y.getD (64 + i) 0 = 0x80) →
        sumBlocks h X Y = (List.replicate n 0x80 ++ [0], 0)))

/-! ### Codes that name another slot -/

/-- R223, R224, R226, R49, R314, R396: a target spec names a slot of the executor's own core; SLOTRD and SLOTWR read and write its
items, the state word and the special registers among them, QUOIN protects its window, SLOTKILL kills its task, SLOTGO starts a record
on it, each with its status (a record of a launch that was turned away is invalid and one of an unknown launch starts: log entry 60);
SVPOST queues a word for slot 15, and EVSEL selects and clears a counter, which counts for the partition of its core; an EVSEL whose
source or number is bad traps 0x01 whatever the level (log entry 84). -/
def Obligations.SlotCodesActOnTheirTarget : Prop :=
  ∀ (s : State) (k j : Nat) (d a : BitVec 5), s.cur = .slot k →
    let x := slotAt s k
    let y := slotAt s j
    let core := coreOfSlot k
    let v := (rd s a).toNat
    let item := v / 2 ^ 32 % 2 ^ 16
    (k < 2 ^ 15 → v / 2 ^ 15 % 2 = 0 →
      target s v = if v / 2 ^ 8 % 128 * 16 + v / 2 ^ 4 % 16 = core then some (core * 16 + v % 16) else none) ∧
    (k % 16 = 15 ∨ x.tr.tl = 2 →
      (target s v = none → Writes (.slotgo d a) s d 2 ∧ Writes (.slotkill d a) s d 2 ∧ Writes (.slotwr d a) s d 2 ∧
        Traps (.slotrd d a) s 0x02 (s.word.setWidth 64) ∧ Traps (.quoin d a) s 0x02 (s.word.setWidth 64)) ∧
      (target s v = some j →
        Writes (.slotrd d a) s d (itemRead s j item) ∧
        (item = 1 → itemRead s j item = y.sc.pc) ∧
        (∀ r : BitVec 5, item = 0x10 + r.toNat → itemRead s j item = regOf s (.slot j) r) ∧
        (∀ i : Fin 8, (item = 0x40 + 2 * i.val → itemRead s j item = w64 ((y.sc.g[i]).w0.toNat % 2 ^ 60)) ∧
          (item = 0x41 + 2 * i.val → itemRead s j item = w64 ((y.sc.g[i]).w1.toNat % 2 ^ 54))) ∧
        (0x1110 ≤ item ∨ 0x50 ≤ item ∧ item < 0x1000 → itemRead s j item = BitVec.allOnes 64) ∧
        (item = 0 → y.ganged = false → NotHeld s j →
          let code := match y.state with | .empty => 0 | .ready => 1 | .parked => 2 | .splitWait => 3
          let reason := match y.park with
            | none => 0
            | some q => match q.reason with
              | .memory => 0 | .notPresent => 1 | .matrix => 2 | .divide => 3 | .sequencer => 4 | .copy => 5 | .tile => 6
              | .galley => 7 | .wait => 8 | .barrier => 9 | .bank => 10 | .join => 11 | .held => 12 | .record => 13
          itemRead s j item = w64 (code + 2 ^ 8 * reason + 2 ^ 16 * y.tr.tl + 2 ^ 32 * (y.world % 4096))) ∧
        (∀ n ≤ 0x41, item = 0x1000 + n →
          let reads := fun (m : Nat) (w : Word) => n = m → itemRead s j item = w
          reads 0x00 (w64 (j % 16)) ∧ reads 0x05 (w64 (y.world % 4096)) ∧ reads 0x06 (w64 y.tr.tl) ∧ reads 0x07 y.tr.tcause1 ∧
          reads 0x08 y.tr.tepc1 ∧ reads 0x09 y.tr.tval1 ∧ reads 0x0A y.tr.tcause2 ∧ reads 0x0B y.tr.tepc2 ∧ reads 0x0C y.tr.tval2 ∧
          reads 0x0D y.tr.thandler ∧ reads 0x0E y.sc.fpmode ∧ reads 0x0F y.sc.fpflags ∧ reads 0x11 (w64 y.vec.vtype) ∧
          reads 0x13 (if y.ganged then 1 else 0) ∧ (∀ i : Fin 8, reads (0x14 + i) ((y.vec.seeds[i]).setWidth 64)) ∧
          reads 0x1C (coreAt s core).vtime ∧ (∀ i : Fin 8, reads (0x1E + i) (y.task.mbx[i])) ∧ reads 0x26 y.sc.lc0.count ∧
          reads 0x27 y.sc.lc1.count ∧ reads 0x28 y.sc.uepc ∧ reads 0x29 y.sc.xferid ∧ reads 0x2B (w64 y.frames.length) ∧
          reads 0x2D y.task.taskid ∧ (∀ i : Fin 3, reads (0x2E + i) ((y.task.tile[i]).setWidth 64)) ∧
          reads 0x31 (w64 (y.task.launch % 2 ^ 32)) ∧ reads 0x32 (w64 s.cycle) ∧ reads 0x3B y.lmbase ∧ reads 0x3C y.lmbound ∧
          reads 0x3D (if y.quoin then 1 else 0) ∧ reads 0x3E y.hspill ∧ reads 0x3F y.sgbase) ∧
        (∀ i : Fin 8, (item = 0x1100 + i.val → itemRead s j item = w64 ((y.sc.g[i]).w0.toNat % 2 ^ 60)) ∧
          (item = 0x1108 + i.val → itemRead s j item = w64 ((y.sc.g[i]).w1.toNat % 2 ^ 54))) ∧
        (j % 16 = 15 → Writes (.slotwr d a) s d 2 ∧ Writes (.slotkill d a) s d 2 ∧ Writes (.slotgo d a) s d 1 ∧
          Writes (.quoin d a) s d 3) ∧
        (j % 16 ≠ 15 →
          (item = 0 ∨ 0x1110 ≤ item ∨ 0x50 ≤ item ∧ item < 0x1000 → Writes (.slotwr d a) s d 3) ∧
          (let busy := y.state = .ready ∨ (∃ q, y.park = some q ∧ q.abandon = false)
           (busy → (item = 1 ∨ 0x10 ≤ item ∧ item < 0x30 ∨ 0x40 ≤ item ∧ item < 0x50) → Writes (.slotwr d a) s d 1) ∧
           (¬ busy → item = 1 → j ≠ k → DoesAnd (.slotwr d a) s (setPcOf s (.slot j) (rd s d)) d 0) ∧
           (¬ busy → ∀ r : BitVec 5, item = 0x10 + r.toNat → DoesAnd (.slotwr d a) s (setRegOf s (.slot j) r (rd s d)) d 0) ∧
           (item = 0x103B → y.quoin = false → DoesAnd (.slotwr d a) s (setSlot s j { y with lmbase := rd s d &&& 0xFF00 }) d 0) ∧
           (item = 0x103C → y.quoin = false → DoesAnd (.slotwr d a) s (setSlot s j { y with lmbound := rd s d &&& 0xFF00 }) d 0)) ∧
          (let high := 0xB000 < winBase y + winLen y
           let meets := ∃ e ∈ s.slots, e.1 ≠ j ∧ coreOfSlot e.1 = coreOfSlot j ∧ e.2.quoin = true ∧ windowsMeet y e.2 = true
           (high → Writes (.quoin d a) s d 2) ∧ (¬ high → meets → Writes (.quoin d a) s d 1) ∧
           (¬ high → ¬ meets → DoesAnd (.quoin d a) s (setSlot s j { y with quoin := true }) d 0)) ∧
          (y.state = .empty → (rd s a).msb = false → Writes (.slotkill d a) s d 1) ∧
          (y.state = .empty → (rd s a).msb = true → DoesAnd (.slotkill d a) s (setSlot s j { y with quoin := false }) d 1) ∧
          (TaskAlone s j → (rd s a).msb = false → j = k → ∃ t, exec (.slotkill d a) s = .next t ∧
            Killed s t j 4 0 y.tr.tl (threadWorld y) y.sc.pc) ∧
          (TaskAlone s j → (rd s a).msb = false → j ≠ k → y.state = .ready → NotHeld s k →
            ∃ t, exec (.slotkill d a) s = .next t ∧ Killed s t j 4 0 y.tr.tl (threadWorld y) y.sc.pc ∧
              rd t d = 0 ∧ (slotAt t k).state = .ready ∧ (slotAt t k).park = none) ∧
          (startable s j = false → Writes (.slotgo d a) s d 1) ∧
          (let bs := localBytes s k (cvaOf s 1 (rd s d) 0) 32
           let r := parseRecord bs
           startable s j = true → j ≠ k → LocalBlock s k 1 (rd s d) 0 32 32 1 → Quiet s k →
           let refused := ∃ l, launchAt s core r.launch = some l ∧ (l.status = 4 ∨ (l.status = 1 ∧ l.reason ≠ 0 ∧ l.reason ≠ 7))
           (r.entry % 4 ≠ 0 ∨ r.flags / 2 ≠ 0 ∨ refused → Writes (.slotgo d a) s d 3) ∧
           (r.entry % 4 = 0 → r.flags / 2 = 0 → ¬ refused →
             ∃ t, exec (.slotgo d a) s = .next t ∧ RegIs s t d 0 ∧ GoneOn s t ∧ SameBytes s t ∧
               (slotAt t j).state = .ready ∧ (slotAt t j).sc.pc = w64 r.entry ∧ regOf t (.slot j) 3 = w64 r.arg ∧
               (slotAt t j).world = worldId ((partOfSlot s j).getD 64) (v / 2 ^ 16 % 64) ∧
               (slotAt t j).task.tile = r.tile ∧ (slotAt t j).task.launch = r.launch))))) ∧
    (let n := ((coreAt s core).delivered.filter (·.posted)).length
     (16 ≤ n → Writes (.svpost d a) s d 1) ∧
     (n < 16 → x.park = none → ∃ t e, exec (.svpost d a) s = .next t ∧ RegIs s t d 0 ∧ GoneOn s t ∧ SameBytes s t ∧
       (coreAt t core).delivered = (coreAt s core).delivered ++ [e] ∧ e.posted = true ∧ e.payload = [rd s a] ∧
       (slotAt t (core * 16 + 15)).eng.pend.getLsbD 0 = true)) ∧
    (let w := (rd s d).toNat
     let n := v % 128
     let new : EvCounter := { source := w % 2 ^ 16, qualifier := w / 2 ^ 16 % 16, part := partOfCore s core, value := 0 }
     let die := if 2048 ≤ core then 4 else core / 512
     (selectOk w n = false → Traps (.evsel d a) s 0x01 (s.word.setWidth 64)) ∧
     (selectOk w n = true → 7 < n → k % 16 ≠ 15 → x.tr.tl ≠ 2 → Traps (.evsel d a) s 0x02 (s.word.setWidth 64)) ∧
     (selectOk w n = true → n ≤ 7 → Does (.evsel d a) s (setCore s core { coreAt s core with
       evcnt := insert (coreAt s core).evcnt n new })) ∧
     (selectOk w n = true → k % 16 = 15 ∨ x.tr.tl = 2 →
       (8 ≤ n → n ≤ 23 → Does (.evsel d a) s (setCluster s (core / 16) { clusterAt s (core / 16) with
         evcnt := insert (clusterAt s (core / 16)).evcnt n new })) ∧
       (24 ≤ n → Does (.evsel d a) s { s with mod := { s.mod with
         dieCounters := insert s.mod.dieCounters (die * 64 + (n - 24)) new } })))

/-! ### Maintenance and revocation -/

/-- R224, R237, R240, R241, R296, R354, R384, R385: the codes that park with reason 0 until what they ask for is done: FLUSHL, INVL and
PGINV, whose translations go at once, though it waits also for the accesses that an earlier one waits for; BANKSET, which goes behind
those that wait for its bank, and whose bank switches to its mode and reads as zero once it is quiet (on a gateway core it takes 0x1A:
log entry 48); WREVK, whose world is revoked at its revocation point and whose tiles are freed and whose key is erased when the drain
is done (R260). -/
def Obligations.MaintenanceCodesParkUntilDone : Prop :=
  ∀ (s : State) (k : Nat) (d a : BitVec 5) (g : BitVec 3) (e : BitVec 2),
    let x := slotAt s k
    let core := coreOfSlot k
    let cl := clusterOfSlot k
    (s.cur = .slot k →
      (∀ u pl, onePlace (access s g (rd s a) 0 1 1 1 0) = .ok (u, pl) →
        exec (.flushl g a) s = .next (parkOf u (.slot k) .memory false (.flush [])) ∧
        exec (.invl g a) s = .next (parkOf (setCore u core { coreAt u core with
          l1d := (coreAt u core).l1d.filter fun l => !(l == pl.addrs.getD 0 0 / 64) }) (.slot k) .memory false (.flush []))) ∧
      (k % 16 = 15 ∨ x.tr.tl = 2 →
        (∀ p, partOfSlot s k = some p → ∃ t l, exec (.pginv e a) s = .next t ∧ SameBytes s t ∧
          ParkedAs s t k .memory false (.flush l) ∧
          (∀ q, ∀ y, y ∈ (clusterAt t q).tlb ↔ y ∈ (clusterAt s q).tlb ∧ ¬ (y.part = p ∧ namedBy e (rd s a).toNat y = true)) ∧
          (∀ q, ∀ y ∈ (clusterAt s q).tlb, y.part = p → namedBy e (rd s a).toNat y = true → y.flat / 4096 ∈ l) ∧
          ∀ j r b m, (slotAt s j).park = some { reason := r, abandon := b, cont := .flush m } → ∀ n ∈ m, n ∈ l) ∧
        (let b := (rd s a).toNat % 16
         let m := (rd s a).toNat / 2 ^ 4 % 4
         (m = 3 → Traps (.bankset d a) s 0x01 (s.word.setWidth 64)) ∧
         (m ≠ 3 → 2048 ≤ core → Traps (.bankset d a) s 0x1A (w64 b)) ∧
         (m ≠ 3 → core < 2048 →
           let ahead := banksets s cl b ≠ []
           (bankMode s cl b = m → ¬ ahead → Writes (.bankset d a) s d 0) ∧
           (bankMode s cl b ≠ m → ¬ ahead → fifoBusy s cl b = true → Traps (.bankset d a) s 0x1A (w64 b)) ∧
           (ahead ∨ bankMode s cl b ≠ m ∧ fifoBusy s cl b = false → exec (.bankset d a) s = .next (setSlot { s with nextId := s.nextId + 1 } k
             { x with state := .parked,
                      park := some { reason := .memory, abandon := false, cont := .bankset d cl b m s.nextId } })))) ∧
        (let w := (rd s a).toNat % 64
         (w = 0 → Writes (.wrevk d a) s d 2) ∧
         (∀ p, w ≠ 0 → partOfSlot s k = some p →
           let y := worldOf s (worldId p w)
           (y.revoked = true ∨ y.revoking ≠ none → Writes (.wrevk d a) s d 1) ∧
           (y.revoked = false → y.revoking = none → ∃ t, exec (.wrevk d a) s = .next t ∧ SameBytes s t ∧
             ParkedAs s t k .memory false (.revoke d p w) ∧
             worldOf t (worldId p w) = { y with revoking := some ((rd s a).toNat / 2 ^ 8 % 2 == 1, false) }))))) ∧
    (k < 2 ^ 20 → s.cur = .slot k → NotHeld s k →
      (∀ l, x.park = some { reason := .memory, abandon := false, cont := .flush l } →
        (pagesQuiet s l = true → ∃ t, exec (.memoryReply k) s = .next t ∧ SameRegs s t ∧ GoneOn s t ∧ SameBytes s t ∧
          (slotAt t k).state = .ready ∧ (slotAt t k).park = none) ∧
        (pagesQuiet s l = false → exec (.memoryReply k) s = .next s)) ∧
      ∀ c b m o, c < 128 → b < 16 → m < 3 → firstBankset (banksets s c b) = some (o, .slot k, d, m) → bankMode s c b ≠ m →
        (fifoBusy s c b = false → bankQuiet s c b = false → exec (.bankSwitchPoint c b) s = .next s) ∧
        (fifoBusy s c b = false → bankQuiet s c b = true →
          ∃ t, exec (.bankSwitchPoint c b) s = .next t ∧ bankMode t c b = m ∧
            (∀ i < 2 ^ 17, memRead t.mem (flatScratch c (b * 2 ^ 17) + i) = 0) ∧
            (bankMode s c b ≠ 1 → RegIs s t d 0 ∧ (slotAt t k).state = .ready ∧ (slotAt t k).park = none) ∧
            (bankMode s c b ≠ 1 → MemoryOk s → ∀ i, (i < flatScratch c (b * 2 ^ 17) ∨ flatScratch c (b * 2 ^ 17) + 2 ^ 17 ≤ i) → memRead t.mem i = memRead s.mem i))) ∧
    ∀ (p w : Nat) (m : Bool), w < 64 →
      let id := worldId p w
      ((worldOf s id).revoking = some (m, false) →
        ((∃ q ∈ s.slots, concerns id q.2 = true ∧ stoppedFor s q.1 q.2 = false) → exec (.revocationPoint p w) s = .next s) ∧
        ((∀ q ∈ s.slots, concerns id q.2 = true → stoppedFor s q.1 q.2 = true) →
          ∃ u, exec (.revocationPoint p w) s = .next (carryStops u) ∧ SameBytes s u ∧ u.slots = s.slots ∧
            worldOf u id = { worldOf s id with
              revoked := true, live := false, gates := [], epoch := (worldOf s id).epoch + 1, revoking := some (m, true) } ∧
            ∀ c, partOfCore s c = some p → ∀ y ∈ (coreAt u c).galleys, y.2.world ≠ id)) ∧
      ((worldOf s id).revoking = some (m, true) →
        (worldQuiet s id = false → exec (.revocationDrainDone p w) s = .next s) ∧
        (∀ y, worldQuiet s id = true → partAt s p = some y → (∀ c ∈ y.saves, c.world ≠ id) →
          ∃ t z, exec (.revocationDrainDone p w) s = .next t ∧ partAt t p = some z ∧
            ((∀ e ∈ y.tiles, ∀ v, e.2.tile = some v → v.owner ≠ id) → SameBytes s t) ∧
            (∀ i v, tileAt t p i = some v → v.owner ≠ id) ∧
            (worldOf t id).key = none ∧ (worldOf t id).session = none ∧ (worldOf t id).revoking = none ∧
            (∀ q, (worldOf s id).key = some q → m = true → y.destroyed.length < 4096 → fingerprint q ∈ z.destroyed) ∧
            (s.cur = .slot k → NotHeld s k → (∃ r b, x.park = some { reason := r, abandon := b, cont := .revoke d p w }) →
              RegIs s t d 0 ∧ (slotAt t k).state = .ready ∧ (slotAt t k).park = none)))

/-- R227, R319 to R322, R384, R400: CXSAVE asks its target to stop and, once it has, writes the sealed image and its length and leaves
the target Empty with its context kept under a save counter that has risen; CXREST checks an image in order, where a key seen first counts
as 0, and puts its slot back; KEYLD unwraps a key into its slot. CXREST and KEYLD then wait with reason 0 for their status. What is put
back is the copy kept beside the counter (log entry 14); a sequencer that runs is let finish before a save (log entry 52), which is in
saveReady; an image that fails beyond its header is log entry 88. -/
def Obligations.ContextsAreSavedAndRestored : Prop :=
  ∀ (s : State) (k j : Nat) (d a : BitVec 5), s.cur = .slot k → k < 2 ^ 15 →
    let x := slotAt s k
    let y := slotAt s j
    let privileged := k % 16 = 15 ∨ x.tr.tl = 2
    let bs := localBytes s k (cvaOf s 1 (rd s d) 0) 32
    let f := descFields bs
    (privileged → LocalBlock s k 1 (rd s d) 0 32 32 3 → Quiet s k →
      (cxTarget s a = none → Writes (.cxsave d a) s d 2) ∧
      (cxTarget s a = some j →
        let ok := descOk bs = true ∧ f.getD 3 0 % 64 = 0 ∧ f.getD 3 0 ≤ 2 ^ 21 ∧ scratchOk s (clusterOfSlot j) (f.getD 2 0) (f.getD 3 0) = true ∧
          worldKey s y.task.world ≠ none
        let g := BitVec.ofNat 3 (f.getD 1 0)
        (y.state = .empty → Writes (.cxsave d a) s d 1) ∧ (y.state ≠ .empty → ¬ ok → Writes (.cxsave d a) s d 2) ∧
        (y.state ≠ .empty → ok → x.park = none → (segOf s s.cur g).w0.toNat / 2 ^ 57 = 0 → Writes (.cxsave d a) s d 2) ∧
        (y.state ≠ .empty → ok → LocalBlock s k g (w64 (f.getD 0 0)) 0 64 1 3 → ∃ t, exec (.cxsave d a) s = .next t ∧ SameBytes s t ∧ (slotAt t j).stopSave = true ∧
          (slotAt t k).state = .parked ∧ (slotAt t k).sc = x.sc ∧
          (slotAt t k).park = some { reason := .memory, abandon := false, cont := .cxsave d j (f ++ [(rd s d).toNat]) }))) ∧
    (privileged → LocalBlock s k 1 (rd s d) 0 32 32 1 → Quiet s k →
      (cxTarget s a = none → Writes (.cxrest d a) s d 2) ∧
      (cxTarget s a = some j →
        let p := (partOfSlot s j).getD 64
        (y.state ≠ .empty → Writes (.cxrest d a) s d 1) ∧ (y.state = .empty → descOk bs = false → Writes (.cxrest d a) s d 2) ∧
        (y.state = .empty → descOk bs = true →
          let g := BitVec.ofNat 3 (f.getD 1 0)
          let off := w64 (f.getD 0 0)
          let h := localBytes s k (cvaOf s g off 0) 64
          let seen := recField h 0 4 = 0x4B584349 ∧ recField h 4 2 = 1
          let w := recField h 8 2
          let n := recField h 12 4
          let img := localBytes s k (cvaOf s g off 0) n
          let old := saveCounter s p w (f.getD 4 0)
          (x.park = none → (segOf s s.cur g).w0.toNat / 2 ^ 57 = 0 → Writes (.cxrest d a) s d 2) ∧
          (LocalBlock s k g off 0 64 1 1 →
          (¬ seen → Writes (.cxrest d a) s d 5) ∧
          (seen → (w / 64 ≠ p ∨ worldKey s w = none) → Writes (.cxrest d a) s d 4) ∧
          ∀ key, seen → w / 64 = p → worldKey s w = some key →
            let tag := kmac256 ((imageKeys key (f.getD 4 0)).drop 64) (img.take (n - 16)) 16 "CXT"
            ((old.map (·.counter)).getD 0 ≠ dword h 16 → Writes (.cxrest d a) s d 3) ∧
            ((old.map (·.counter)).getD 0 = dword h 16 → 0 < n → LocalBlock s k g off 0 n 1 1 →
              (n < 80 ∨ img.drop (n - 16) ≠ tag → Writes (.cxrest d a) s d 4) ∧
              (80 ≤ n → img.drop (n - 16) = tag → (∀ c, old = some c → placeOk s j c (f.getD 2 0) = false) →
                Writes (.cxrest d a) s d 2) ∧
          ∀ c v q, 80 ≤ n → img.drop (n - 16) = tag → old = some c → placeOk s j c (f.getD 2 0) = true →
            c.slots = [v] → v.banks = [] → v.slot.eng.tenures = [] → v.slot.vec.seq = [] → v.slot.park = none →
            v.slot.task.gangSize ≤ 1 → v.slot.frames.length ≤ 4 → partAt s p = some q →
            ∃ u, exec (.cxrest d a) s = .next (parkOf (carryStops u) (.slot k) .memory false (.reply d 0)) ∧
              (slotAt u j).state = .ready ∧ (slotAt u j).sc.s = v.slot.sc.s ∧ (slotAt u j).sc.pc = v.slot.sc.pc ∧
              (slotAt u j).tr.tl = v.slot.tr.tl ∧ (slotAt u j).world = v.slot.world ∧ (slotAt u j).task = v.slot.task ∧
              ∃ e, saveCounter u p c.world c.context = some e ∧ e.counter = c.counter + 1 ∧ e.slots = []))))) ∧
    (∀ (l : List Nat) (p ctx : Nat) (key : BitVec 256) (q : PartSt), j ≠ k →
      x.park = some { reason := .memory, abandon := false, cont := .cxsave d j l } → y.state ≠ .empty → savedSlots s j = [j] →
      saveReady s j = true → (∀ i ∈ stopsFor s j, canStop s i = true ∨ (slotAt s i).state = .splitWait) →
      l.getD 3 0 = 0 → l.getD 4 0 = ctx → partOfSlot s j = some p → partAt s p = some q → q.saves.length < 4096 →
      worldKey s y.task.world = some key → saveCounter s p y.task.world ctx = none →
      let m : ImageOf := { slots := [j], scratchAt := l.getD 2 0, scratchLen := 0, context := ctx, counter := 1 }
      let image := sealImage (imageKeys key ctx) (imageHeader s m) (imageBody s m (clusterOfSlot j)) 1
      let g := BitVec.ofNat 3 (l.getD 1 0)
      let at_ := flatLocal (coreOfSlot k) (cvaOf s g (w64 (l.getD 0 0)) 0)
      let len := flatLocal (coreOfSlot k) (cvaOf s 1 (w64 (l.getD 5 0 + 12)) 0)
      LocalBlock s k g (w64 (l.getD 0 0)) 0 image.length 1 3 → LocalBlock s k 1 (w64 (l.getD 5 0 + 12)) 0 4 1 3 → Quiet s k →
      NotHeld s k →
      ∃ t c, exec (.memoryReply k) s = .next t ∧ (slotAt t j).state = .empty ∧ rd t d = 0 ∧ (slotAt t k).state = .ready ∧
        (∀ i < winLen y, winBase y + i < 0xC000 → memRead t.mem (flatLocal (coreOfSlot j) (winBase y + i)) = 0) ∧
        (∀ i < image.length, (∀ b < winLen y, at_ + i ≠ flatLocal (coreOfSlot j) (winBase y + b)) →
          (at_ + i < len ∨ len + 4 ≤ at_ + i) → memRead t.mem (at_ + i) = image.getD i 0) ∧
        (∀ i < 4, (∀ b < winLen y, len + i ≠ flatLocal (coreOfSlot j) (winBase y + b)) →
          memRead t.mem (len + i) = (leBytes 4 image.length).getD i 0) ∧
        saveCounter t p y.task.world ctx = some c ∧ c.counter = 1) ∧
    (let w := (rd s a).toNat % 64
     let kb := localBytes s k (cvaOf s 1 (rd s d) 0) 64
     ∀ p, privileged → LocalBlock s k 1 (rd s d) 0 64 64 1 → Quiet s k → partOfSlot s k = some p →
       let z := worldOf s (worldId p w)
       let ends := fun (u : State) (v : Nat) =>
         exec (.keyld d a) s = .next (parkOf u (.slot k) .memory false (.reply d (w64 v)))
       let full := ∃ y, partAt s p = some y ∧ 4096 ≤ y.destroyed.length
       (full → ends s 1) ∧ (¬ full → z.key ≠ none ∨ z.revoking ≠ none → ends s 2) ∧
       (¬ full → z.key = none → z.revoking = none →
         (keyToLoad s p w kb = none → ends s 1) ∧
         ∀ id y q, keyToLoad s p w kb = some (id, y, q) → ∃ u, ends u 0 ∧ SameBytes s u ∧ u.slots = s.slots ∧
           (worldOf u (worldId p w)).key = some q ∧ (worldOf u (worldId p w)).session = some id ∧
           (worldOf u (worldId p w)).revoked = false ∧ unwrapKey y kb w p = some q))

/-! ### Launches -/

/-- R218, R326, R327, R329 to R332, R363, R364: a captured packet gives its records to the fetcher or cancels a launch; a fetched
record is accepted, and its checks are made in order; a launch becomes eligible in its turn, a STEP launch with its batch; its
colophon is written when its work is over, and raises its stream counter; SQEND retires a sequence of the batch. A REVOKED PASID
cancels nothing (log entry 25), and the work is over as log entry 20 says. -/
def Obligations.LaunchesRunAndEnd : Prop :=
  (∀ (s : State) (q : Nat),
    let f := ifaceAt s q
    let put := fun (u : State) (y : Iface) => { u with mod := { u.mod with ifaces := insert u.mod.ifaces q y } }
    let ended := fun (e : Nat) => put s { f with capture := none, captures := f.captures + 1, err := if e = 0 then f.err else e }
    (f.capture = none → exec (.submit q) s = .next s ∧ exec (.cancel q) s = .next s) ∧
    (∀ v, f.capture = some v →
      let bs := v.toList
      let op := recField bs 0 4 / 2 ^ 24 % 16
      let pasid := recField bs 0 4 % 2 ^ 20
      (op = 1 → exec (.submit q) s = .next s) ∧ (op ≠ 1 → exec (.cancel q) s = .next s) ∧
      (op ≠ 1 →
        (pasidEntry s f pasid = none → exec (.submit q) s = .next (ended 2)) ∧
        (pasidEntry s f pasid ≠ none → packetOk bs = false → exec (.submit q) s = .next (ended 3)) ∧
        (pasidEntry s f pasid ≠ none → packetOk bs = true → ∃ y, exec (.submit q) s = .next (put s y) ∧ y.capture = none ∧
          y.accepted = f.accepted ∧ y.err = f.err ∧ y.fetch.take f.fetch.length = f.fetch ∧
          y.fetch.length = f.fetch.length + recField bs 4 4 ∧
          ∀ i < recField bs 4 4, ∃ r, y.fetch[f.fetch.length + i]? = some r ∧ r.pva = dword bs 8 + 128 * i ∧ r.pasid = pasid ∧
            r.vec = if recField bs 0 4 / 2 ^ 28 % 2 = 1 then some (recField bs 16 1) else none)) ∧
      (op = 1 →
        (pasidEntry s f pasid = none → exec (.cancel q) s = .next (ended 2)) ∧
        ∀ e, pasidEntry s f pasid = some e →
          (packetOk bs = false → exec (.cancel q) s = .next (ended 3)) ∧
          (packetOk bs = true → entryRevoked e = true → exec (.cancel q) s = .next (ended 0)) ∧
          (packetOk bs = true → entryRevoked e = false →
            (cancelled s q (recField bs 4 4) = none → exec (.cancel q) s = .next (ended 3)) ∧
            ∀ l, cancelled s q (recField bs 4 4) = some l →
              l.queue = q ∧ l.seqNo = recField bs 4 4 ∧ l.phase ≠ 2 ∧
              let gone := l.status = 4 ∨ (l.status = 1 ∧ l.reason ≠ 0 ∧ l.reason ≠ 7) ∨ l.status ∈ [2, 3, 5]
              (gone → exec (.cancel q) s = .next (ended 0)) ∧
              (¬ gone → launchOf s l.id = some l →
                ∃ t m, exec (.cancel q) s = .next t ∧ (ifaceAt t q).capture = none ∧ launchOf t l.id = some m ∧ m.status = 5 ∧
                  ∀ k, TaskAlone s k → (slotAt s k).state = .ready → (slotAt s k).task.launch = l.id →
                    partOfSlot s k = some l.part → (slotAt t k).state = .empty)))) ∧
    (f.fetch = [] → exec (.launchFetch q) s = .next s) ∧
    (∀ r rest, f.fetch = r :: rest →
      let drop := fun (e : Nat) => put s { f with err := e, fetch := f.fetch.filter fun x => x.packet != r.packet }
      (pasidEntry s f r.pasid = none → exec (.launchFetch q) s = .next (drop 2)) ∧
      ∀ e, pasidEntry s f r.pasid = some e →
        (devRead s f.part r.pva 128 = none → exec (.launchFetch q) s = .next (drop 4)) ∧
        ∀ bs, devRead s f.part r.pva 128 = some bs →
          ∃ l t, exec (.launchFetch q) s = .next t ∧ t.launches = s.launches ++ [l] ∧
            t.mod.ifaces = insert s.mod.ifaces q { f with accepted := f.accepted + 1, fetch := rest } ∧ t.mem = s.mem ∧
            t.slots = s.slots ∧ t.cores = s.cores ∧ t.clusters = s.clusters ∧ t.parts = s.parts ∧
            l.id = s.launches.length + 1 ∧ l.part = f.part ∧ l.queue = q ∧ l.seqNo = recField bs 8 4 ∧ l.phase = 0 ∧
            l.accepted = s.cycle ∧ l.entry = recField bs 20 4 ∧ l.code = dword bs 24 % 2 ^ 57 ∧ l.data = dword bs 32 % 2 ^ 57 ∧
            l.world = worldId f.part (recField bs 4 1 % 64) ∧ l.vec = r.vec ∧
            (let map := layoutOk bs = false ∨ entryRevoked e = true ∨ recField bs 4 1 % 64 ≠ entryWorld e
             (map → l.status = 4 ∧ l.reason = 0) ∧
             (¬ map → fieldsOk bs = false → l.status = 1 ∧ l.reason = 1) ∧
             (¬ map → fieldsOk bs = true →
               (headerOfKernel s l.part l.code l.entry = none → l.status = 1 ∧ l.reason = 2) ∧
               ∀ h, headerOfKernel s l.part l.code l.entry = some h →
                 let g := fun (i : Nat) => if (recGang bs).all (· == 0) then recField h (4 + i) 1 else recField bs (5 + i) 1
                 let n := g 0 * g 1 * g 2
                 let odd := recFlags bs / 2 % 2 = 1 ∧ n % 2 = 1
                 let wide := ∀ x, partAt s l.part = some x → ∀ c ∈ x.clusters, slotsInService s c < n
                 let keyless := (worldOf s l.world).revoked = true ∨ (worldOf s l.world).key = none
                 let granted := fun (j : Nat) =>
                   let q := (segAt h (32 + 32 * j)).tidy
                   withinGrant s l.part (worldNo l.world) { q with w1 := q.w1 &&& ~~~(1#64 <<< 53) }
                 (odd → l.status = 1 ∧ l.reason = 3) ∧ (¬ odd → wide → l.status = 1 ∧ l.reason = 4) ∧
                 (¬ odd → ¬ wide → keyless → l.status = 1 ∧ l.reason = 5) ∧
                 (¬ odd → ¬ wide → ¬ keyless →
                   ((∃ j ∈ [0, 1, 2], (recField h 7 1).testBit j = true ∧ granted j = false) → l.status = 1 ∧ l.reason = 6) ∧
                   ((∀ j ∈ [0, 1, 2], (recField h 7 1).testBit j = true → granted j = true) →
                     l.status = 0 ∧ l.reason = 0)))))) ∧
  (∀ (s : State) (n : Nat) (l : Launch), launchOf s n = some l →
    let runs := l.phase = 0 ∧ l.status = 0 ∧ predecessorDone s l = true ∧
      (l.waitCnt / 2 ^ 15 = 0 ∨ l.waitVal ≤ (streamCounter s l.part l.waitCnt).toNat)
    let finished := l.phase ≠ 2 ∧ predecessorDone s l = true ∧ launchOver s l = true ∧ writesHome s n = true
    (¬ runs → exec (.launchEligible n) s = .next s) ∧
    (runs → l.flags / 4 % 2 = 0 → exec (.launchEligible n) s = .next (modLaunch s n fun x => { x with phase := 1 })) ∧
    (runs → l.flags / 4 % 2 = 1 →
      let fifo := ((partAt s l.part).map (·.admission)).getD []
      let budget := l.mbx[7].toNat
      ∃ t m more, exec (.launchEligible n) s = .next t ∧ launchOf t n = some m ∧ m.phase = 1 ∧
        m.stamp = gvtOf s (some l.part) + 1 ∧ (∀ i ∈ more, i ∈ fifo) ∧
        m.batch = (List.range 4096).filter (fun i => seqState s l.part i == 2) ++ more ∧
        (∀ i rest, fifo = i :: rest → seqState s l.part i = 1 →
          (seqTokens s l.part i ≤ budget → i ∈ more) ∧ (budget < seqTokens s l.part i → more = [])) ∧
        (l.dataLen < l.mbx[1].toNat + 4 * m.batch.length → m.status = 1 ∧ m.reason = 7) ∧
        (l.mbx[1].toNat + 4 * m.batch.length ≤ l.dataLen → m.status = 0 ∧ m.mbx[6] = w64 m.batch.length)) ∧
    (¬ finished → exec (.colophonWrite n) s = .next s) ∧
    (let refused := l.status = 4 ∨ (l.status = 1 ∧ l.reason ≠ 0 ∧ l.reason ≠ 7)
     let stopped := l.status ∈ [2, 3, 5]
     (refused ∨ l.reason = 7 → launchOver s l = true) ∧
     (¬ refused → l.reason ≠ 7 →
       (∀ k, (slotAt s k).state ≠ .empty → (slotAt s k).task.launch = l.id → partOfSlot s k = some l.part →
         exec (.colophonWrite n) s = .next s) ∧
       (¬ stopped → l.phase ≠ 1 ∨ l.nextGang ≠ l.grid[0] * l.grid[1] * l.grid[2] ∨ l.again ≠ [] →
         exec (.colophonWrite n) s = .next s)) ∧
     ∀ e ∈ s.iq ++ s.transit, e.launch = some n → WritesMem e → exec (.colophonWrite n) s = .next s) ∧
    (finished → ∃ t m, exec (.colophonWrite n) s = .next t ∧ launchOf t n = some m ∧ m.phase = 2 ∧ m.status = l.status ∧
      (∀ x, partAt s l.part = some x → ∀ i < 4096,
        streamCounter t l.part i = streamCounter s l.part i + if l.sigCnt / 2 ^ 15 = 1 ∧ i = l.sigCnt % 4096 then 1 else 0) ∧
      ((∀ x, partAt s l.part = some x → x.retiring = [] ∧ ∀ e ∈ x.tiles, ∀ y, e.2.tile = some y → holdsFor l.id y = false) →
        SameBytes (devWrite s l.part l.colophon (leBytes 4 l.seqNo ++ leBytes 1 l.status ++ leBytes 3 0 ++
          leBytes 8 (s.cycle - l.accepted) ++ leBytes 1 l.cause ++ leBytes 1 l.killKind ++ leBytes 1 l.reason ++ leBytes 1 0 ++
          leBytes 4 l.faultTask ++ leBytes 8 l.faultPc.toNat)) t))) ∧
  (∀ (s : State) (w : BitVec 64),
    let p := w.toNat / 2 ^ 12 % 64
    let i := w.toNat % 4096
    (seqState s p i ≠ 1 → exec (.admissionWrite w) s = .next s) ∧
    ∀ x, partAt s p = some x → seqState s p i = 1 →
      exec (.admissionWrite w) s = .next { s with parts := insert s.parts p { x with admission := x.admission ++ [i] } }) ∧
  ∀ (s : State) (k : Nat) (a : BitVec 5), OnCluster s k →
    let v := (rd s a).toNat
    let id := (slotAt s k).task.launch
    (4096 ≤ v → Writes (.sqend a) s a 3) ∧
    (v < 4096 → launchOf s id = none → Writes (.sqend a) s a 1) ∧
    ∀ l p x, v < 4096 → launchOf s id = some l → partOfSlot s k = some p → partAt s p = some x →
      (v ∉ l.batch → Writes (.sqend a) s a 1) ∧
      (v ∈ l.batch → (∃ i, (v, i) ∈ x.retiring) → Writes (.sqend a) s a 2) ∧
      (v ∈ l.batch → (∀ i, (v, i) ∉ x.retiring) →
        let e := x.seqPva + 32 * v
        ∃ t, exec (.sqend a) s = .next t ∧ RegIs s t a 0 ∧ GoneOn s t ∧
          partAt t p = some { x with retiring := x.retiring ++ [(v, id)] } ∧
          SameBytes (devWrite (devWrite s p e (leBytes 1 3)) p (e + 24) (leBytes 8 l.stamp)) t)

/-! ### Pages not present, tiers, and accesses from outside -/

/-- R315, R316, R353, R356, R357, R358, R361, R362: a fault record is joined or posted, and its token wakes its waiters; a walk
that finishes is kept; access counters halve; the tier engine marks the frame with the lowest counter, never one that is locked, and
moves it once it is quiet; a flip changes BIAS with the status of its port, and no port keeps a translation of its frame (R230). That
faults join by pages of 4 KiB, and that a record stays pending until its token wakes it, is log entry 26; that a table in the metadata
region is not written there is log entry 2. -/
def Obligations.FaultRecordsTiersAndFlipsRun : Prop :=
  (∀ (s : State) (th : Nat),
    (absence s th = none → exec (.faultRecordPost th) s = .next s) ∧
    ∀ a x, absence s th = some a → partAt s a.part = some x →
      let same := fun (r : FaultRec) => r.page = a.addr / 4096 ∧ r.stage2 = a.stage2
      (∀ r, x.faults.find? (fun r => r.page == a.addr / 4096 && r.stage2 == a.stage2) = some r →
        ∃ t y, exec (.faultRecordPost th) s = .next t ∧ partAt t a.part = some y ∧ y.pend = x.pend ∧ y.tail = x.tail ∧
          y.faults = x.faults.map fun z => if z.token = r.token then { z with waiters := z.waiters + 1, threads := z.threads ++ [th] }
            else z) ∧
      ((∀ r ∈ x.faults, ¬ same r) → 2 ^ x.faultLog2 ≤ x.pend → exec (.faultRecordPost th) s = .next s) ∧
      ((∀ r ∈ x.faults, ¬ same r) → x.pend < 2 ^ x.faultLog2 → x.faults.length < 2 ^ 32 - 1 →
        ∃ t y r, exec (.faultRecordPost th) s = .next t ∧ partAt t a.part = some y ∧ y.faults = x.faults ++ [r] ∧
          same r ∧ r.write = a.write ∧ r.waiters = 1 ∧ r.threads = [th] ∧ r.token ≠ 0 ∧ r.token < 2 ^ 32 ∧
          (∀ z ∈ x.faults, z.token ≠ r.token) ∧ y.pend = x.pend + 1 ∧ y.tail = x.tail + 1 ∧
          (x.pend = 0 → a.part < 64 → (claimAt t a.part).occurred = true) ∧
          SameBytes (devWrite s a.part (x.faultPva + 32 * (x.tail % 2 ^ x.faultLog2))
            (leBytes 8 (a.addr % 2 ^ 57 + flag a.stage2 * 2 ^ 62 + flag a.write * 2 ^ 63) ++ leBytes 2 a.world ++ leBytes 1 a.kind ++
              leBytes 1 1 ++ leBytes 2 (a.cluster % 128 + a.core % 16 * 2 ^ 8 + a.unit % 16 * 2 ^ 12) ++ leBytes 2 0 ++
              leBytes 4 r.token ++ leBytes 12 0)) t)) ∧
  (∀ (s : State) (w : BitVec 64),
    let p := w.toNat / 2 ^ 32 % 64
    (∀ x, partAt s p = some x → (∀ r ∈ x.faults, r.token ≠ w.toNat % 2 ^ 32) → exec (.wakePort w) s = .next s) ∧
    ∀ x r, partAt s p = some x → x.faults.find? (fun r => r.token == w.toNat % 2 ^ 32) = some r →
      ∃ t, exec (.wakePort w) s = .next t ∧ SameBytes s t ∧
        partAt t p = some { x with faults := x.faults.filter fun y => y.token != r.token } ∧
        (∀ k, k ∉ r.threads → slotAt t k = slotAt s k) ∧
        ∀ k ∈ r.threads, k < 2 ^ 20 → NotHeld s k → ∀ q b a wr kind,
          (slotAt s k).park = some { reason := q, abandon := b, cont := .fault a r.stage2 wr kind true } → a / 4096 = r.page →
            (slotAt t k).state = .ready ∧ (slotAt t k).park = none ∧ (slotAt t k).sc = (slotAt s k).sc) ∧
  (∀ (s : State) (c pva : Nat),
    (partOfCluster s c = none → exec (.walkComplete c pva) s = .next s) ∧
    ∀ p, partOfCluster s c = some p →
      (∀ u, walk s p pva = .ok u → ∃ t, exec (.walkComplete c pva) s = .next t ∧ SameBytes s t ∧ u ∈ (clusterAt t c).tlb) ∧
      ((∀ u, walk s p pva ≠ .ok u) → exec (.walkComplete c pva) s = .next s)) ∧
  (∀ s : State, ∃ t, exec .accessCounterHalve s = .next t ∧ SameBytes s t ∧ t.slots = s.slots ∧
    ∀ p, partAt t p = (partAt s p).map fun x => { x with frameCounts := x.frameCounts.map fun f => { f with count := f.count / 2 } }) ∧
  (∀ (s : State) (p : Nat) (x : PartSt), partAt s p = some x →
    let quiet := fun (f : Nat) => rangeQuiet s (entryFlat (entryAt s p x f)) (2 ^ 21) = true
    (∀ k, 2 ≤ k → exec (.tierDemote p k) s = .next s) ∧
    (∀ k < 2,
      let l := (listedFrames s x).filter fun f => isCandidate x k (entryAt s p x f) && (movingOf x f).isNone
      let goes := tierOn x = true ∧ (stackCount x k < lowOf x k ∨ (k ∈ x.demoting ∧ stackCount x k < highOf x k)) ∧
        stackCount x (k + 1) ≠ 0
      (∀ f, markedFor x k = some f →
        (quiet f → 0 < stackCount x (k + 1) → ∃ t, exec (.tierDemote p k) s = .next t ∧ FrameMoved s t p x f k (k + 1)) ∧
        (¬ quiet f ∨ stackCount x (k + 1) = 0 → exec (.tierDemote p k) s = .next s)) ∧
      (markedFor x k = none → ¬ goes ∨ l = [] →
        exec (.tierDemote p k) s = .next (setPart s p { x with demoting := x.demoting.filter fun j => j != k })) ∧
      (∀ f ∈ l, markedFor x k = none → goes →
        (∀ g ∈ l, frameCount x f < frameCount x g ∨ frameCount x f = frameCount x g ∧ f ≤ g) →
        (let e := entryAt s p x f; e % 2 = 1 ∧ e / 2 ^ 9 % 4 = 0 ∧ e / 2 ^ 7 % 4 = k ∧ e / 2 ^ 6 % 2 = 0) ∧
        ∃ t y, exec (.tierDemote p k) s = .next t ∧ SameBytes s t ∧ partAt t p = some y ∧ movingOf y f = some k ∧ k ∈ y.demoting)) ∧
    ∀ f : Nat,
      let e := entryAt s p x f
      let hot := tierOn x = true ∧ promoOf x ≠ 0 ∧ promoOf x ≤ frameCount x f ∧ lowOf x 0 < stackCount x 0 ∧ e % 2 = 1 ∧
        e / 2 ^ 9 % 4 = 0 ∧ (e / 2 ^ 7 % 4 = 1 ∨ e / 2 ^ 7 % 4 = 2) ∧ movingOf x f = none
      (movingOf x f = some 2 → quiet f → 0 < stackCount x 0 → e / 2 ^ 7 % 4 ≠ 0 →
        ∃ t, exec (.tierPromote p f) s = .next t ∧ FrameMoved s t p x f (e / 2 ^ 7 % 4) 0) ∧
      (movingOf x f = some 2 → ¬ quiet f ∨ stackCount x 0 = 0 → exec (.tierPromote p f) s = .next s) ∧
      (hot → markedFor x 2 = none →
        ∃ t y, exec (.tierPromote p f) s = .next t ∧ SameBytes s t ∧ partAt t p = some y ∧ movingOf y f = some 2) ∧
      (movingOf x f ≠ some 2 → ¬ hot ∨ markedFor x 2 ≠ none → exec (.tierPromote p f) s = .next s)) ∧
  ∀ (s : State) (w : BitVec 64),
    let p := w.toNat / 2 ^ 56 % 64
    let f := w.toNat / 2 ^ 21 % 2 ^ 25
    (partAt s p = none → exec (.flipToHost w) s = .next (answered s 1) ∧ exec (.flipToDevice w) s = .next (answered s 1)) ∧
    ∀ x, partAt s p = some x →
      let e := entryAt s p x f
      let at_ := x.stage2 + 8 * f
      (movingOf x f ≠ some 3 → isDeviceFrame e = false → exec (.flipToHost w) s = .next (answered s 1)) ∧
      (movingOf x f ≠ some 3 → isDeviceFrame e = true →
        (e / 2 ^ 6 % 2 = 1 → exec (.flipToHost w) s = .next (answered s 2)) ∧
        (e / 2 ^ 6 % 2 = 0 → movingOf x f ≠ none → exec (.flipToHost w) s = .next (answered s 3)) ∧
        (e / 2 ^ 6 % 2 = 0 → movingOf x f = none → ∃ t y, exec (.flipToHost w) s = .next t ∧ SameBytes s t ∧
          t.mod = s.mod ∧ partAt t p = some y ∧ movingOf y f = some 3)) ∧
      (movingOf x f = some 3 → rangeQuiet s (entryFlat e) (2 ^ 21) = false → exec (.flipToHost w) s = .next s) ∧
      (movingOf x f = some 3 → rangeQuiet s (entryFlat e) (2 ^ 21) = true → MemoryOk s → isWindow at_ = false →
        (∀ i < 8, isMetadata (at_ + i) = false) →
        ∃ t y, exec (.flipToHost w) s = .next t ∧ BytesAt s t at_ (leBytes 8 (if e / 2 ^ 6 % 2 = 1 then e else e + 64)) ∧
          partAt t p = some y ∧ movingOf y f = none ∧ lookupD t.mod.portStatus s.mod.portReader 9 = 0 ∧
          (∀ c, ∀ u ∈ (clusterAt t c).tlb, u.part = p → f ∉ u.frames)) ∧
      (isDeviceFrame e = false → exec (.flipToDevice w) s = .next (answered s 1)) ∧
      (isDeviceFrame e = true →
        (e / 2 ^ 6 % 2 = 0 → exec (.flipToDevice w) s = .next (answered s 2)) ∧
        (e / 2 ^ 6 % 2 = 1 → movingOf x f ≠ none → exec (.flipToDevice w) s = .next (answered s 3)) ∧
        (e / 2 ^ 6 % 2 = 1 → movingOf x f = none → MemoryOk s → isWindow at_ = false → (∀ i < 8, isMetadata (at_ + i) = false) →
          ∃ t, exec (.flipToDevice w) s = .next t ∧ BytesAt s t at_ (leBytes 8 (e - 64)) ∧ t.slots = s.slots ∧
            lookupD t.mod.portStatus s.mod.portReader 9 = 0 ∧ ∀ c, ∀ u ∈ (clusterAt t c).tlb, u.part = p → f ∉ u.frames))

/-- R244, R335, R359, R360, R380, R381, R389: the host and a peer write open device memory at its home, byte for byte, and nothing
that does not open; a read of a sealed page answers poison; a write of the management window becomes a port operation of the host; the host writes its own memory; a soft
error is corrected, or poisons its line. -/
def Obligations.OutsideAccessesReachOpenMemory : Prop :=
  ∀ (s : State) (dpa n : Nat) (data : List (BitVec 8)),
    let bs := data.take n
    let wrote := fun (t : State) => ∀ a, memRead t.mem a =
      if dpa ≤ a ∧ a < dpa + bs.length ∧ openByte s a = true then bs.getD (a - dpa) 0 else memRead s.mem a
    let asWas := fun (t : State) => t.slots = s.slots ∧ t.cores = s.cores ∧ t.launches = s.launches ∧ t.clusters = s.clusters
    (isWindow dpa = true → exec (.hostAccess true dpa n data) s =
      .next { s with mod := { s.mod with portWrites := s.mod.portWrites ++ [(0, dpa - 0xF00000000000, w64 (leNat bs))] } }) ∧
    (isWindow dpa = false → MemoryOk s → ∃ t, exec (.hostAccess true dpa n data) s = .next t ∧ wrote t ∧ asWas t) ∧
    (∃ t, exec (.hostAccess false dpa n data) s = .next t ∧ SameBytes s t ∧ asWas t ∧
      ((∀ i < n, openByte s (dpa + i) = true) → t.mod.outsideReply = some (dpa, some (memReadBytes s.mem dpa n))) ∧
      ((∃ i < n, isWindow (dpa + i) = false ∧ openByte s (dpa + i) = false) → t.mod.outsideReply = some (dpa, none))) ∧
    (∀ p, partAt s p = none → ∀ wr, exec (.peerMemoryAccess p wr dpa n data) s = .next s) ∧
    (∀ p x, partAt s p = some x →
      let inside := ∀ a, dpa ≤ a → a < dpa + n → inGranules x.granules a = true
      (¬ inside → ∀ wr, ∃ t, exec (.peerMemoryAccess p wr dpa n data) s = .next t ∧ SameBytes s t ∧ asWas t) ∧
      (inside → MemoryOk s → ∃ t, exec (.peerMemoryAccess p true dpa n data) s = .next t ∧ wrote t ∧ asWas t) ∧
      (inside → ∃ t, exec (.peerMemoryAccess p false dpa n data) s = .next t ∧ SameBytes s t ∧ asWas t)) ∧
    (MemoryOk s → ∃ t, exec (.cxlCacheSnoop true dpa n data) s = .next t ∧ BytesAt s t (2 ^ 60 + dpa) bs ∧ asWas t) ∧
    exec (.cxlCacheSnoop false dpa n data) s = .next s ∧
    (let line := dpa / 64 * 64
     (∃ t, exec (.softError dpa true) s = .next t ∧ SameBytes s t ∧ asWas t ∧ t.poison = s.poison) ∧
     (line ∈ s.poison → exec (.softError dpa false) s = .next s) ∧
     (line ∉ s.poison → exec (.softError dpa false) s = .next { s with poison := s.poison ++ [line] }))

/-! ### Partitions, claims and the words of the window -/

/-- R8, R317, R318, R333, R335, R355, R361, R363, R365, R367, R396, R399: a partition is created from a descriptor whose fields
are valid and whose resources are free, and its teardown closes its launches and ends its span; a claim word changes the entry of
its source with its status, and an event goes where the claim bits that hold send it; a word of the window changes its writable
bits, a tier block while no move of its engine is under way, and a threshold below its reading raises source 164. Slot 15 of each core
runs from the creation on (log entry 22); when status 1 and status 2 both apply either may be answered, as is status 2 for the teardown of
a partition that does not exist (log entry 36). The model's also: the places of the notify pages (log entry 19) and of the MSI-X tables
(73), what a teardown clears (24), that a write of the window that is not aligned does nothing (37), and that a table whose PVA does not
translate passes (74). -/
def Obligations.PartitionsClaimsAndWindowWordsAct : Prop :=
  (∀ (s : State) (w d : BitVec 64),
    (dpaRead s (d.toNat % 2 ^ 57) 128 = none → exec (.partitionCreate w d) s = .next (answered s 2)) ∧
    ∀ bs, dpaRead s (d.toNat % 2 ^ 57) 128 = some bs →
      let p := recField bs 0 1
      let shut := fun (a : Nat) => inOpenPage s (newPart s bs) p a = false
      let bad := descOkay bs = false ∨ p ≠ w.toNat % 64 ∨ shut (dword bs 96) ∨ shut (dword bs 104)
      let busy := descBusy s bs = true
      (bad → ¬ busy → exec (.partitionCreate w d) s = .next (answered s 2)) ∧
      (¬ bad → busy → exec (.partitionCreate w d) s = .next (answered s 1)) ∧
      (bad → busy → ∃ v, (v = 1 ∨ v = 2) ∧ exec (.partitionCreate w d) s = .next (answered { s with free := s.free + 1 } v)) ∧
      (¬ bad → ¬ busy → ∃ t x, exec (.partitionCreate w d) s = .next t ∧ SameBytes s t ∧
        lookupD t.mod.portStatus s.mod.portReader 9 = 0 ∧ partAt t p = some x ∧ (∀ q ≠ p, partAt t q = partAt s q) ∧
        (∀ c, c ∈ x.clusters ↔ c < 128 ∧ (recField bs 16 16).testBit c = true) ∧
        (∀ c, c ∈ x.granules ↔ c < 64 ∧ (recField bs 32 8).testBit c = true) ∧
        (∀ i < 36, x.lanes.getD i 0 = recField bs 40 18 / 2 ^ (4 * i) % 16) ∧
        x.tileLog2 = recField bs 58 1 ∧ x.faultLog2 = recField bs 59 1 ∧ x.poolSize = recField bs 60 4 ∧ x.faultPva = dword bs 64 ∧
        x.seqPva = dword bs 72 ∧ x.stage1 = dword bs 80 ∧ x.stage2 = dword bs 88 ∧ x.grantPva = dword bs 96 ∧
        x.overflowPva = dword bs 104 ∧ x.overflowLog2 = recField bs 112 1 ∧
        x.gvt = 0 ∧ x.counters = [] ∧ x.tiles = [] ∧ x.pend = 0 ∧ (worldOf t (worldId p 0)).live = true ∧
        (worldOf t (worldId p 0)).key ≠ none ∧ (∀ v, 0 < v → v < 64 → worldOf t (worldId p v) = World.reset) ∧
        (∀ c, (c < 2048 ∧ c / 16 ∈ x.clusters ∨ 2048 ≤ c ∧ c < 2084 ∧ x.lanes.getD (c - 2048) 0 = 15) →
          (slotAt t (c * 16 + 15)).state = .ready ∧ (slotAt t (c * 16 + 15)).world = worldId p 0))) ∧
  (∀ (s : State) (w : BitVec 64),
    let p := w.toNat % 64
    (w.toNat / 2 ^ 62 ≠ 1 ∨ partAt s p = none → exec (.partitionTeardown w) s = .next (answered s 2)) ∧
    ∀ x, w.toNat / 2 ^ 62 = 1 → partAt s p = some x →
      ∃ t, exec (.partitionTeardown w) s = .next t ∧ lookupD t.mod.portStatus s.mod.portReader 9 = 0 ∧ partAt t p = none ∧
        (∀ l ∈ s.launches, l.part = p → l.phase ≠ 2 → ∃ m, launchOf t l.id = some m ∧ m.phase = 2) ∧
        (∀ c ∈ coresOfPart x, ∀ i < 16, slotAt t (c * 16 + i) = SlotSt.reset) ∧
        (∀ q < 36, x.lanes.getD q 0 = 15 → (portAt t q).queue = [] ∧ (portAt t q).used = [] ∧ (portAt t q).waiting = []) ∧
        (∀ c ∈ coresOfPart x, (coreAt t c).galleys = [] ∧ (coreAt t c).deque = [] ∧ (coreAt t c).inbox = [] ∧ (coreAt t c).evcnt = [] ∧
          ∀ i < 0xC000, memRead t.mem (flatLocal c i) = 0) ∧
        ∀ c ∈ x.clusters, (clusterAt t c).tlb = [] ∧ (clusterAt t c).counters = [] ∧ (clusterAt t c).evcnt = [] ∧
          ∀ i < 2 ^ 21, memRead t.mem (flatScratch c i) = 0) ∧
  (∀ (s : State) (w : BitVec 64),
    let n := w.toNat / 2 ^ 8 % 256
    let c := claimAt s n
    let host := w.toNat / 2 ^ 61 % 2 = 1
    let put := fun (v : Claim) => { s with mod := { s.mod with claims := insert s.mod.claims n v } }
    let entry := fun (vf vec : Nat) => leNat (memReadBytes s.mem ((lookupD s.mod.msix vf 0).toNat % 2 ^ 48 + 4 * vec) 4)
    let valid := fun (vf vec : Nat) => entry vf vec / 2 ^ 31 = 1 ∧ ∀ p, partOfSource n = some p → entry vf vec / 2 ^ 16 % 64 = p
    let sent := fun (t : State) (vf vec : Nat) =>
      (valid vf vec → (vf, entry vf vec % 2048) ∉ s.mod.msixMask →
        t.mod.sentInterrupts = s.mod.sentInterrupts ++ [(vf, entry vf vec % 2048)]) ∧
      (valid vf vec → (vf, entry vf vec % 2048) ∈ s.mod.msixMask →
        t.mod.sentInterrupts = s.mod.sentInterrupts ∧ (vf, entry vf vec % 2048) ∈ t.mod.msixPending) ∧
      (¬ valid vf vec → t.mod.sentInterrupts = s.mod.sentInterrupts)
    (198 ≤ n → ∀ i ∈ [Instr.claimSupervisor w, .claimHost w, .claimRelease w, .claimEscalate w],
      exec i s = .next (answered s 3)) ∧
    (n < 198 →
      (c.sup = true → exec (.claimSupervisor w) s = .next (answered s 1)) ∧
      (c.sup = false → c.pend = false → exec (.claimSupervisor w) s =
        .next (answered (put { c with sup := true, acore := w.toNat / 2 ^ 8 % 32, pend := false }) 0)) ∧
      (c.sup = false → c.pend = true → ∃ t, exec (.claimSupervisor w) s = .next t ∧
        claimAt t n = { c with sup := true, acore := w.toNat / 2 ^ 8 % 32, pend := false, occurred := true } ∧
        n ∈ (appAt t (w.toNat / 2 ^ 8 % 32)).pendingSources ∧ lookupD t.mod.portStatus s.mod.portReader 9 = 0) ∧
      (let taken := { c with host := true, vec := w.toNat / 2 ^ 24 % 256, vf := w.toNat / 2 ^ 18 % 64 }
       (c.host = true → exec (.claimHost w) s = .next (answered s 1)) ∧
       (c.host = false → c.pend = false → exec (.claimHost w) s = .next (answered (put { taken with pend := false }) 0)) ∧
       (c.host = false → c.pend = true → c.sup = false → ∃ t, exec (.claimHost w) s = .next t ∧
         claimAt t n = { taken with pend := false, occurred := true } ∧ sent t taken.vf taken.vec ∧
         lookupD t.mod.portStatus s.mod.portReader 9 = 0)) ∧
      (host → c.host = false → exec (.claimRelease w) s = .next (answered s 2)) ∧
      (host → c.host = true → exec (.claimRelease w) s = .next (answered (put { c with host := false }) 0)) ∧
      (¬ host → c.sup = false → exec (.claimRelease w) s = .next (answered s 2)) ∧
      (¬ host → c.sup = true → exec (.claimRelease w) s = .next (answered (put { c with sup := false }) 0)) ∧
      (c.host = false → exec (.claimEscalate w) s = .next (answered s 2)) ∧
      (c.host = true → c.occurred = false → exec (.claimEscalate w) s = .next (answered s 0)) ∧
      (c.host = true → c.occurred = true → ∃ t, exec (.claimEscalate w) s = .next t ∧ sent t c.vf c.vec ∧
        lookupD t.mod.portStatus s.mod.portReader 9 = 0 ∧ t.mod.claims = s.mod.claims) ∧
      (c.sup = false → c.host = false → exec (.eventDelivery n) s = .next (put { c with occurred := true, pend := true })) ∧
      (c.sup = true → ∃ t, exec (.eventDelivery n) s = .next t ∧ n ∈ (appAt t c.acore).pendingSources ∧
        t.mod.sentInterrupts = s.mod.sentInterrupts ∧ claimAt t n = { c with occurred := true }) ∧
      (c.sup = false → c.host = true → ∃ t, exec (.eventDelivery n) s = .next t ∧ sent t c.vf c.vec ∧ t.apps = s.apps ∧
        claimAt t n = { c with occurred := true })) ∧
    (∀ m ≥ 198, exec (.eventDelivery m) s = .next s)) ∧
  ∀ (s : State) (off : Nat) (w : BitVec 64),
    let v := w.toNat
    let put := fun (i : Nat) (y : Iface) => { s with mod := { s.mod with ifaces := insert s.mod.ifaces i y } }
    let new : EvCounter := { source := v % 2 ^ 16, qualifier := v / 2 ^ 16 % 16, part := none, value := 0 }
    (off % 8 ≠ 0 → exec (.registerWrite off w) s = .next s ∧ exec (.counterWindowSelect off w) s = .next s) ∧
    (∀ p i x, p < 64 → i < 16 → partAt s p = some x → off = 0x1000 + 128 * p + 8 * i →
      ((∃ f ∈ x.frameCounts, ∃ m < 3, f.moving = some m) → exec (.registerWrite off w) s = .next s) ∧
      ((∀ f ∈ x.frameCounts, ∀ m < 3, f.moving ≠ some m) →
        ∃ t y, exec (.registerWrite off w) s = .next t ∧ SameBytes s t ∧ partAt t p = some y ∧
        (∀ j < 16, tierWord y j = if j = i then w &&& w64 (if i < 2 then 2 ^ 64 - 1 else if i = 8 then 0xFF01
          else if 8 < i then 0 else if i % 2 = 0 then 2 ^ 48 - 1 else 2 ^ 32 - 1) else tierWord x j))) ∧
    (∀ q < 512, off = 0x4000 + 16 * q → exec (.registerWrite off w) s =
      .next (put q { ifaceAt s q with config0 := w &&& w64 (2 ^ 48 - 1) })) ∧
    (∀ q < 512, off = 0x4008 + 16 * q → exec (.registerWrite off w) s =
      .next (put q { ifaceAt s q with config1 := w &&& w64 (2 ^ 63 + 63) })) ∧
    (∀ q < 64, off = 0x6000 + 8 * q → exec (.registerWrite off w) s =
      .next { s with mod := { s.mod with msix := insert s.mod.msix q (w &&& w64 (2 ^ 48 - 1)) } }) ∧
    (∀ p i x, p < 64 → i < 8 → partAt s p = some x → off = 0x7000 + 64 * p + 8 * i →
      ∃ t y, exec (.registerWrite off w) s = .next t ∧ SameBytes s t ∧ partAt t p = some y ∧
        ∀ j : Fin 64, y.routes[j] = if 8 * i ≤ j.val ∧ j.val < 8 * i + 8 then BitVec.ofNat 8 (v / 2 ^ (8 * (j.val - 8 * i)))
          else x.routes[j]) ∧
    (let high := v / 2 ^ 16 % 2 ^ 16
     let warm := v % 256
     (off = 0xE008 → s.mod.power ≤ high → s.mod.temp ≤ warm → exec (.registerWrite off w) s =
       .next { s with mod := { s.mod with pth := high, tth := warm } }) ∧
     (off = 0xE008 → high < s.mod.power ∨ warm < s.mod.temp → ∃ t, exec (.registerWrite off w) s = .next t ∧ SameBytes s t ∧
       t.slots = s.slots ∧ (claimAt t 164).occurred = true ∧
       t.mod.pth = (if high < s.mod.power then (s.mod.power + 100) % 2 ^ 16 else high) ∧
       t.mod.tth = if warm < s.mod.temp then (s.mod.temp + 4) % 2 ^ 8 else warm)) ∧
    (∀ vf vec, vf < 64 → vec < 2048 → off = 2 ^ 25 + 16 * (2048 * vf + vec) + 8 →
      ∃ m, exec (.registerWrite off w) s = .next { s with mod := m } ∧
        m = { s.mod with msixMask := m.msixMask, msixPending := m.msixPending, sentInterrupts := m.sentInterrupts } ∧
        (v / 2 ^ 32 % 2 = 1 → (vf, vec) ∈ m.msixMask ∧ m.msixPending = s.mod.msixPending ∧
          m.sentInterrupts = s.mod.sentInterrupts) ∧
        (v / 2 ^ 32 % 2 = 0 → (vf, vec) ∉ m.msixMask ∧ (vf, vec) ∉ m.msixPending ∧
          m.sentInterrupts = s.mod.sentInterrupts ++ if (vf, vec) ∈ s.mod.msixPending then [(vf, vec)] else [])) ∧
    (∀ q < 512,
      let f := ifaceAt s q
      (∀ i < 8, off = 2 ^ 24 + 4096 * q + 8 * i → ∃ y, exec (.registerWrite off w) s = .next (put q { f with packet := y }) ∧
        ∀ j : Fin 64, y[j] = if 8 * i ≤ j.val ∧ j.val < 8 * i + 8 then BitVec.ofNat 8 (v / 2 ^ (8 * (j.val - 8 * i)))
          else f.packet[j]) ∧
      (off = 2 ^ 24 + 4096 * q + 0x40 →
        (f.capture ≠ none → exec (.registerWrite off w) s = .next (put q { f with err := 1 })) ∧
        (f.capture = none → exec (.registerWrite off w) s = .next (put q { f with capture := some f.packet }))) ∧
      (off = 2 ^ 24 + 4096 * q + 0x80 → exec (.registerWrite off w) s =
        .next (put q { f with err := f.err - (f.err &&& v / 2 ^ 4 % 16) }))) ∧
    (∀ c i, c < 128 → i < 16 → off = 0x8000 + 128 * c + 8 * i →
      (selectOk v (8 + i) = false → exec (.counterWindowSelect off w) s = .next s) ∧
      (selectOk v (8 + i) = true → exec (.counterWindowSelect off w) s = .next (setCluster s c
        { clusterAt s c with evcnt := insert (clusterAt s c).evcnt (8 + i) new }))) ∧
    ∀ i < 320, off = 0xC000 + 8 * i →
      (selectOk v 24 = false → exec (.counterWindowSelect off w) s = .next s) ∧
      (selectOk v 24 = true → exec (.counterWindowSelect off w) s =
        .next { s with mod := { s.mod with dieCounters := insert s.mod.dieCounters i new } })

/-! ### Page keys, sessions, and what happens to the device -/

/-- R4, R380, R383, R386 to R393, R398, R399: the page-key port rewrites a page once it is quiet, with its status; a session is opened,
completed (with a grace of 1 s where the host gives none), kept by heartbeats, held and lost; a fault takes a part out of service and
discards its launches, and one of the host ports or the security processor is a module fault; power, temperature, clocks; module reset
and power-off. The order of the statuses of a page op, the owner byte of a record, how far a throttle lowers a clock and what of the
host's and peers' memory a reset keeps are the model's (log entries 28, 29, 32 and 33), and the algorithms and the secrets of a session
are log entry 17. -/
def Obligations.PageKeysSessionsAndDeviceEventsAct : Prop :=
  (∀ (s : State) (w : BitVec 64), exec (.pageKeyInvalidOp w) s = .next (answered s 2) ∧
    let n := w.toNat / 2 ^ 12 % 2 ^ 36
    let d := w.toNat / 2 ^ 48 % 2 ^ 12
    let old := pageAt s (4096 * n)
    let garbled := w.toNat / 2 ^ 60 % 4 ≠ 0 ∨ w.toNat % 4096 ≠ 0
    let away := worldKey s d = none ∨ isDpa (n * 4096) = false ∨ isWindow (n * 4096) = true ∨ isMetadata (n * 4096) = true
    let zeroed := fun (t : State) => ∀ a, memRead t.mem a = if 4096 * n ≤ a ∧ a < 4096 * n + 4096 then 0 else memRead s.mem a
    let done := fun (t : State) => n ∉ t.mod.pageMoves ∧ lookupD t.mod.portStatus s.mod.portReader 9 = 0
    (n ∉ s.mod.pageMoves → ∀ i ∈ [Instr.scrub w, .seal w, .openPage w],
      let unfit := garbled ∨ i = .seal w ∧ old.opened = false
      (unfit → exec i s = .next (answered s 2)) ∧ (¬ unfit → away → exec i s = .next (answered s 1)) ∧
      (¬ unfit → ¬ away → pageMoving s n = true → exec i s = .next (answered s 3)) ∧
      (¬ unfit → ¬ away → pageMoving s n = false → exec i s =
        .next { s with mod := { s.mod with pageMoves := s.mod.pageMoves ++ [n] } })) ∧
    (n ∈ s.mod.pageMoves → rangeQuiet s (4096 * n) 4096 = false → ∀ i ∈ [Instr.scrub w, .seal w, .openPage w],
      exec i s = .next s) ∧
    (n ∈ s.mod.pageMoves → rangeQuiet s (4096 * n) 4096 = true → MemoryOk s →
      (∃ t, exec (.scrub w) s = .next t ∧ done t ∧ zeroed t ∧ pageAt t (4096 * n) = { old with
        opened := false, dom := d, zero := BitVec.allOnes 64, const := 0, key := worldKey s d }) ∧
      (∃ t, exec (.openPage w) s = .next t ∧ done t ∧ zeroed t ∧ pageAt t (4096 * n) = { old with
        opened := true, zero := BitVec.allOnes 64, const := 0, key := none }) ∧
      ∃ t, exec (.seal w) s = .next t ∧ done t ∧ SameBytes s t ∧ pageAt t (4096 * n) = { old with
        opened := false, dom := d, key := worldKey s d })) ∧
  (∀ (s : State) (nonce : List (BitVec 8)) (dpa p : Nat),
    (freeSession s = none ∨ partAt s p = none ∨ s.mod.moduleFault = true → exec (.sessionOpen nonce dpa p) s = .next s) ∧
    ∀ n x, freeSession s = some n → partAt s p = some x → s.mod.moduleFault = false → MemoryOk s →
      let secret := Config.ephemeralSecret s.free
      let body := fit 64 nonce ++ leBytes 64 Config.firmwareDigest.toNat ++ shake256 x.descriptor 64 ++
        leBytes 56 (x448 secret 5) ++ leBytes 4 n ++ leBytes 4 0
      let report := body ++ leBytes 114 (Config.deviceSignature (shake256 body 64)).toNat
      ∃ t y, exec (.sessionOpen nonce dpa p) s = .next t ∧ sessionAt t n = some y ∧ y.state = .opening ∧ y.part = p ∧
        y.nonce = fit 64 nonce ∧ y.secret = secret ∧ y.worlds = [] ∧
        ∀ a, memRead t.mem a = if dpa ≤ a ∧ a < dpa + report.length ∧ openByte s a = true then report.getD (a - dpa) 0
          else memRead s.mem a) ∧
  (∀ (s : State) (n : Nat),
    let put := fun (y : Session) => { s with mod := { s.mod with sessions := insert s.mod.sessions n y } }
    (sessionAt s n = none → exec (.sessionDeadline n) s = .next s ∧ exec (.sessionGraceEnd n) s = .next s ∧
      ∀ key period given, exec (.sessionComplete n key period given) s = .next s) ∧
    ∀ x, sessionAt s n = some x →
      (∀ (key : List (BitVec 8)) (period : Nat) (given : Option Nat),
        let grace := match given with | some g => g | none => 1
        let ok := x.state = .opening ∧ 1 ≤ period ∧ period ≤ 60 ∧ grace ≤ 10
        (¬ ok → exec (.sessionComplete n key period given) s = .next s) ∧
        (ok → exec (.sessionComplete n key period given) s = .next (put { x with
          state := .live, period := period, grace := grace, deadline := s.cycle + period * 1200000000,
          key := BitVec.ofNat 256 (leNat (shake256 (leBytes 56 (x448 x.secret (leNat (key.take 56))) ++ x.nonce) 32)) }))) ∧
      (∀ w0 w1 : BitVec 64, w0.toNat % 64 = n →
        let ok := (x.state = .live ∨ x.state = .heldState) ∧ x.beat ≤ w0.toNat / 2 ^ 32 ∧
          w1.toNat = leNat (kmac256 (leBytes 32 x.key.toNat) (leBytes 8 w0.toNat) 8 "HB")
        (¬ ok → exec (.heartbeat w0 w1) s = .next s) ∧
        (ok → exec (.heartbeat w0 w1) s = .next (put { x with
          state := .live, beat := w0.toNat / 2 ^ 32 + 1, deadline := s.cycle + x.period * 1200000000 }))) ∧
      (let late := x.state = .live ∧ x.deadline < s.cycle
       (¬ late → exec (.sessionDeadline n) s = .next s) ∧
       (late → ∃ t, exec (.sessionDeadline n) s = .next t ∧ SameBytes s t ∧ t.slots = s.slots ∧
         sessionAt t n = some { x with state := .heldState } ∧ (claimAt t 165).occurred = true)) ∧
      (let finished := x.state = .heldState ∧ x.deadline + x.grace * 1200000000 < s.cycle
       (¬ finished → exec (.sessionGraceEnd n) s = .next s) ∧
       (finished → ∃ t, exec (.sessionGraceEnd n) s = .next t ∧ sessionAt t n = some { x with state := .lost } ∧
         (∀ w ∈ x.worlds, partAt s (w / 64) ≠ none → (worldOf t w).revoked = true ∨ (worldOf t w).revoking ≠ none) ∧
         ∀ l, launchOf s l.id = some l → l.world ∈ x.worlds → l.phase ≠ 2 → isRefused l = false → isStopped l = false →
           ∃ m, launchOf t l.id = some m ∧ m.status = 3))) ∧
  (∀ (s : State) (kind n : Nat),
    (kind = 7 → exec (.deviceFault kind n) s = exec (.portDown n) s) ∧
    (kind = 8 ∨ kind = 9 → exec (.deviceFault kind n) s = .next { s with mod := { s.mod with moduleFault := true } }) ∧
    (9 < kind ∨ (kind < 7 ∧ (kind, n) ∈ s.mod.failed) → exec (.deviceFault kind n) s = .next s) ∧
    (kind < 7 → (kind, n) ∉ s.mod.failed →
      let hit := hitLaunches s (freeReservations (takeOut s kind n)) kind n
      ∃ t, exec (.deviceFault kind n) s = .next t ∧ (kind, n) ∈ t.mod.failed ∧
        (kind = 0 → (coreAt t n).outOfService = true) ∧ (kind = 1 → (clusterAt t n).outOfService = true) ∧
        ((∀ k, (slotAt s k).unwind = none) → ∀ i ∈ hit, ∃ m, launchOf t i = some m ∧ m.status = 2) ∧
        (∀ p ∈ ownersOf s kind n, p < 64 → (claimAt t (64 + p)).occurred = true) ∧
        t.mod.faultCount = (s.mod.faultCount + 1) % 2 ^ 64 ∧
        (s.mod.faultLog.length < 64 → ∃ r, t.mod.faultLog = s.mod.faultLog ++ [r] ∧ r.kind = kind ∧ r.number = n ∧
          r.discarded = hit.length ∧ r.cycle = s.cycle ∧ (∀ p, ownersOf s kind n = [p] → r.part = p)))) ∧
  (∀ (s : State) (power temp : Nat),
    let read := { s with mod := { s.mod with power := power, temp := temp } }
    let hot := s.mod.pth < power
    let warm := s.mod.tth < temp
    let above := 4200 < power ∨ 105 < temp
    (∀ i ∈ [Instr.thresholdCrossing power temp, .thermalThrottle power temp],
      (¬ hot → ¬ warm → ¬ above → exec i s = .next read) ∧
      ∃ t, exec i s = .next t ∧ SameBytes s t ∧ t.slots = s.slots ∧ t.mod.power = power ∧ t.mod.temp = temp ∧
        (hot ∨ warm → (claimAt t 164).occurred = true) ∧
        t.mod.pth = (if hot then (power + 100) % 2 ^ 16 else s.mod.pth) ∧
        t.mod.tth = (if warm then (temp + 4) % 2 ^ 8 else s.mod.tth) ∧
        (¬ above → t.clusters = s.clusters) ∧
        (above → ∀ c < 128, 1 ≤ (clusterAt t c).clock ∧
          (1 < (clusterAt s c).clock → (clusterAt t c).clock < (clusterAt s c).clock))) ∧
    ∀ c : Nat,
      let x := clusterAt s c
      (128 ≤ c → exec (.voltageDroop c) s = .next s ∧ exec (.voltageRecovery c) s = .next s) ∧
      (c < 128 → exec (.voltageDroop c) s = .next (setCluster s c { x with clock := if 10 < x.clock then x.clock - 10 else x.clock }) ∧
        exec (.voltageRecovery c) s = .next (setCluster s c { x with clock := min 120 (x.clock + 10) }))) ∧
  ∀ s : State, ∃ t, exec .moduleReset s = .next t ∧
    t = { State.reset with free := s.free, nextId := s.nextId, agenda := s.agenda, mem := t.mem,
                           mod := { ModuleSt.reset with moduleFault := t.mod.moduleFault } } ∧
    (MemoryOk s → ∀ a, memRead t.mem a = if 2 ^ 60 ≤ a ∧ a < 2 ^ 62 then memRead s.mem a else 0) ∧
    exec .powerOff s = .next { t with mod := { t.mod with powered := false } } ∧
    ∀ u, exec .powerOff s = .next u → step u = .fault .poweredOff
end

