-- ==== Sys2Proof/Laws/Memory.lean ====
section
/-! SUPPORT. The laws of memory and of the maps by number: a read after a write, and the canonical form that every memory
operation keeps. -/

namespace Sys2Proof.Machine

/-! ### The canonical form -/

/-- A lower bound that is weaker keeps the form. -/
theorem memWfFrom_mono {m : List Host.Cell} {lo k : Nat} (hk : lo ≤ k) (h : memWfFrom (some k) m = true) :
    memWfFrom (some lo) m = true := by
  cases m with
  | nil => rfl
  | cons c rest =>
    obtain ⟨j, v⟩ := c
    simp only [memWfFrom, Bool.and_eq_true, decide_eq_true_eq] at h ⊢
    exact ⟨⟨by omega, h.1.2⟩, h.2⟩

theorem memWfFrom_none {m : List Host.Cell} {k : Nat} (h : memWfFrom (some k) m = true) : memWfFrom none m = true := by
  cases m with
  | nil => rfl
  | cons c rest =>
    obtain ⟨j, v⟩ := c
    simp only [memWfFrom, Bool.and_eq_true, Bool.true_and] at h ⊢
    exact ⟨h.1.2, h.2⟩

/-- Every address of a list in the form is above its bound, and no entry is the unlisted byte. -/
theorem memWfFrom_mem {m : List Host.Cell} : ∀ {k : Nat}, memWfFrom (some k) m = true → ∀ c ∈ m, k < c.1 ∧ c.2 ≠ unlisted := by
  induction m with
  | nil => intro k _ c hc; cases hc
  | cons e rest ih =>
    obtain ⟨j, v⟩ := e
    intro k h c hc
    simp only [memWfFrom, Bool.and_eq_true, decide_eq_true_eq, bne_iff_ne] at h
    rcases List.mem_cons.mp hc with rfl | hc
    · exact h.1
    · exact ih (memWfFrom_mono (Nat.le_of_lt h.1.1) h.2) c hc

theorem memCons_wfFrom {lo a : Nat} {v : Byte} {rest : List Host.Cell} (h : lo < a) (hr : memWfFrom (some a) rest = true) :
    memWfFrom (some lo) (memCons a v rest) = true := by
  unfold memCons
  split
  · exact memWfFrom_mono (Nat.le_of_lt h) hr
  · rename_i hv
    simp [memWfFrom, h, hv, hr]

theorem memWrite_wfFrom {m : List Host.Cell} : ∀ {lo a : Nat} {v : Byte}, lo < a → memWfFrom (some lo) m = true →
    memWfFrom (some lo) (memWrite m a v) = true := by
  induction m with
  | nil => intro lo a v h _; exact memCons_wfFrom h rfl
  | cons e rest ih =>
    obtain ⟨k, w⟩ := e
    intro lo a v h hm
    simp only [memWfFrom, Bool.and_eq_true, decide_eq_true_eq] at hm
    unfold memWrite
    split
    · rename_i hk
      exact memCons_wfFrom h (by simp [memWfFrom, hk, hm.1.2, hm.2])
    · split
      · rename_i hk; subst hk
        exact memCons_wfFrom h hm.2
      · simp only [memWfFrom, Bool.and_eq_true, decide_eq_true_eq]
        exact ⟨hm.1, ih (by omega) hm.2⟩

/-- A write keeps the canonical form. -/
theorem memWrite_wf {m : List Host.Cell} (a : Nat) (v : Byte) (h : Memory.wf m = true) : Memory.wf (memWrite m a v) = true := by
  cases m with
  | nil =>
    unfold Memory.wf memWrite memCons
    split
    · rfl
    · rename_i hv; simp [memWfFrom, hv]
  | cons e rest =>
    obtain ⟨k, w⟩ := e
    have hm : (w != unlisted) = true ∧ memWfFrom (some k) rest = true := by
      simpa [Memory.wf, memWfFrom] using h
    unfold Memory.wf memWrite
    split
    · rename_i hk
      unfold memCons
      split
      · simpa [memWfFrom] using hm
      · rename_i hv; simp [memWfFrom, hv, hk, hm.2]; simpa using hm.1
    · split
      · rename_i hk; subst hk
        unfold memCons
        split
        · exact memWfFrom_none hm.2
        · rename_i hv; simp [memWfFrom, hv, hm.2]
      · have := memWrite_wfFrom (m := rest) (v := v) (by omega : k < a) hm.2
        simp [memWfFrom, this]; simpa using hm.1

/-- Writing a run of bytes keeps the canonical form. -/
theorem memWriteBytes_wf (l : List Byte) : ∀ {m : List Host.Cell} {a : Nat}, Memory.wf m = true →
    Memory.wf (memWriteBytes m a l) = true := by
  induction l with
  | nil => intro m a h; exact h
  | cons b bs ih => intro m a h; exact ih (memWrite_wf a b h)

theorem filter_wfFrom (f : Host.Cell → Bool) {m : List Host.Cell} : ∀ {lo : Nat}, memWfFrom (some lo) m = true →
    memWfFrom (some lo) (m.filter f) = true := by
  induction m with
  | nil => intro lo _; rfl
  | cons e rest ih =>
    obtain ⟨k, w⟩ := e
    intro lo h
    simp only [memWfFrom, Bool.and_eq_true, decide_eq_true_eq] at h
    rw [List.filter_cons]
    split
    · simp only [memWfFrom, Bool.and_eq_true, decide_eq_true_eq]
      exact ⟨h.1, ih h.2⟩
    · exact ih (memWfFrom_mono (Nat.le_of_lt h.1.1) h.2)

/-- Leaving entries out keeps the canonical form. -/
theorem filter_wf (f : Host.Cell → Bool) {m : List Host.Cell} (h : Memory.wf m = true) : Memory.wf (m.filter f) = true := by
  cases m with
  | nil => rfl
  | cons e rest =>
    obtain ⟨k, w⟩ := e
    have hm : (w != unlisted) = true ∧ memWfFrom (some k) rest = true := by
      simpa [Memory.wf, memWfFrom] using h
    unfold Memory.wf
    rw [List.filter_cons]
    split
    · simp only [memWfFrom, Bool.and_eq_true, Bool.true_and]
      exact ⟨hm.1, filter_wfFrom f hm.2⟩
    · exact memWfFrom_none (filter_wfFrom f hm.2)

/-- Zeroing a range keeps the canonical form. -/
theorem memClear_wf (a n : Nat) {m : List Host.Cell} (h : Memory.wf m = true) : Memory.wf (memClear m a n) = true :=
  filter_wf _ h

/-- Any run of writes keeps the canonical form. -/
theorem foldl_memWrite_wf {α : Type} (at_ : α → Nat) (byte : α → Byte) (l : List α) : ∀ {m : List Host.Cell},
    Memory.wf m = true → Memory.wf (l.foldl (fun m c => memWrite m (at_ c) (byte c)) m) = true := by
  induction l with
  | nil => intro m h; exact h
  | cons c l ih => intro m h; exact ih (memWrite_wf _ _ h)

/-! ### Reads after writes -/

/-- Nothing is listed at or below the bound. -/
theorem memRead_below {m : List Host.Cell} {k a : Nat} (h : memWfFrom (some k) m = true) (ha : a ≤ k) :
    memRead m a = unlisted := by
  cases m with
  | nil => rfl
  | cons e rest =>
    obtain ⟨j, v⟩ := e
    simp only [memWfFrom, Bool.and_eq_true, decide_eq_true_eq] at h
    unfold memRead
    rw [if_neg (by omega), if_pos (by omega)]

theorem memRead_memCons {a b : Nat} {v : Byte} {m : List Host.Cell} (h : memWfFrom (some a) m = true) :
    memRead (memCons a v m) b = if b = a then v else if b < a then unlisted else memRead m b := by
  unfold memCons
  split
  · rename_i hv
    split
    · rename_i hb; subst hb; rw [hv]; exact memRead_below h (Nat.le_refl _)
    · split
      · exact memRead_below h (by omega)
      · rfl
  · rfl

theorem memRead_memWrite_from {m : List Host.Cell} : ∀ {lo a b : Nat} {v : Byte}, lo < a → memWfFrom (some lo) m = true →
    memRead (memWrite m a v) b = if b = a then v else memRead m b := by
  induction m with
  | nil =>
    intro lo a b v _ _
    unfold memWrite
    rw [memRead_memCons rfl]
    split
    · rfl
    · unfold memRead; split <;> rfl
  | cons e rest ih =>
    obtain ⟨k, w⟩ := e
    intro lo a b v h hm
    simp only [memWfFrom, Bool.and_eq_true, decide_eq_true_eq] at hm
    unfold memWrite
    split
    · rename_i hk
      have hr : memWfFrom (some a) ((k, w) :: rest) = true := by
        simp only [memWfFrom, Bool.and_eq_true, decide_eq_true_eq]; exact ⟨⟨hk, hm.1.2⟩, hm.2⟩
      rw [memRead_memCons hr]
      split
      · rfl
      · split
        · exact (memRead_below hr (by omega)).symm
        · rfl
    · split
      · rename_i hk; subst hk
        rw [memRead_memCons hm.2]
        split
        · rfl
        · rename_i hb
          show _ = memRead ((a, w) :: rest) b
          unfold memRead
          rw [if_neg hb]
          split
          · rfl
          · cases rest with
            | nil => rfl
            | cons e r => rfl
      · rename_i h1 h2
        show memRead ((k, w) :: memWrite rest a v) b = _
        unfold memRead
        by_cases hb : b = k
        · rw [if_pos hb, if_neg (by omega)]; subst hb
          rw [if_pos rfl]
        · rw [if_neg hb, if_neg hb]
          by_cases hlt : b < k
          · rw [if_pos hlt, if_pos hlt, if_neg (by omega)]
          · rw [if_neg hlt, if_neg hlt]
            exact ih (by omega) hm.2

/-- A read after a write: the byte written at its address, every other byte as before. -/
theorem memRead_memWrite {m : List Host.Cell} (a b : Nat) (v : Byte) (h : Memory.wf m = true) :
    memRead (memWrite m a v) b = if b = a then v else memRead m b := by
  cases m with
  | nil =>
    unfold memWrite
    rw [memRead_memCons rfl]
    split
    · rfl
    · unfold memRead; split <;> rfl
  | cons e rest =>
    obtain ⟨k, w⟩ := e
    have hm : (w != unlisted) = true ∧ memWfFrom (some k) rest = true := by
      simpa [Memory.wf, memWfFrom] using h
    by_cases hk : a < k
    · have hr : memWfFrom (some a) ((k, w) :: rest) = true := by
        simp only [memWfFrom, Bool.and_eq_true, decide_eq_true_eq]; exact ⟨⟨hk, hm.1⟩, hm.2⟩
      unfold memWrite
      rw [if_pos hk, memRead_memCons hr]
      split
      · rfl
      · split
        · exact (memRead_below hr (by omega)).symm
        · rfl
    · by_cases ha : a = k
      · subst ha
        unfold memWrite
        rw [if_neg hk, if_pos rfl, memRead_memCons hm.2]
        split
        · rfl
        · rename_i hb
          show _ = memRead ((a, w) :: rest) b
          conv => rhs; unfold memRead
          rw [if_neg hb]
      · unfold memWrite
        rw [if_neg hk, if_neg ha]
        unfold memRead
        by_cases hb : b = k
        · subst hb; simp; intro h2; omega
        · rw [if_neg hb, if_neg hb]
          by_cases hlt : b < k
          · rw [if_pos hlt, if_pos hlt, if_neg (by omega)]
          · rw [if_neg hlt, if_neg hlt]
            exact memRead_memWrite_from (by omega) hm.2

/-! ### Maps by number -/

@[simp] theorem lookup_insert {α : Type} (m : Assoc α) (a b : Nat) (v : α) :
    lookup (insert m a v) b = if b = a then some v else lookup m b := by
  induction m with
  | nil => simp [insert, lookup]
  | cons e rest ih =>
    obtain ⟨k, w⟩ := e
    unfold insert
    split
    · rename_i h; simp only [lookup]
    · split
      · rename_i h; subst h; simp only [lookup]; split <;> rfl
      · rename_i h1 h2
        simp only [lookup, ih]
        split
        · rename_i hb; subst hb; rw [if_neg (fun h => h2 h.symm)]
        · rfl

@[simp] theorem lookupD_insert {α : Type} (m : Assoc α) (a b : Nat) (v d : α) :
    lookupD (insert m a v) b d = if b = a then v else lookupD m b d := by
  unfold lookupD
  rw [lookup_insert]
  split <;> rfl

/-- The later of two entries of one key stays. -/
@[simp] theorem insert_insert {α : Type} (m : Assoc α) (a : Nat) (v w : α) : insert (insert m a v) a w = insert m a w := by
  induction m with
  | nil => simp [insert]
  | cons e rest ih =>
    obtain ⟨k, x⟩ := e
    by_cases h : a < k
    · simp [insert, h]
    · by_cases h2 : a = k
      · simp [insert, h2]
      · simp [insert, h, h2, ih]

end Sys2Proof.Machine
end

