-- ==== Sys2Proof/Laws/State.lean ====
section
/-! SUPPORT. The laws of State: for each update, what every field of it reads as, and what the accessors read after it. -/

namespace Sys2Proof.Machine

/-! ### setSlot -/

@[simp] theorem setSlot_cycle (s : State) (k : Nat) (x : SlotSt) : (setSlot s k x).cycle = s.cycle := rfl
@[simp] theorem setSlot_agenda (s : State) (k : Nat) (x : SlotSt) : (setSlot s k x).agenda = s.agenda := rfl
@[simp] theorem setSlot_cur (s : State) (k : Nat) (x : SlotSt) : (setSlot s k x).cur = s.cur := rfl
@[simp] theorem setSlot_turn (s : State) (k : Nat) (x : SlotSt) : (setSlot s k x).turn = s.turn := rfl
@[simp] theorem setSlot_word (s : State) (k : Nat) (x : SlotSt) : (setSlot s k x).word = s.word := rfl
@[simp] theorem setSlot_free (s : State) (k : Nat) (x : SlotSt) : (setSlot s k x).free = s.free := rfl
@[simp] theorem setSlot_nextId (s : State) (k : Nat) (x : SlotSt) : (setSlot s k x).nextId = s.nextId := rfl
@[simp] theorem setSlot_apps (s : State) (k : Nat) (x : SlotSt) : (setSlot s k x).apps = s.apps := rfl
@[simp] theorem setSlot_cores (s : State) (k : Nat) (x : SlotSt) : (setSlot s k x).cores = s.cores := rfl
@[simp] theorem setSlot_clusters (s : State) (k : Nat) (x : SlotSt) : (setSlot s k x).clusters = s.clusters := rfl
@[simp] theorem setSlot_parts (s : State) (k : Nat) (x : SlotSt) : (setSlot s k x).parts = s.parts := rfl
@[simp] theorem setSlot_launches (s : State) (k : Nat) (x : SlotSt) : (setSlot s k x).launches = s.launches := rfl
@[simp] theorem setSlot_mem (s : State) (k : Nat) (x : SlotSt) : (setSlot s k x).mem = s.mem := rfl
@[simp] theorem setSlot_pages (s : State) (k : Nat) (x : SlotSt) : (setSlot s k x).pages = s.pages := rfl
@[simp] theorem setSlot_poison (s : State) (k : Nat) (x : SlotSt) : (setSlot s k x).poison = s.poison := rfl
@[simp] theorem setSlot_llc (s : State) (k : Nat) (x : SlotSt) : (setSlot s k x).llc = s.llc := rfl
@[simp] theorem setSlot_iq (s : State) (k : Nat) (x : SlotSt) : (setSlot s k x).iq = s.iq := rfl
@[simp] theorem setSlot_bound (s : State) (k : Nat) (x : SlotSt) : (setSlot s k x).bound = s.bound := rfl
@[simp] theorem setSlot_transit (s : State) (k : Nat) (x : SlotSt) : (setSlot s k x).transit = s.transit := rfl
@[simp] theorem setSlot_network (s : State) (k : Nat) (x : SlotSt) : (setSlot s k x).network = s.network := rfl
@[simp] theorem setSlot_mod (s : State) (k : Nat) (x : SlotSt) : (setSlot s k x).mod = s.mod := rfl
@[simp] theorem setSlot_slots (s : State) (k : Nat) (x : SlotSt) : (setSlot s k x).slots = insert s.slots k x := rfl

/-! ### setApp -/

@[simp] theorem setApp_cycle (s : State) (n : Nat) (x : AppSt) : (setApp s n x).cycle = s.cycle := rfl
@[simp] theorem setApp_agenda (s : State) (n : Nat) (x : AppSt) : (setApp s n x).agenda = s.agenda := rfl
@[simp] theorem setApp_cur (s : State) (n : Nat) (x : AppSt) : (setApp s n x).cur = s.cur := rfl
@[simp] theorem setApp_turn (s : State) (n : Nat) (x : AppSt) : (setApp s n x).turn = s.turn := rfl
@[simp] theorem setApp_word (s : State) (n : Nat) (x : AppSt) : (setApp s n x).word = s.word := rfl
@[simp] theorem setApp_free (s : State) (n : Nat) (x : AppSt) : (setApp s n x).free = s.free := rfl
@[simp] theorem setApp_nextId (s : State) (n : Nat) (x : AppSt) : (setApp s n x).nextId = s.nextId := rfl
@[simp] theorem setApp_slots (s : State) (n : Nat) (x : AppSt) : (setApp s n x).slots = s.slots := rfl
@[simp] theorem setApp_cores (s : State) (n : Nat) (x : AppSt) : (setApp s n x).cores = s.cores := rfl
@[simp] theorem setApp_clusters (s : State) (n : Nat) (x : AppSt) : (setApp s n x).clusters = s.clusters := rfl
@[simp] theorem setApp_parts (s : State) (n : Nat) (x : AppSt) : (setApp s n x).parts = s.parts := rfl
@[simp] theorem setApp_launches (s : State) (n : Nat) (x : AppSt) : (setApp s n x).launches = s.launches := rfl
@[simp] theorem setApp_mem (s : State) (n : Nat) (x : AppSt) : (setApp s n x).mem = s.mem := rfl
@[simp] theorem setApp_pages (s : State) (n : Nat) (x : AppSt) : (setApp s n x).pages = s.pages := rfl
@[simp] theorem setApp_poison (s : State) (n : Nat) (x : AppSt) : (setApp s n x).poison = s.poison := rfl
@[simp] theorem setApp_llc (s : State) (n : Nat) (x : AppSt) : (setApp s n x).llc = s.llc := rfl
@[simp] theorem setApp_iq (s : State) (n : Nat) (x : AppSt) : (setApp s n x).iq = s.iq := rfl
@[simp] theorem setApp_bound (s : State) (n : Nat) (x : AppSt) : (setApp s n x).bound = s.bound := rfl
@[simp] theorem setApp_transit (s : State) (n : Nat) (x : AppSt) : (setApp s n x).transit = s.transit := rfl
@[simp] theorem setApp_network (s : State) (n : Nat) (x : AppSt) : (setApp s n x).network = s.network := rfl
@[simp] theorem setApp_mod (s : State) (n : Nat) (x : AppSt) : (setApp s n x).mod = s.mod := rfl
@[simp] theorem setApp_apps (s : State) (n : Nat) (x : AppSt) : (setApp s n x).apps = insert s.apps n x := rfl

/-! ### setCore -/

@[simp] theorem setCore_cycle (s : State) (c : Nat) (x : CoreSt) : (setCore s c x).cycle = s.cycle := rfl
@[simp] theorem setCore_agenda (s : State) (c : Nat) (x : CoreSt) : (setCore s c x).agenda = s.agenda := rfl
@[simp] theorem setCore_cur (s : State) (c : Nat) (x : CoreSt) : (setCore s c x).cur = s.cur := rfl
@[simp] theorem setCore_turn (s : State) (c : Nat) (x : CoreSt) : (setCore s c x).turn = s.turn := rfl
@[simp] theorem setCore_word (s : State) (c : Nat) (x : CoreSt) : (setCore s c x).word = s.word := rfl
@[simp] theorem setCore_free (s : State) (c : Nat) (x : CoreSt) : (setCore s c x).free = s.free := rfl
@[simp] theorem setCore_nextId (s : State) (c : Nat) (x : CoreSt) : (setCore s c x).nextId = s.nextId := rfl
@[simp] theorem setCore_slots (s : State) (c : Nat) (x : CoreSt) : (setCore s c x).slots = s.slots := rfl
@[simp] theorem setCore_apps (s : State) (c : Nat) (x : CoreSt) : (setCore s c x).apps = s.apps := rfl
@[simp] theorem setCore_clusters (s : State) (c : Nat) (x : CoreSt) : (setCore s c x).clusters = s.clusters := rfl
@[simp] theorem setCore_parts (s : State) (c : Nat) (x : CoreSt) : (setCore s c x).parts = s.parts := rfl
@[simp] theorem setCore_launches (s : State) (c : Nat) (x : CoreSt) : (setCore s c x).launches = s.launches := rfl
@[simp] theorem setCore_mem (s : State) (c : Nat) (x : CoreSt) : (setCore s c x).mem = s.mem := rfl
@[simp] theorem setCore_pages (s : State) (c : Nat) (x : CoreSt) : (setCore s c x).pages = s.pages := rfl
@[simp] theorem setCore_poison (s : State) (c : Nat) (x : CoreSt) : (setCore s c x).poison = s.poison := rfl
@[simp] theorem setCore_llc (s : State) (c : Nat) (x : CoreSt) : (setCore s c x).llc = s.llc := rfl
@[simp] theorem setCore_iq (s : State) (c : Nat) (x : CoreSt) : (setCore s c x).iq = s.iq := rfl
@[simp] theorem setCore_bound (s : State) (c : Nat) (x : CoreSt) : (setCore s c x).bound = s.bound := rfl
@[simp] theorem setCore_transit (s : State) (c : Nat) (x : CoreSt) : (setCore s c x).transit = s.transit := rfl
@[simp] theorem setCore_network (s : State) (c : Nat) (x : CoreSt) : (setCore s c x).network = s.network := rfl
@[simp] theorem setCore_mod (s : State) (c : Nat) (x : CoreSt) : (setCore s c x).mod = s.mod := rfl
@[simp] theorem setCore_cores (s : State) (c : Nat) (x : CoreSt) : (setCore s c x).cores = insert s.cores c x := rfl

/-! ### setCluster -/

@[simp] theorem setCluster_cycle (s : State) (k : Nat) (x : ClusterSt) : (setCluster s k x).cycle = s.cycle := rfl
@[simp] theorem setCluster_agenda (s : State) (k : Nat) (x : ClusterSt) : (setCluster s k x).agenda = s.agenda := rfl
@[simp] theorem setCluster_cur (s : State) (k : Nat) (x : ClusterSt) : (setCluster s k x).cur = s.cur := rfl
@[simp] theorem setCluster_turn (s : State) (k : Nat) (x : ClusterSt) : (setCluster s k x).turn = s.turn := rfl
@[simp] theorem setCluster_word (s : State) (k : Nat) (x : ClusterSt) : (setCluster s k x).word = s.word := rfl
@[simp] theorem setCluster_free (s : State) (k : Nat) (x : ClusterSt) : (setCluster s k x).free = s.free := rfl
@[simp] theorem setCluster_nextId (s : State) (k : Nat) (x : ClusterSt) : (setCluster s k x).nextId = s.nextId := rfl
@[simp] theorem setCluster_slots (s : State) (k : Nat) (x : ClusterSt) : (setCluster s k x).slots = s.slots := rfl
@[simp] theorem setCluster_apps (s : State) (k : Nat) (x : ClusterSt) : (setCluster s k x).apps = s.apps := rfl
@[simp] theorem setCluster_cores (s : State) (k : Nat) (x : ClusterSt) : (setCluster s k x).cores = s.cores := rfl
@[simp] theorem setCluster_parts (s : State) (k : Nat) (x : ClusterSt) : (setCluster s k x).parts = s.parts := rfl
@[simp] theorem setCluster_launches (s : State) (k : Nat) (x : ClusterSt) : (setCluster s k x).launches = s.launches := rfl
@[simp] theorem setCluster_mem (s : State) (k : Nat) (x : ClusterSt) : (setCluster s k x).mem = s.mem := rfl
@[simp] theorem setCluster_pages (s : State) (k : Nat) (x : ClusterSt) : (setCluster s k x).pages = s.pages := rfl
@[simp] theorem setCluster_poison (s : State) (k : Nat) (x : ClusterSt) : (setCluster s k x).poison = s.poison := rfl
@[simp] theorem setCluster_llc (s : State) (k : Nat) (x : ClusterSt) : (setCluster s k x).llc = s.llc := rfl
@[simp] theorem setCluster_iq (s : State) (k : Nat) (x : ClusterSt) : (setCluster s k x).iq = s.iq := rfl
@[simp] theorem setCluster_bound (s : State) (k : Nat) (x : ClusterSt) : (setCluster s k x).bound = s.bound := rfl
@[simp] theorem setCluster_transit (s : State) (k : Nat) (x : ClusterSt) : (setCluster s k x).transit = s.transit := rfl
@[simp] theorem setCluster_network (s : State) (k : Nat) (x : ClusterSt) : (setCluster s k x).network = s.network := rfl
@[simp] theorem setCluster_mod (s : State) (k : Nat) (x : ClusterSt) : (setCluster s k x).mod = s.mod := rfl
@[simp] theorem setCluster_clusters (s : State) (k : Nat) (x : ClusterSt) : (setCluster s k x).clusters = insert s.clusters k x := rfl

/-! ### setPart -/

@[simp] theorem setPart_cycle (s : State) (p : Nat) (x : PartSt) : (setPart s p x).cycle = s.cycle := rfl
@[simp] theorem setPart_agenda (s : State) (p : Nat) (x : PartSt) : (setPart s p x).agenda = s.agenda := rfl
@[simp] theorem setPart_cur (s : State) (p : Nat) (x : PartSt) : (setPart s p x).cur = s.cur := rfl
@[simp] theorem setPart_turn (s : State) (p : Nat) (x : PartSt) : (setPart s p x).turn = s.turn := rfl
@[simp] theorem setPart_word (s : State) (p : Nat) (x : PartSt) : (setPart s p x).word = s.word := rfl
@[simp] theorem setPart_free (s : State) (p : Nat) (x : PartSt) : (setPart s p x).free = s.free := rfl
@[simp] theorem setPart_nextId (s : State) (p : Nat) (x : PartSt) : (setPart s p x).nextId = s.nextId := rfl
@[simp] theorem setPart_slots (s : State) (p : Nat) (x : PartSt) : (setPart s p x).slots = s.slots := rfl
@[simp] theorem setPart_apps (s : State) (p : Nat) (x : PartSt) : (setPart s p x).apps = s.apps := rfl
@[simp] theorem setPart_cores (s : State) (p : Nat) (x : PartSt) : (setPart s p x).cores = s.cores := rfl
@[simp] theorem setPart_clusters (s : State) (p : Nat) (x : PartSt) : (setPart s p x).clusters = s.clusters := rfl
@[simp] theorem setPart_launches (s : State) (p : Nat) (x : PartSt) : (setPart s p x).launches = s.launches := rfl
@[simp] theorem setPart_mem (s : State) (p : Nat) (x : PartSt) : (setPart s p x).mem = s.mem := rfl
@[simp] theorem setPart_pages (s : State) (p : Nat) (x : PartSt) : (setPart s p x).pages = s.pages := rfl
@[simp] theorem setPart_poison (s : State) (p : Nat) (x : PartSt) : (setPart s p x).poison = s.poison := rfl
@[simp] theorem setPart_llc (s : State) (p : Nat) (x : PartSt) : (setPart s p x).llc = s.llc := rfl
@[simp] theorem setPart_iq (s : State) (p : Nat) (x : PartSt) : (setPart s p x).iq = s.iq := rfl
@[simp] theorem setPart_bound (s : State) (p : Nat) (x : PartSt) : (setPart s p x).bound = s.bound := rfl
@[simp] theorem setPart_transit (s : State) (p : Nat) (x : PartSt) : (setPart s p x).transit = s.transit := rfl
@[simp] theorem setPart_network (s : State) (p : Nat) (x : PartSt) : (setPart s p x).network = s.network := rfl
@[simp] theorem setPart_mod (s : State) (p : Nat) (x : PartSt) : (setPart s p x).mod = s.mod := rfl
@[simp] theorem setPart_parts (s : State) (p : Nat) (x : PartSt) : (setPart s p x).parts = insert s.parts p x := rfl

/-! ### modMod -/

@[simp] theorem modMod_cycle (s : State) (f : ModuleSt → ModuleSt) : (modMod s f).cycle = s.cycle := rfl
@[simp] theorem modMod_agenda (s : State) (f : ModuleSt → ModuleSt) : (modMod s f).agenda = s.agenda := rfl
@[simp] theorem modMod_cur (s : State) (f : ModuleSt → ModuleSt) : (modMod s f).cur = s.cur := rfl
@[simp] theorem modMod_turn (s : State) (f : ModuleSt → ModuleSt) : (modMod s f).turn = s.turn := rfl
@[simp] theorem modMod_word (s : State) (f : ModuleSt → ModuleSt) : (modMod s f).word = s.word := rfl
@[simp] theorem modMod_free (s : State) (f : ModuleSt → ModuleSt) : (modMod s f).free = s.free := rfl
@[simp] theorem modMod_nextId (s : State) (f : ModuleSt → ModuleSt) : (modMod s f).nextId = s.nextId := rfl
@[simp] theorem modMod_slots (s : State) (f : ModuleSt → ModuleSt) : (modMod s f).slots = s.slots := rfl
@[simp] theorem modMod_apps (s : State) (f : ModuleSt → ModuleSt) : (modMod s f).apps = s.apps := rfl
@[simp] theorem modMod_cores (s : State) (f : ModuleSt → ModuleSt) : (modMod s f).cores = s.cores := rfl
@[simp] theorem modMod_clusters (s : State) (f : ModuleSt → ModuleSt) : (modMod s f).clusters = s.clusters := rfl
@[simp] theorem modMod_parts (s : State) (f : ModuleSt → ModuleSt) : (modMod s f).parts = s.parts := rfl
@[simp] theorem modMod_launches (s : State) (f : ModuleSt → ModuleSt) : (modMod s f).launches = s.launches := rfl
@[simp] theorem modMod_mem (s : State) (f : ModuleSt → ModuleSt) : (modMod s f).mem = s.mem := rfl
@[simp] theorem modMod_pages (s : State) (f : ModuleSt → ModuleSt) : (modMod s f).pages = s.pages := rfl
@[simp] theorem modMod_poison (s : State) (f : ModuleSt → ModuleSt) : (modMod s f).poison = s.poison := rfl
@[simp] theorem modMod_llc (s : State) (f : ModuleSt → ModuleSt) : (modMod s f).llc = s.llc := rfl
@[simp] theorem modMod_iq (s : State) (f : ModuleSt → ModuleSt) : (modMod s f).iq = s.iq := rfl
@[simp] theorem modMod_bound (s : State) (f : ModuleSt → ModuleSt) : (modMod s f).bound = s.bound := rfl
@[simp] theorem modMod_transit (s : State) (f : ModuleSt → ModuleSt) : (modMod s f).transit = s.transit := rfl
@[simp] theorem modMod_network (s : State) (f : ModuleSt → ModuleSt) : (modMod s f).network = s.network := rfl
@[simp] theorem modMod_mod (s : State) (f : ModuleSt → ModuleSt) : (modMod s f).mod = f s.mod := rfl

/-! ### modLaunch -/

@[simp] theorem modLaunch_cycle (s : State) (id : Nat) (f : Launch → Launch) : (modLaunch s id f).cycle = s.cycle := rfl
@[simp] theorem modLaunch_agenda (s : State) (id : Nat) (f : Launch → Launch) : (modLaunch s id f).agenda = s.agenda := rfl
@[simp] theorem modLaunch_cur (s : State) (id : Nat) (f : Launch → Launch) : (modLaunch s id f).cur = s.cur := rfl
@[simp] theorem modLaunch_turn (s : State) (id : Nat) (f : Launch → Launch) : (modLaunch s id f).turn = s.turn := rfl
@[simp] theorem modLaunch_word (s : State) (id : Nat) (f : Launch → Launch) : (modLaunch s id f).word = s.word := rfl
@[simp] theorem modLaunch_free (s : State) (id : Nat) (f : Launch → Launch) : (modLaunch s id f).free = s.free := rfl
@[simp] theorem modLaunch_nextId (s : State) (id : Nat) (f : Launch → Launch) : (modLaunch s id f).nextId = s.nextId := rfl
@[simp] theorem modLaunch_slots (s : State) (id : Nat) (f : Launch → Launch) : (modLaunch s id f).slots = s.slots := rfl
@[simp] theorem modLaunch_apps (s : State) (id : Nat) (f : Launch → Launch) : (modLaunch s id f).apps = s.apps := rfl
@[simp] theorem modLaunch_cores (s : State) (id : Nat) (f : Launch → Launch) : (modLaunch s id f).cores = s.cores := rfl
@[simp] theorem modLaunch_clusters (s : State) (id : Nat) (f : Launch → Launch) : (modLaunch s id f).clusters = s.clusters := rfl
@[simp] theorem modLaunch_parts (s : State) (id : Nat) (f : Launch → Launch) : (modLaunch s id f).parts = s.parts := rfl
@[simp] theorem modLaunch_mem (s : State) (id : Nat) (f : Launch → Launch) : (modLaunch s id f).mem = s.mem := rfl
@[simp] theorem modLaunch_pages (s : State) (id : Nat) (f : Launch → Launch) : (modLaunch s id f).pages = s.pages := rfl
@[simp] theorem modLaunch_poison (s : State) (id : Nat) (f : Launch → Launch) : (modLaunch s id f).poison = s.poison := rfl
@[simp] theorem modLaunch_llc (s : State) (id : Nat) (f : Launch → Launch) : (modLaunch s id f).llc = s.llc := rfl
@[simp] theorem modLaunch_iq (s : State) (id : Nat) (f : Launch → Launch) : (modLaunch s id f).iq = s.iq := rfl
@[simp] theorem modLaunch_bound (s : State) (id : Nat) (f : Launch → Launch) : (modLaunch s id f).bound = s.bound := rfl
@[simp] theorem modLaunch_transit (s : State) (id : Nat) (f : Launch → Launch) : (modLaunch s id f).transit = s.transit := rfl
@[simp] theorem modLaunch_network (s : State) (id : Nat) (f : Launch → Launch) : (modLaunch s id f).network = s.network := rfl
@[simp] theorem modLaunch_mod (s : State) (id : Nat) (f : Launch → Launch) : (modLaunch s id f).mod = s.mod := rfl
@[simp] theorem modLaunch_launches (s : State) (id : Nat) (f : Launch → Launch) :
    (modLaunch s id f).launches = s.launches.map fun l => if l.id = id then f l else l := rfl

/-! ### bumpFree -/

@[simp] theorem bumpFree_cycle (s : State) : (bumpFree s).cycle = s.cycle := rfl
@[simp] theorem bumpFree_agenda (s : State) : (bumpFree s).agenda = s.agenda := rfl
@[simp] theorem bumpFree_cur (s : State) : (bumpFree s).cur = s.cur := rfl
@[simp] theorem bumpFree_turn (s : State) : (bumpFree s).turn = s.turn := rfl
@[simp] theorem bumpFree_word (s : State) : (bumpFree s).word = s.word := rfl
@[simp] theorem bumpFree_nextId (s : State) : (bumpFree s).nextId = s.nextId := rfl
@[simp] theorem bumpFree_slots (s : State) : (bumpFree s).slots = s.slots := rfl
@[simp] theorem bumpFree_apps (s : State) : (bumpFree s).apps = s.apps := rfl
@[simp] theorem bumpFree_cores (s : State) : (bumpFree s).cores = s.cores := rfl
@[simp] theorem bumpFree_clusters (s : State) : (bumpFree s).clusters = s.clusters := rfl
@[simp] theorem bumpFree_parts (s : State) : (bumpFree s).parts = s.parts := rfl
@[simp] theorem bumpFree_launches (s : State) : (bumpFree s).launches = s.launches := rfl
@[simp] theorem bumpFree_mem (s : State) : (bumpFree s).mem = s.mem := rfl
@[simp] theorem bumpFree_pages (s : State) : (bumpFree s).pages = s.pages := rfl
@[simp] theorem bumpFree_poison (s : State) : (bumpFree s).poison = s.poison := rfl
@[simp] theorem bumpFree_llc (s : State) : (bumpFree s).llc = s.llc := rfl
@[simp] theorem bumpFree_iq (s : State) : (bumpFree s).iq = s.iq := rfl
@[simp] theorem bumpFree_bound (s : State) : (bumpFree s).bound = s.bound := rfl
@[simp] theorem bumpFree_transit (s : State) : (bumpFree s).transit = s.transit := rfl
@[simp] theorem bumpFree_network (s : State) : (bumpFree s).network = s.network := rfl
@[simp] theorem bumpFree_mod (s : State) : (bumpFree s).mod = s.mod := rfl
@[simp] theorem bumpFree_free (s : State) : (bumpFree s).free = s.free + 1 := rfl

/-! ### bumpId -/

@[simp] theorem bumpId_cycle (s : State) : (bumpId s).cycle = s.cycle := rfl
@[simp] theorem bumpId_agenda (s : State) : (bumpId s).agenda = s.agenda := rfl
@[simp] theorem bumpId_cur (s : State) : (bumpId s).cur = s.cur := rfl
@[simp] theorem bumpId_turn (s : State) : (bumpId s).turn = s.turn := rfl
@[simp] theorem bumpId_word (s : State) : (bumpId s).word = s.word := rfl
@[simp] theorem bumpId_free (s : State) : (bumpId s).free = s.free := rfl
@[simp] theorem bumpId_slots (s : State) : (bumpId s).slots = s.slots := rfl
@[simp] theorem bumpId_apps (s : State) : (bumpId s).apps = s.apps := rfl
@[simp] theorem bumpId_cores (s : State) : (bumpId s).cores = s.cores := rfl
@[simp] theorem bumpId_clusters (s : State) : (bumpId s).clusters = s.clusters := rfl
@[simp] theorem bumpId_parts (s : State) : (bumpId s).parts = s.parts := rfl
@[simp] theorem bumpId_launches (s : State) : (bumpId s).launches = s.launches := rfl
@[simp] theorem bumpId_mem (s : State) : (bumpId s).mem = s.mem := rfl
@[simp] theorem bumpId_pages (s : State) : (bumpId s).pages = s.pages := rfl
@[simp] theorem bumpId_poison (s : State) : (bumpId s).poison = s.poison := rfl
@[simp] theorem bumpId_llc (s : State) : (bumpId s).llc = s.llc := rfl
@[simp] theorem bumpId_iq (s : State) : (bumpId s).iq = s.iq := rfl
@[simp] theorem bumpId_bound (s : State) : (bumpId s).bound = s.bound := rfl
@[simp] theorem bumpId_transit (s : State) : (bumpId s).transit = s.transit := rfl
@[simp] theorem bumpId_network (s : State) : (bumpId s).network = s.network := rfl
@[simp] theorem bumpId_mod (s : State) : (bumpId s).mod = s.mod := rfl
@[simp] theorem bumpId_nextId (s : State) : (bumpId s).nextId = s.nextId + 1 := rfl

/-! ### What the accessors read after an update -/

@[simp] theorem slotAt_setSlot (s : State) (k j : Nat) (x : SlotSt) : slotAt (setSlot s k x) j = if j = k then x else slotAt s j := by
  simp [slotAt, setSlot]
@[simp] theorem appAt_setApp (s : State) (k j : Nat) (x : AppSt) : appAt (setApp s k x) j = if j = k then x else appAt s j := by
  simp [appAt, setApp]
@[simp] theorem coreAt_setCore (s : State) (k j : Nat) (x : CoreSt) : coreAt (setCore s k x) j = if j = k then x else coreAt s j := by
  simp [coreAt, setCore]
@[simp] theorem clusterAt_setCluster (s : State) (k j : Nat) (x : ClusterSt) : clusterAt (setCluster s k x) j = if j = k then x else clusterAt s j := by
  simp [clusterAt, setCluster]
@[simp] theorem partAt_setPart (s : State) (k j : Nat) (x : PartSt) :
    partAt (setPart s k x) j = if j = k then some x else partAt s j := by
  simp [partAt, setPart]

@[simp] theorem slotAt_setApp (s : State) (n : Nat) (x : AppSt) (j : Nat) : slotAt (setApp s n x) j = slotAt s j := rfl
@[simp] theorem slotAt_setCore (s : State) (c : Nat) (x : CoreSt) (j : Nat) : slotAt (setCore s c x) j = slotAt s j := rfl
@[simp] theorem slotAt_setCluster (s : State) (k : Nat) (x : ClusterSt) (j : Nat) : slotAt (setCluster s k x) j = slotAt s j := rfl
@[simp] theorem slotAt_setPart (s : State) (p : Nat) (x : PartSt) (j : Nat) : slotAt (setPart s p x) j = slotAt s j := rfl
@[simp] theorem slotAt_modMod (s : State) (f : ModuleSt → ModuleSt) (j : Nat) : slotAt (modMod s f) j = slotAt s j := rfl
@[simp] theorem slotAt_modLaunch (s : State) (id : Nat) (f : Launch → Launch) (j : Nat) : slotAt (modLaunch s id f) j = slotAt s j := rfl
@[simp] theorem slotAt_bumpFree (s : State) (j : Nat) : slotAt (bumpFree s) j = slotAt s j := rfl
@[simp] theorem slotAt_bumpId (s : State) (j : Nat) : slotAt (bumpId s) j = slotAt s j := rfl
@[simp] theorem appAt_setSlot (s : State) (k : Nat) (x : SlotSt) (j : Nat) : appAt (setSlot s k x) j = appAt s j := rfl
@[simp] theorem appAt_setCore (s : State) (c : Nat) (x : CoreSt) (j : Nat) : appAt (setCore s c x) j = appAt s j := rfl
@[simp] theorem appAt_setCluster (s : State) (k : Nat) (x : ClusterSt) (j : Nat) : appAt (setCluster s k x) j = appAt s j := rfl
@[simp] theorem appAt_setPart (s : State) (p : Nat) (x : PartSt) (j : Nat) : appAt (setPart s p x) j = appAt s j := rfl
@[simp] theorem appAt_modMod (s : State) (f : ModuleSt → ModuleSt) (j : Nat) : appAt (modMod s f) j = appAt s j := rfl
@[simp] theorem appAt_modLaunch (s : State) (id : Nat) (f : Launch → Launch) (j : Nat) : appAt (modLaunch s id f) j = appAt s j := rfl
@[simp] theorem appAt_bumpFree (s : State) (j : Nat) : appAt (bumpFree s) j = appAt s j := rfl
@[simp] theorem appAt_bumpId (s : State) (j : Nat) : appAt (bumpId s) j = appAt s j := rfl
@[simp] theorem coreAt_setSlot (s : State) (k : Nat) (x : SlotSt) (j : Nat) : coreAt (setSlot s k x) j = coreAt s j := rfl
@[simp] theorem coreAt_setApp (s : State) (n : Nat) (x : AppSt) (j : Nat) : coreAt (setApp s n x) j = coreAt s j := rfl
@[simp] theorem coreAt_setCluster (s : State) (k : Nat) (x : ClusterSt) (j : Nat) : coreAt (setCluster s k x) j = coreAt s j := rfl
@[simp] theorem coreAt_setPart (s : State) (p : Nat) (x : PartSt) (j : Nat) : coreAt (setPart s p x) j = coreAt s j := rfl
@[simp] theorem coreAt_modMod (s : State) (f : ModuleSt → ModuleSt) (j : Nat) : coreAt (modMod s f) j = coreAt s j := rfl
@[simp] theorem coreAt_modLaunch (s : State) (id : Nat) (f : Launch → Launch) (j : Nat) : coreAt (modLaunch s id f) j = coreAt s j := rfl
@[simp] theorem coreAt_bumpFree (s : State) (j : Nat) : coreAt (bumpFree s) j = coreAt s j := rfl
@[simp] theorem coreAt_bumpId (s : State) (j : Nat) : coreAt (bumpId s) j = coreAt s j := rfl
@[simp] theorem clusterAt_setSlot (s : State) (k : Nat) (x : SlotSt) (j : Nat) : clusterAt (setSlot s k x) j = clusterAt s j := rfl
@[simp] theorem clusterAt_setApp (s : State) (n : Nat) (x : AppSt) (j : Nat) : clusterAt (setApp s n x) j = clusterAt s j := rfl
@[simp] theorem clusterAt_setCore (s : State) (c : Nat) (x : CoreSt) (j : Nat) : clusterAt (setCore s c x) j = clusterAt s j := rfl
@[simp] theorem clusterAt_setPart (s : State) (p : Nat) (x : PartSt) (j : Nat) : clusterAt (setPart s p x) j = clusterAt s j := rfl
@[simp] theorem clusterAt_modMod (s : State) (f : ModuleSt → ModuleSt) (j : Nat) : clusterAt (modMod s f) j = clusterAt s j := rfl
@[simp] theorem clusterAt_modLaunch (s : State) (id : Nat) (f : Launch → Launch) (j : Nat) : clusterAt (modLaunch s id f) j = clusterAt s j := rfl
@[simp] theorem clusterAt_bumpFree (s : State) (j : Nat) : clusterAt (bumpFree s) j = clusterAt s j := rfl
@[simp] theorem clusterAt_bumpId (s : State) (j : Nat) : clusterAt (bumpId s) j = clusterAt s j := rfl
@[simp] theorem partAt_setSlot (s : State) (k : Nat) (x : SlotSt) (j : Nat) : partAt (setSlot s k x) j = partAt s j := rfl
@[simp] theorem partAt_setApp (s : State) (n : Nat) (x : AppSt) (j : Nat) : partAt (setApp s n x) j = partAt s j := rfl
@[simp] theorem partAt_setCore (s : State) (c : Nat) (x : CoreSt) (j : Nat) : partAt (setCore s c x) j = partAt s j := rfl
@[simp] theorem partAt_setCluster (s : State) (k : Nat) (x : ClusterSt) (j : Nat) : partAt (setCluster s k x) j = partAt s j := rfl
@[simp] theorem partAt_modMod (s : State) (f : ModuleSt → ModuleSt) (j : Nat) : partAt (modMod s f) j = partAt s j := rfl
@[simp] theorem partAt_modLaunch (s : State) (id : Nat) (f : Launch → Launch) (j : Nat) : partAt (modLaunch s id f) j = partAt s j := rfl
@[simp] theorem partAt_bumpFree (s : State) (j : Nat) : partAt (bumpFree s) j = partAt s j := rfl
@[simp] theorem partAt_bumpId (s : State) (j : Nat) : partAt (bumpId s) j = partAt s j := rfl

/-! ### Changes of one part -/

theorem modSlot_def (s : State) (k : Nat) (f : SlotSt → SlotSt) : modSlot s k f = setSlot s k (f (slotAt s k)) := rfl
theorem modApp_def (s : State) (n : Nat) (f : AppSt → AppSt) : modApp s n f = setApp s n (f (appAt s n)) := rfl
theorem modCore_def (s : State) (c : Nat) (f : CoreSt → CoreSt) : modCore s c f = setCore s c (f (coreAt s c)) := rfl
theorem modCluster_def (s : State) (k : Nat) (f : ClusterSt → ClusterSt) :
    modCluster s k f = setCluster s k (f (clusterAt s k)) := rfl

@[simp] theorem modSlot_cycle (s : State) (k : Nat) (f : SlotSt → SlotSt) : (modSlot s k f).cycle = s.cycle := rfl
@[simp] theorem modSlot_agenda (s : State) (k : Nat) (f : SlotSt → SlotSt) : (modSlot s k f).agenda = s.agenda := rfl
@[simp] theorem modSlot_cur (s : State) (k : Nat) (f : SlotSt → SlotSt) : (modSlot s k f).cur = s.cur := rfl
@[simp] theorem modSlot_turn (s : State) (k : Nat) (f : SlotSt → SlotSt) : (modSlot s k f).turn = s.turn := rfl
@[simp] theorem modSlot_word (s : State) (k : Nat) (f : SlotSt → SlotSt) : (modSlot s k f).word = s.word := rfl
@[simp] theorem modSlot_free (s : State) (k : Nat) (f : SlotSt → SlotSt) : (modSlot s k f).free = s.free := rfl
@[simp] theorem modSlot_nextId (s : State) (k : Nat) (f : SlotSt → SlotSt) : (modSlot s k f).nextId = s.nextId := rfl
@[simp] theorem modSlot_apps (s : State) (k : Nat) (f : SlotSt → SlotSt) : (modSlot s k f).apps = s.apps := rfl
@[simp] theorem modSlot_cores (s : State) (k : Nat) (f : SlotSt → SlotSt) : (modSlot s k f).cores = s.cores := rfl
@[simp] theorem modSlot_clusters (s : State) (k : Nat) (f : SlotSt → SlotSt) : (modSlot s k f).clusters = s.clusters := rfl
@[simp] theorem modSlot_parts (s : State) (k : Nat) (f : SlotSt → SlotSt) : (modSlot s k f).parts = s.parts := rfl
@[simp] theorem modSlot_launches (s : State) (k : Nat) (f : SlotSt → SlotSt) : (modSlot s k f).launches = s.launches := rfl
@[simp] theorem modSlot_mem (s : State) (k : Nat) (f : SlotSt → SlotSt) : (modSlot s k f).mem = s.mem := rfl
@[simp] theorem modSlot_pages (s : State) (k : Nat) (f : SlotSt → SlotSt) : (modSlot s k f).pages = s.pages := rfl
@[simp] theorem modSlot_poison (s : State) (k : Nat) (f : SlotSt → SlotSt) : (modSlot s k f).poison = s.poison := rfl
@[simp] theorem modSlot_llc (s : State) (k : Nat) (f : SlotSt → SlotSt) : (modSlot s k f).llc = s.llc := rfl
@[simp] theorem modSlot_iq (s : State) (k : Nat) (f : SlotSt → SlotSt) : (modSlot s k f).iq = s.iq := rfl
@[simp] theorem modSlot_bound (s : State) (k : Nat) (f : SlotSt → SlotSt) : (modSlot s k f).bound = s.bound := rfl
@[simp] theorem modSlot_transit (s : State) (k : Nat) (f : SlotSt → SlotSt) : (modSlot s k f).transit = s.transit := rfl
@[simp] theorem modSlot_network (s : State) (k : Nat) (f : SlotSt → SlotSt) : (modSlot s k f).network = s.network := rfl
@[simp] theorem modSlot_mod (s : State) (k : Nat) (f : SlotSt → SlotSt) : (modSlot s k f).mod = s.mod := rfl
@[simp] theorem slotAt_modSlot (s : State) (k j : Nat) (f : SlotSt → SlotSt) :
    slotAt (modSlot s k f) j = if j = k then f (slotAt s k) else slotAt s j := by
  simp [modSlot]
@[simp] theorem appAt_modSlot (s : State) (k : Nat) (f : SlotSt → SlotSt) (j : Nat) : appAt (modSlot s k f) j = appAt s j := rfl
@[simp] theorem coreAt_modSlot (s : State) (k : Nat) (f : SlotSt → SlotSt) (j : Nat) : coreAt (modSlot s k f) j = coreAt s j := rfl
@[simp] theorem clusterAt_modSlot (s : State) (k : Nat) (f : SlotSt → SlotSt) (j : Nat) : clusterAt (modSlot s k f) j = clusterAt s j := rfl
@[simp] theorem partAt_modSlot (s : State) (k : Nat) (f : SlotSt → SlotSt) (j : Nat) : partAt (modSlot s k f) j = partAt s j := rfl

@[simp] theorem modApp_cycle (s : State) (n : Nat) (f : AppSt → AppSt) : (modApp s n f).cycle = s.cycle := rfl
@[simp] theorem modApp_agenda (s : State) (n : Nat) (f : AppSt → AppSt) : (modApp s n f).agenda = s.agenda := rfl
@[simp] theorem modApp_cur (s : State) (n : Nat) (f : AppSt → AppSt) : (modApp s n f).cur = s.cur := rfl
@[simp] theorem modApp_turn (s : State) (n : Nat) (f : AppSt → AppSt) : (modApp s n f).turn = s.turn := rfl
@[simp] theorem modApp_word (s : State) (n : Nat) (f : AppSt → AppSt) : (modApp s n f).word = s.word := rfl
@[simp] theorem modApp_free (s : State) (n : Nat) (f : AppSt → AppSt) : (modApp s n f).free = s.free := rfl
@[simp] theorem modApp_nextId (s : State) (n : Nat) (f : AppSt → AppSt) : (modApp s n f).nextId = s.nextId := rfl
@[simp] theorem modApp_slots (s : State) (n : Nat) (f : AppSt → AppSt) : (modApp s n f).slots = s.slots := rfl
@[simp] theorem modApp_cores (s : State) (n : Nat) (f : AppSt → AppSt) : (modApp s n f).cores = s.cores := rfl
@[simp] theorem modApp_clusters (s : State) (n : Nat) (f : AppSt → AppSt) : (modApp s n f).clusters = s.clusters := rfl
@[simp] theorem modApp_parts (s : State) (n : Nat) (f : AppSt → AppSt) : (modApp s n f).parts = s.parts := rfl
@[simp] theorem modApp_launches (s : State) (n : Nat) (f : AppSt → AppSt) : (modApp s n f).launches = s.launches := rfl
@[simp] theorem modApp_mem (s : State) (n : Nat) (f : AppSt → AppSt) : (modApp s n f).mem = s.mem := rfl
@[simp] theorem modApp_pages (s : State) (n : Nat) (f : AppSt → AppSt) : (modApp s n f).pages = s.pages := rfl
@[simp] theorem modApp_poison (s : State) (n : Nat) (f : AppSt → AppSt) : (modApp s n f).poison = s.poison := rfl
@[simp] theorem modApp_llc (s : State) (n : Nat) (f : AppSt → AppSt) : (modApp s n f).llc = s.llc := rfl
@[simp] theorem modApp_iq (s : State) (n : Nat) (f : AppSt → AppSt) : (modApp s n f).iq = s.iq := rfl
@[simp] theorem modApp_bound (s : State) (n : Nat) (f : AppSt → AppSt) : (modApp s n f).bound = s.bound := rfl
@[simp] theorem modApp_transit (s : State) (n : Nat) (f : AppSt → AppSt) : (modApp s n f).transit = s.transit := rfl
@[simp] theorem modApp_network (s : State) (n : Nat) (f : AppSt → AppSt) : (modApp s n f).network = s.network := rfl
@[simp] theorem modApp_mod (s : State) (n : Nat) (f : AppSt → AppSt) : (modApp s n f).mod = s.mod := rfl
@[simp] theorem appAt_modApp (s : State) (k j : Nat) (f : AppSt → AppSt) :
    appAt (modApp s k f) j = if j = k then f (appAt s k) else appAt s j := by
  simp [modApp]
@[simp] theorem slotAt_modApp (s : State) (n : Nat) (f : AppSt → AppSt) (j : Nat) : slotAt (modApp s n f) j = slotAt s j := rfl
@[simp] theorem coreAt_modApp (s : State) (n : Nat) (f : AppSt → AppSt) (j : Nat) : coreAt (modApp s n f) j = coreAt s j := rfl
@[simp] theorem clusterAt_modApp (s : State) (n : Nat) (f : AppSt → AppSt) (j : Nat) : clusterAt (modApp s n f) j = clusterAt s j := rfl
@[simp] theorem partAt_modApp (s : State) (n : Nat) (f : AppSt → AppSt) (j : Nat) : partAt (modApp s n f) j = partAt s j := rfl

@[simp] theorem modCore_cycle (s : State) (c : Nat) (f : CoreSt → CoreSt) : (modCore s c f).cycle = s.cycle := rfl
@[simp] theorem modCore_agenda (s : State) (c : Nat) (f : CoreSt → CoreSt) : (modCore s c f).agenda = s.agenda := rfl
@[simp] theorem modCore_cur (s : State) (c : Nat) (f : CoreSt → CoreSt) : (modCore s c f).cur = s.cur := rfl
@[simp] theorem modCore_turn (s : State) (c : Nat) (f : CoreSt → CoreSt) : (modCore s c f).turn = s.turn := rfl
@[simp] theorem modCore_word (s : State) (c : Nat) (f : CoreSt → CoreSt) : (modCore s c f).word = s.word := rfl
@[simp] theorem modCore_free (s : State) (c : Nat) (f : CoreSt → CoreSt) : (modCore s c f).free = s.free := rfl
@[simp] theorem modCore_nextId (s : State) (c : Nat) (f : CoreSt → CoreSt) : (modCore s c f).nextId = s.nextId := rfl
@[simp] theorem modCore_slots (s : State) (c : Nat) (f : CoreSt → CoreSt) : (modCore s c f).slots = s.slots := rfl
@[simp] theorem modCore_apps (s : State) (c : Nat) (f : CoreSt → CoreSt) : (modCore s c f).apps = s.apps := rfl
@[simp] theorem modCore_clusters (s : State) (c : Nat) (f : CoreSt → CoreSt) : (modCore s c f).clusters = s.clusters := rfl
@[simp] theorem modCore_parts (s : State) (c : Nat) (f : CoreSt → CoreSt) : (modCore s c f).parts = s.parts := rfl
@[simp] theorem modCore_launches (s : State) (c : Nat) (f : CoreSt → CoreSt) : (modCore s c f).launches = s.launches := rfl
@[simp] theorem modCore_mem (s : State) (c : Nat) (f : CoreSt → CoreSt) : (modCore s c f).mem = s.mem := rfl
@[simp] theorem modCore_pages (s : State) (c : Nat) (f : CoreSt → CoreSt) : (modCore s c f).pages = s.pages := rfl
@[simp] theorem modCore_poison (s : State) (c : Nat) (f : CoreSt → CoreSt) : (modCore s c f).poison = s.poison := rfl
@[simp] theorem modCore_llc (s : State) (c : Nat) (f : CoreSt → CoreSt) : (modCore s c f).llc = s.llc := rfl
@[simp] theorem modCore_iq (s : State) (c : Nat) (f : CoreSt → CoreSt) : (modCore s c f).iq = s.iq := rfl
@[simp] theorem modCore_bound (s : State) (c : Nat) (f : CoreSt → CoreSt) : (modCore s c f).bound = s.bound := rfl
@[simp] theorem modCore_transit (s : State) (c : Nat) (f : CoreSt → CoreSt) : (modCore s c f).transit = s.transit := rfl
@[simp] theorem modCore_network (s : State) (c : Nat) (f : CoreSt → CoreSt) : (modCore s c f).network = s.network := rfl
@[simp] theorem modCore_mod (s : State) (c : Nat) (f : CoreSt → CoreSt) : (modCore s c f).mod = s.mod := rfl
@[simp] theorem coreAt_modCore (s : State) (k j : Nat) (f : CoreSt → CoreSt) :
    coreAt (modCore s k f) j = if j = k then f (coreAt s k) else coreAt s j := by
  simp [modCore]
@[simp] theorem slotAt_modCore (s : State) (c : Nat) (f : CoreSt → CoreSt) (j : Nat) : slotAt (modCore s c f) j = slotAt s j := rfl
@[simp] theorem appAt_modCore (s : State) (c : Nat) (f : CoreSt → CoreSt) (j : Nat) : appAt (modCore s c f) j = appAt s j := rfl
@[simp] theorem clusterAt_modCore (s : State) (c : Nat) (f : CoreSt → CoreSt) (j : Nat) : clusterAt (modCore s c f) j = clusterAt s j := rfl
@[simp] theorem partAt_modCore (s : State) (c : Nat) (f : CoreSt → CoreSt) (j : Nat) : partAt (modCore s c f) j = partAt s j := rfl

@[simp] theorem modCluster_cycle (s : State) (k : Nat) (f : ClusterSt → ClusterSt) : (modCluster s k f).cycle = s.cycle := rfl
@[simp] theorem modCluster_agenda (s : State) (k : Nat) (f : ClusterSt → ClusterSt) : (modCluster s k f).agenda = s.agenda := rfl
@[simp] theorem modCluster_cur (s : State) (k : Nat) (f : ClusterSt → ClusterSt) : (modCluster s k f).cur = s.cur := rfl
@[simp] theorem modCluster_turn (s : State) (k : Nat) (f : ClusterSt → ClusterSt) : (modCluster s k f).turn = s.turn := rfl
@[simp] theorem modCluster_word (s : State) (k : Nat) (f : ClusterSt → ClusterSt) : (modCluster s k f).word = s.word := rfl
@[simp] theorem modCluster_free (s : State) (k : Nat) (f : ClusterSt → ClusterSt) : (modCluster s k f).free = s.free := rfl
@[simp] theorem modCluster_nextId (s : State) (k : Nat) (f : ClusterSt → ClusterSt) : (modCluster s k f).nextId = s.nextId := rfl
@[simp] theorem modCluster_slots (s : State) (k : Nat) (f : ClusterSt → ClusterSt) : (modCluster s k f).slots = s.slots := rfl
@[simp] theorem modCluster_apps (s : State) (k : Nat) (f : ClusterSt → ClusterSt) : (modCluster s k f).apps = s.apps := rfl
@[simp] theorem modCluster_cores (s : State) (k : Nat) (f : ClusterSt → ClusterSt) : (modCluster s k f).cores = s.cores := rfl
@[simp] theorem modCluster_parts (s : State) (k : Nat) (f : ClusterSt → ClusterSt) : (modCluster s k f).parts = s.parts := rfl
@[simp] theorem modCluster_launches (s : State) (k : Nat) (f : ClusterSt → ClusterSt) : (modCluster s k f).launches = s.launches := rfl
@[simp] theorem modCluster_mem (s : State) (k : Nat) (f : ClusterSt → ClusterSt) : (modCluster s k f).mem = s.mem := rfl
@[simp] theorem modCluster_pages (s : State) (k : Nat) (f : ClusterSt → ClusterSt) : (modCluster s k f).pages = s.pages := rfl
@[simp] theorem modCluster_poison (s : State) (k : Nat) (f : ClusterSt → ClusterSt) : (modCluster s k f).poison = s.poison := rfl
@[simp] theorem modCluster_llc (s : State) (k : Nat) (f : ClusterSt → ClusterSt) : (modCluster s k f).llc = s.llc := rfl
@[simp] theorem modCluster_iq (s : State) (k : Nat) (f : ClusterSt → ClusterSt) : (modCluster s k f).iq = s.iq := rfl
@[simp] theorem modCluster_bound (s : State) (k : Nat) (f : ClusterSt → ClusterSt) : (modCluster s k f).bound = s.bound := rfl
@[simp] theorem modCluster_transit (s : State) (k : Nat) (f : ClusterSt → ClusterSt) : (modCluster s k f).transit = s.transit := rfl
@[simp] theorem modCluster_network (s : State) (k : Nat) (f : ClusterSt → ClusterSt) : (modCluster s k f).network = s.network := rfl
@[simp] theorem modCluster_mod (s : State) (k : Nat) (f : ClusterSt → ClusterSt) : (modCluster s k f).mod = s.mod := rfl
@[simp] theorem clusterAt_modCluster (s : State) (k j : Nat) (f : ClusterSt → ClusterSt) :
    clusterAt (modCluster s k f) j = if j = k then f (clusterAt s k) else clusterAt s j := by
  simp [modCluster]
@[simp] theorem slotAt_modCluster (s : State) (k : Nat) (f : ClusterSt → ClusterSt) (j : Nat) : slotAt (modCluster s k f) j = slotAt s j := rfl
@[simp] theorem appAt_modCluster (s : State) (k : Nat) (f : ClusterSt → ClusterSt) (j : Nat) : appAt (modCluster s k f) j = appAt s j := rfl
@[simp] theorem coreAt_modCluster (s : State) (k : Nat) (f : ClusterSt → ClusterSt) (j : Nat) : coreAt (modCluster s k f) j = coreAt s j := rfl
@[simp] theorem partAt_modCluster (s : State) (k : Nat) (f : ClusterSt → ClusterSt) (j : Nat) : partAt (modCluster s k f) j = partAt s j := rfl

/-! ### modPart -/

@[simp] theorem modPart_cycle (s : State) (p : Nat) (f : PartSt → PartSt) : (modPart s p f).cycle = s.cycle := by
  unfold modPart; split <;> rfl
@[simp] theorem modPart_agenda (s : State) (p : Nat) (f : PartSt → PartSt) : (modPart s p f).agenda = s.agenda := by
  unfold modPart; split <;> rfl
@[simp] theorem modPart_cur (s : State) (p : Nat) (f : PartSt → PartSt) : (modPart s p f).cur = s.cur := by
  unfold modPart; split <;> rfl
@[simp] theorem modPart_turn (s : State) (p : Nat) (f : PartSt → PartSt) : (modPart s p f).turn = s.turn := by
  unfold modPart; split <;> rfl
@[simp] theorem modPart_word (s : State) (p : Nat) (f : PartSt → PartSt) : (modPart s p f).word = s.word := by
  unfold modPart; split <;> rfl
@[simp] theorem modPart_free (s : State) (p : Nat) (f : PartSt → PartSt) : (modPart s p f).free = s.free := by
  unfold modPart; split <;> rfl
@[simp] theorem modPart_nextId (s : State) (p : Nat) (f : PartSt → PartSt) : (modPart s p f).nextId = s.nextId := by
  unfold modPart; split <;> rfl
@[simp] theorem modPart_slots (s : State) (p : Nat) (f : PartSt → PartSt) : (modPart s p f).slots = s.slots := by
  unfold modPart; split <;> rfl
@[simp] theorem modPart_apps (s : State) (p : Nat) (f : PartSt → PartSt) : (modPart s p f).apps = s.apps := by
  unfold modPart; split <;> rfl
@[simp] theorem modPart_cores (s : State) (p : Nat) (f : PartSt → PartSt) : (modPart s p f).cores = s.cores := by
  unfold modPart; split <;> rfl
@[simp] theorem modPart_clusters (s : State) (p : Nat) (f : PartSt → PartSt) : (modPart s p f).clusters = s.clusters := by
  unfold modPart; split <;> rfl
@[simp] theorem modPart_launches (s : State) (p : Nat) (f : PartSt → PartSt) : (modPart s p f).launches = s.launches := by
  unfold modPart; split <;> rfl
@[simp] theorem modPart_mem (s : State) (p : Nat) (f : PartSt → PartSt) : (modPart s p f).mem = s.mem := by
  unfold modPart; split <;> rfl
@[simp] theorem modPart_pages (s : State) (p : Nat) (f : PartSt → PartSt) : (modPart s p f).pages = s.pages := by
  unfold modPart; split <;> rfl
@[simp] theorem modPart_poison (s : State) (p : Nat) (f : PartSt → PartSt) : (modPart s p f).poison = s.poison := by
  unfold modPart; split <;> rfl
@[simp] theorem modPart_llc (s : State) (p : Nat) (f : PartSt → PartSt) : (modPart s p f).llc = s.llc := by
  unfold modPart; split <;> rfl
@[simp] theorem modPart_iq (s : State) (p : Nat) (f : PartSt → PartSt) : (modPart s p f).iq = s.iq := by
  unfold modPart; split <;> rfl
@[simp] theorem modPart_bound (s : State) (p : Nat) (f : PartSt → PartSt) : (modPart s p f).bound = s.bound := by
  unfold modPart; split <;> rfl
@[simp] theorem modPart_transit (s : State) (p : Nat) (f : PartSt → PartSt) : (modPart s p f).transit = s.transit := by
  unfold modPart; split <;> rfl
@[simp] theorem modPart_network (s : State) (p : Nat) (f : PartSt → PartSt) : (modPart s p f).network = s.network := by
  unfold modPart; split <;> rfl
@[simp] theorem modPart_mod (s : State) (p : Nat) (f : PartSt → PartSt) : (modPart s p f).mod = s.mod := by
  unfold modPart; split <;> rfl
@[simp] theorem partAt_modPart (s : State) (p j : Nat) (f : PartSt → PartSt) :
    partAt (modPart s p f) j = if j = p then (partAt s p).map f else partAt s j := by
  unfold modPart
  split
  · rename_i x h; rw [partAt_setPart, h]; rfl
  · rename_i h
    split
    · rename_i hj; rw [hj, h]; rfl
    · rfl

@[simp] theorem slotAt_modPart (s : State) (p j : Nat) (f : PartSt → PartSt) : slotAt (modPart s p f) j = slotAt s j := by
  unfold modPart; split <;> rfl
@[simp] theorem appAt_modPart (s : State) (p j : Nat) (f : PartSt → PartSt) : appAt (modPart s p f) j = appAt s j := by
  unfold modPart; split <;> rfl
@[simp] theorem coreAt_modPart (s : State) (p j : Nat) (f : PartSt → PartSt) : coreAt (modPart s p f) j = coreAt s j := by
  unfold modPart; split <;> rfl
@[simp] theorem clusterAt_modPart (s : State) (p j : Nat) (f : PartSt → PartSt) : clusterAt (modPart s p f) j = clusterAt s j := by
  unfold modPart; split <;> rfl

/-! ### Scalar and trap state of an agent -/

@[simp] theorem modScOf_cycle (s : State) (ag : Agent) (f : ScalarSt → ScalarSt) : (modScOf s ag f).cycle = s.cycle := by
  cases ag <;> rfl
@[simp] theorem modScOf_agenda (s : State) (ag : Agent) (f : ScalarSt → ScalarSt) : (modScOf s ag f).agenda = s.agenda := by
  cases ag <;> rfl
@[simp] theorem modScOf_cur (s : State) (ag : Agent) (f : ScalarSt → ScalarSt) : (modScOf s ag f).cur = s.cur := by
  cases ag <;> rfl
@[simp] theorem modScOf_turn (s : State) (ag : Agent) (f : ScalarSt → ScalarSt) : (modScOf s ag f).turn = s.turn := by
  cases ag <;> rfl
@[simp] theorem modScOf_word (s : State) (ag : Agent) (f : ScalarSt → ScalarSt) : (modScOf s ag f).word = s.word := by
  cases ag <;> rfl
@[simp] theorem modScOf_free (s : State) (ag : Agent) (f : ScalarSt → ScalarSt) : (modScOf s ag f).free = s.free := by
  cases ag <;> rfl
@[simp] theorem modScOf_nextId (s : State) (ag : Agent) (f : ScalarSt → ScalarSt) : (modScOf s ag f).nextId = s.nextId := by
  cases ag <;> rfl
@[simp] theorem modScOf_cores (s : State) (ag : Agent) (f : ScalarSt → ScalarSt) : (modScOf s ag f).cores = s.cores := by
  cases ag <;> rfl
@[simp] theorem modScOf_clusters (s : State) (ag : Agent) (f : ScalarSt → ScalarSt) : (modScOf s ag f).clusters = s.clusters := by
  cases ag <;> rfl
@[simp] theorem modScOf_parts (s : State) (ag : Agent) (f : ScalarSt → ScalarSt) : (modScOf s ag f).parts = s.parts := by
  cases ag <;> rfl
@[simp] theorem modScOf_launches (s : State) (ag : Agent) (f : ScalarSt → ScalarSt) : (modScOf s ag f).launches = s.launches := by
  cases ag <;> rfl
@[simp] theorem modScOf_mem (s : State) (ag : Agent) (f : ScalarSt → ScalarSt) : (modScOf s ag f).mem = s.mem := by
  cases ag <;> rfl
@[simp] theorem modScOf_pages (s : State) (ag : Agent) (f : ScalarSt → ScalarSt) : (modScOf s ag f).pages = s.pages := by
  cases ag <;> rfl
@[simp] theorem modScOf_poison (s : State) (ag : Agent) (f : ScalarSt → ScalarSt) : (modScOf s ag f).poison = s.poison := by
  cases ag <;> rfl
@[simp] theorem modScOf_llc (s : State) (ag : Agent) (f : ScalarSt → ScalarSt) : (modScOf s ag f).llc = s.llc := by
  cases ag <;> rfl
@[simp] theorem modScOf_iq (s : State) (ag : Agent) (f : ScalarSt → ScalarSt) : (modScOf s ag f).iq = s.iq := by
  cases ag <;> rfl
@[simp] theorem modScOf_bound (s : State) (ag : Agent) (f : ScalarSt → ScalarSt) : (modScOf s ag f).bound = s.bound := by
  cases ag <;> rfl
@[simp] theorem modScOf_transit (s : State) (ag : Agent) (f : ScalarSt → ScalarSt) : (modScOf s ag f).transit = s.transit := by
  cases ag <;> rfl
@[simp] theorem modScOf_network (s : State) (ag : Agent) (f : ScalarSt → ScalarSt) : (modScOf s ag f).network = s.network := by
  cases ag <;> rfl
@[simp] theorem modScOf_mod (s : State) (ag : Agent) (f : ScalarSt → ScalarSt) : (modScOf s ag f).mod = s.mod := by
  cases ag <;> rfl
@[simp] theorem modTrOf_cycle (s : State) (ag : Agent) (f : TrapSt → TrapSt) : (modTrOf s ag f).cycle = s.cycle := by
  cases ag <;> rfl
@[simp] theorem modTrOf_agenda (s : State) (ag : Agent) (f : TrapSt → TrapSt) : (modTrOf s ag f).agenda = s.agenda := by
  cases ag <;> rfl
@[simp] theorem modTrOf_cur (s : State) (ag : Agent) (f : TrapSt → TrapSt) : (modTrOf s ag f).cur = s.cur := by
  cases ag <;> rfl
@[simp] theorem modTrOf_turn (s : State) (ag : Agent) (f : TrapSt → TrapSt) : (modTrOf s ag f).turn = s.turn := by
  cases ag <;> rfl
@[simp] theorem modTrOf_word (s : State) (ag : Agent) (f : TrapSt → TrapSt) : (modTrOf s ag f).word = s.word := by
  cases ag <;> rfl
@[simp] theorem modTrOf_free (s : State) (ag : Agent) (f : TrapSt → TrapSt) : (modTrOf s ag f).free = s.free := by
  cases ag <;> rfl
@[simp] theorem modTrOf_nextId (s : State) (ag : Agent) (f : TrapSt → TrapSt) : (modTrOf s ag f).nextId = s.nextId := by
  cases ag <;> rfl
@[simp] theorem modTrOf_cores (s : State) (ag : Agent) (f : TrapSt → TrapSt) : (modTrOf s ag f).cores = s.cores := by
  cases ag <;> rfl
@[simp] theorem modTrOf_clusters (s : State) (ag : Agent) (f : TrapSt → TrapSt) : (modTrOf s ag f).clusters = s.clusters := by
  cases ag <;> rfl
@[simp] theorem modTrOf_parts (s : State) (ag : Agent) (f : TrapSt → TrapSt) : (modTrOf s ag f).parts = s.parts := by
  cases ag <;> rfl
@[simp] theorem modTrOf_launches (s : State) (ag : Agent) (f : TrapSt → TrapSt) : (modTrOf s ag f).launches = s.launches := by
  cases ag <;> rfl
@[simp] theorem modTrOf_mem (s : State) (ag : Agent) (f : TrapSt → TrapSt) : (modTrOf s ag f).mem = s.mem := by
  cases ag <;> rfl
@[simp] theorem modTrOf_pages (s : State) (ag : Agent) (f : TrapSt → TrapSt) : (modTrOf s ag f).pages = s.pages := by
  cases ag <;> rfl
@[simp] theorem modTrOf_poison (s : State) (ag : Agent) (f : TrapSt → TrapSt) : (modTrOf s ag f).poison = s.poison := by
  cases ag <;> rfl
@[simp] theorem modTrOf_llc (s : State) (ag : Agent) (f : TrapSt → TrapSt) : (modTrOf s ag f).llc = s.llc := by
  cases ag <;> rfl
@[simp] theorem modTrOf_iq (s : State) (ag : Agent) (f : TrapSt → TrapSt) : (modTrOf s ag f).iq = s.iq := by
  cases ag <;> rfl
@[simp] theorem modTrOf_bound (s : State) (ag : Agent) (f : TrapSt → TrapSt) : (modTrOf s ag f).bound = s.bound := by
  cases ag <;> rfl
@[simp] theorem modTrOf_transit (s : State) (ag : Agent) (f : TrapSt → TrapSt) : (modTrOf s ag f).transit = s.transit := by
  cases ag <;> rfl
@[simp] theorem modTrOf_network (s : State) (ag : Agent) (f : TrapSt → TrapSt) : (modTrOf s ag f).network = s.network := by
  cases ag <;> rfl
@[simp] theorem modTrOf_mod (s : State) (ag : Agent) (f : TrapSt → TrapSt) : (modTrOf s ag f).mod = s.mod := by
  cases ag <;> rfl
@[simp] theorem coreAt_modScOf (s : State) (ag : Agent) (f : ScalarSt → ScalarSt) (j : Nat) : coreAt (modScOf s ag f) j = coreAt s j := by
  cases ag <;> rfl
@[simp] theorem coreAt_modTrOf (s : State) (ag : Agent) (f : TrapSt → TrapSt) (j : Nat) : coreAt (modTrOf s ag f) j = coreAt s j := by
  cases ag <;> rfl
@[simp] theorem clusterAt_modScOf (s : State) (ag : Agent) (f : ScalarSt → ScalarSt) (j : Nat) : clusterAt (modScOf s ag f) j = clusterAt s j := by
  cases ag <;> rfl
@[simp] theorem clusterAt_modTrOf (s : State) (ag : Agent) (f : TrapSt → TrapSt) (j : Nat) : clusterAt (modTrOf s ag f) j = clusterAt s j := by
  cases ag <;> rfl
@[simp] theorem partAt_modScOf (s : State) (ag : Agent) (f : ScalarSt → ScalarSt) (j : Nat) : partAt (modScOf s ag f) j = partAt s j := by
  cases ag <;> rfl
@[simp] theorem partAt_modTrOf (s : State) (ag : Agent) (f : TrapSt → TrapSt) (j : Nat) : partAt (modTrOf s ag f) j = partAt s j := by
  cases ag <;> rfl

@[simp] theorem scOf_modScOf (s : State) (ag ah : Agent) (f : ScalarSt → ScalarSt) :
    scOf (modScOf s ag f) ah = if ah = ag then f (scOf s ag) else scOf s ah := by
  cases ag <;> cases ah <;> simp [modScOf, scOf] <;> split <;> simp_all
@[simp] theorem trOf_modScOf (s : State) (ag ah : Agent) (f : ScalarSt → ScalarSt) : trOf (modScOf s ag f) ah = trOf s ah := by
  cases ag <;> cases ah <;> simp [modScOf, trOf] <;> split <;> simp_all
@[simp] theorem trOf_modTrOf (s : State) (ag ah : Agent) (f : TrapSt → TrapSt) :
    trOf (modTrOf s ag f) ah = if ah = ag then f (trOf s ag) else trOf s ah := by
  cases ag <;> cases ah <;> simp [modTrOf, trOf] <;> split <;> simp_all
@[simp] theorem scOf_modTrOf (s : State) (ag ah : Agent) (f : TrapSt → TrapSt) : scOf (modTrOf s ag f) ah = scOf s ah := by
  cases ag <;> cases ah <;> simp [modTrOf, scOf] <;> split <;> simp_all

/-- Two changes of the scalar state of one agent are one. -/
theorem modScOf_modScOf (s : State) (ag : Agent) (f g : ScalarSt → ScalarSt) :
    modScOf (modScOf s ag f) ag g = modScOf s ag fun x => g (f x) := by
  cases ag <;> simp [modScOf, modSlot, modApp, setSlot, setApp, slotAt, appAt]

end Sys2Proof.Machine
end

