-- ==== Sys2Proof/Laws/Operations.lean ====
section
/-! SUPPORT. The shared operations and memory: which of them leave every byte as it is (…_mem), and that the others keep the form of
memory (…_wf). -/

namespace Sys2Proof.Machine

theorem foldl_mem {α : Type} (f : State → α → State) (h : ∀ s a, (f s a).mem = s.mem) (l : List α) (s : State) :
    (l.foldl f s).mem = s.mem := by
  induction l generalizing s with
  | nil => rfl
  | cons a l ih => rw [List.foldl_cons, ih, h]

theorem foldl_wf {α : Type} (f : State → α → State) (h : ∀ s a, Memory.wf s.mem = true → Memory.wf (f s a).mem = true) (l : List α)
    (s : State) (hs : Memory.wf s.mem = true) : Memory.wf (l.foldl f s).mem = true := by
  induction l generalizing s with
  | nil => exact hs
  | cons a l ih => exact ih _ (h _ _ hs)

@[simp] theorem modWorld_mem (s : State) (id : Nat) (f : World → World) : (modWorld s id f).mem = s.mem := by
  unfold modWorld; simp

@[simp] theorem setRegOf_mem (s : State) (ag : Agent) (r : BitVec 5) (v : Word) : (setRegOf s ag r v).mem = s.mem := by
  unfold setRegOf; (repeat' split) <;> simp

@[simp] theorem setPcOf_mem (s : State) (ag : Agent) (v : Word) : (setPcOf s ag v).mem = s.mem := by
  unfold setPcOf; simp

@[simp] theorem setSegOf_mem (s : State) (ag : Agent) (k : BitVec 3) (v : Seg) : (setSegOf s ag k v).mem = s.mem := by
  unfold setSegOf; simp

@[simp] theorem wr_mem (s : State) (r : BitVec 5) (v : Word) : (wr s r v).mem = s.mem := by
  unfold wr; simp

@[simp] theorem modMe_mem (s : State) (f : SlotSt → SlotSt) : (modMe s f).mem = s.mem := by
  rfl

@[simp] theorem countDieQ_mem (s : State) (die src : Nat) (qual part : Option Nat) (n : Nat) :
    (countDieQ s die src qual part n).mem = s.mem := by
  rfl

@[simp] theorem countDie_mem (s : State) (die src : Nat) (part : Option Nat) (n : Nat) : (countDie s die src part n).mem = s.mem := by
  rfl

@[simp] theorem countClusterQ_mem (s : State) (k src : Nat) (qual : Option Nat) (n : Nat) :
    (countClusterQ s k src qual n).mem = s.mem := by
  rfl

@[simp] theorem countCluster_mem (s : State) (k src n : Nat) : (countCluster s k src n).mem = s.mem := by
  rfl

@[simp] theorem countCore_mem (s : State) (core src : Nat) (qual : Option Nat) (n : Nat) :
    (countCore s core src qual n).mem = s.mem := by
  unfold countCore; (repeat' split) <;> simp

@[simp] theorem elide_mem (s : State) (line : Nat) : (elide s line).mem = s.mem := by
  unfold elide; dsimp only; (repeat' split) <;> simp

theorem homeStore_wf (s : State) (p : Nat × Byte) (h : Memory.wf s.mem = true) : Memory.wf (homeStore s p).mem = true := by
  unfold homeStore
  split
  · exact h
  · exact memWrite_wf _ _ h

/-- A write that reaches its home keeps the form of memory. -/
theorem reachHome_wf (s : State) (th : Nat) (addrs : List Nat) (data : List Byte) (h : Memory.wf s.mem = true) :
    Memory.wf (reachHome s th addrs data).mem = true := by
  unfold reachHome
  split
  · exact h
  · split
    · exact h
    · rw [foldl_mem _ elide_mem]
      exact foldl_wf _ (fun s p hs => homeStore_wf s p hs) _ _ h

/-- A write of the window changes no memory: it becomes a port operation of its writer (R335). -/
theorem reachHome_window (s : State) (th a : Nat) (rest : List Nat) (data : List Byte) (h : isWindow a = true) :
    (reachHome s th (a :: rest) data).mem = s.mem := by
  unfold reachHome
  simp [h]

theorem acceptEv_wf (s : State) (w : MemEv) (h : Memory.wf s.mem = true) : Memory.wf (acceptEv s w).mem = true := by
  unfold acceptEv
  dsimp only
  split
  · exact reachHome_wf _ _ _ _ h
  · exact h

theorem advanceEv_wf (s : State) (w : MemEv) (h : Memory.wf s.mem = true) : Memory.wf (advanceEv s w).mem = true := by
  unfold advanceEv
  dsimp only
  split
  · exact reachHome_wf _ _ _ _ h
  · exact h

theorem drainPass_wf (s : State) (want : MemEv → Bool) (n : Nat) (h : Memory.wf s.mem = true) :
    Memory.wf (drainPass s want n).mem = true := by
  unfold drainPass
  apply foldl_wf _ _ _ _ h
  intro t e ht
  exact reachHome_wf _ _ _ _ ht

theorem drainWrites_wf (s : State) (want : MemEv → Bool) (h : Memory.wf s.mem = true) : Memory.wf (drainWrites s want).mem = true := by
  unfold drainWrites
  exact foldl_wf _ (fun t n ht => drainPass_wf _ _ _ ht) _ _ h

theorem atomicEv_wf (s : State) (a : MemEv) (h : Memory.wf s.mem = true) : Memory.wf (atomicEv s a).mem = true := by
  unfold atomicEv
  dsimp only
  split
  · exact h
  · split
    · split
      · exact reachHome_wf _ _ _ _ h
      · exact h
    · exact h

theorem devWriteOne_wf (s : State) (dom : Option Nat) (p pva : Nat) (b : Byte) (h : Memory.wf s.mem = true) :
    Memory.wf (devWriteOne s dom p pva b).mem = true := by
  unfold devWriteOne
  split
  · split
    · exact reachHome_wf _ _ _ _ h
    · exact h
  · exact h

theorem devWriteAs_wf (s : State) (dom : Option Nat) (p pva : Nat) (bs : List Byte) (h : Memory.wf s.mem = true) :
    Memory.wf (devWriteAs s dom p pva bs).mem = true := by
  unfold devWriteAs
  exact foldl_wf _ (fun t q ht => devWriteOne_wf _ _ _ _ _ ht) _ _ h

theorem devWrite_wf (s : State) (p pva : Nat) (bs : List Byte) (h : Memory.wf s.mem = true) :
    Memory.wf (devWrite s p pva bs).mem = true := devWriteAs_wf _ _ _ _ _ h

@[simp] theorem bindEv_mem (s : State) (r : MemEv) : (bindEv s r).mem = s.mem := by
  rfl

@[simp] theorem pushEv_mem (s : State) (e : MemEv) : (pushEv s e).mem = s.mem := by
  rfl

@[simp] theorem takeBound_mem (s : State) (id : Nat) : (takeBound s id).mem = s.mem := by
  rfl

@[simp] theorem discardWhere_mem (s : State) (th : Nat) (f : MemEv → Bool) : (discardWhere s th f).mem = s.mem := by
  rfl

@[simp] theorem discardIds_mem (s : State) (ids : List Nat) : (discardIds s ids).mem = s.mem := by
  rfl

@[simp] theorem discardEvents_mem (s : State) (th : Nat) : (discardEvents s th).mem = s.mem := by
  rfl

@[simp] theorem retireOf_mem (s : State) (ag : Agent) : (retireOf s ag).mem = s.mem := by
  unfold retireOf; simp

@[simp] theorem retire_mem (s : State) : (retire s).mem = s.mem := by
  unfold retire; simp

@[simp] theorem parkOf_mem (s : State) (ag : Agent) (r : ParkReason) (abandon : Bool) (c : Cont) :
    (parkOf s ag r abandon c).mem = s.mem := by
  unfold parkOf; (repeat' split) <;> simp

@[simp] theorem readyOf_mem (s : State) (ag : Agent) : (readyOf s ag).mem = s.mem := by
  unfold readyOf; (repeat' split) <;> simp

@[simp] theorem completeOf_mem (s : State) (ag : Agent) : (completeOf s ag).mem = s.mem := by
  unfold completeOf; simp

@[simp] theorem setPend_mem (s : State) (k : Nat) (ev : BitVec 5) : (setPend s k ev).mem = s.mem := by
  unfold setPend; simp; (repeat' split) <;> simp

@[simp] theorem wakeSupervisor_mem (s : State) (core : Nat) : (wakeSupervisor s core).mem = s.mem := by
  unfold wakeSupervisor; simp; (repeat' split) <;> simp

@[simp] theorem postRecord_mem (s : State) (k : Nat) (e : Delivered) : (postRecord s k e).mem = s.mem := by
  unfold postRecord; simp; (repeat' split) <;> simp

@[simp] theorem appEvent_mem (s : State) (n src : Nat) : (appEvent s n src).mem = s.mem := by
  rfl

@[simp] theorem sendVector_mem (s : State) (vf v : Nat) (part : Option Nat) : (sendVector s vf v part).mem = s.mem := by
  unfold sendVector; dsimp only; (repeat' split) <;> simp

@[simp] theorem deliverEvent_mem (s : State) (src : Nat) : (deliverEvent s src).mem = s.mem := by
  unfold deliverEvent; simp; (repeat' split) <;> simp

@[simp] theorem bindBank_mem (s : State) (k b : Nat) : (bindBank s k b).mem = s.mem := by
  rfl

@[simp] theorem dropMatrix_mem (s : State) (k : Nat) : (dropMatrix s k).mem = s.mem := by
  rfl

@[simp] theorem releaseMatrix_mem (s : State) (k : Nat) : (releaseMatrix s k).mem = s.mem := by
  unfold releaseMatrix; simp; (repeat' split) <;> simp

@[simp] theorem awaitMatrix_mem (s : State) (k : Nat) : (awaitMatrix s k).mem = s.mem := by
  unfold awaitMatrix; (repeat' split) <;> simp

@[simp] theorem restoreWait_mem (s : State) (k : Nat) (banks : List (Nat × Nat × Bank)) (tokens : List Nat) (gang : Bool) :
    (restoreWait s k banks tokens gang).mem = s.mem := by
  unfold restoreWait; (repeat' split) <;> simp

@[simp] theorem serveBankOne_mem (s : State) (core : Nat) : (serveBankOne s core).mem = s.mem := by
  unfold serveBankOne; simp; (repeat' split) <;> simp

@[simp] theorem serveBank_mem (s : State) (core : Nat) : (serveBank s core).mem = s.mem := by
  unfold serveBank; simp

@[simp] theorem dropEntries_mem (s : State) (k : Nat) : (dropEntries s k).mem = s.mem := by
  unfold dropEntries; simp

@[simp] theorem freeBank_mem (s : State) (k : Nat) : (freeBank s k).mem = s.mem := by
  unfold freeBank; (repeat' split) <;> simp

@[simp] theorem setChan_mem (s : State) (cl ch : Nat) (c : Chan) : (setChan s cl ch c).mem = s.mem := by
  rfl

@[simp] theorem completionOf_mem (s : State) (k ch : Nat) (e : Completion) : (completionOf s k ch e).mem = s.mem := by
  unfold completionOf; dsimp only; (repeat' split) <;> simp

@[simp] theorem wakeCopyWaiters_mem (s : State) (cl id : Nat) : (wakeCopyWaiters s cl id).mem = s.mem := by
  unfold wakeCopyWaiters; rw [foldl_mem]; intro s a; simp

@[simp] theorem endTransfer_mem (s : State) (cl ch : Nat) (st : ChanState) (cause : Nat) :
    (endTransfer s cl ch st cause).mem = s.mem := by
  unfold endTransfer; simp; (repeat' split) <;> simp

@[simp] theorem startTransfer_mem (s : State) (k : Nat) (a : BitVec 5) : (startTransfer s k a).mem = s.mem := by
  unfold startTransfer; simp; (repeat' split) <;> simp

@[simp] theorem cancelTransfers_mem (s : State) (k : Nat) (depth : Option Nat) : (cancelTransfers s k depth).mem = s.mem := by
  unfold cancelTransfers; rw [foldl_mem]; intro s a; simp

@[simp] theorem renameTransfers_mem (s : State) (k j : Nat) : (renameTransfers s k j).mem = s.mem := by
  rfl

@[simp] theorem orphanTransfers_mem (s : State) (k : Nat) : (orphanTransfers s k).mem = s.mem := by
  rfl

@[simp] theorem setTile_mem (s : State) (p i : Nat) (t : Option Tile) : (setTile s p i t).mem = s.mem := by
  unfold setTile; simp

@[simp] theorem modTile_mem (s : State) (p i : Nat) (f : Tile → Tile) : (modTile s p i f).mem = s.mem := by
  unfold modTile; (repeat' split) <;> simp

@[simp] theorem answerTenure_mem (s : State) (k h status v : Nat) : (answerTenure s k h status v).mem = s.mem := by
  rfl

@[simp] theorem settle_mem (s : State) (p i : Nat) (r : TReq) (status v : Nat) : (settle s p i r status v).mem = s.mem := by
  unfold settle; (repeat' split) <;> simp

@[simp] theorem serveList_mem (l : List TReq) : ∀ (s : State) (p i : Nat), (serveList s p i l).mem = s.mem := by
  induction l with
  | nil => intro s p i; rfl
  | cons r rest ih =>
    intro s p i
    unfold serveList
    (repeat' split) <;> simp [ih]

@[simp] theorem sendHome_mem (s : State) (p i : Nat) : (sendHome s p i).mem = s.mem := by
  unfold sendHome
  dsimp only
  split
  · rfl
  · split
    · rw [foldl_mem] <;> simp
    · simp

@[simp] theorem serve_mem (s : State) (p i : Nat) : (serve s p i).mem = s.mem := by
  unfold serve
  split <;> simp

@[simp] theorem poolPages_mem (s : State) (p : Nat) (l : List Nat) : (poolPages s p l).mem = s.mem := by
  unfold poolPages; simp

@[simp] theorem setFrames_mem (s : State) (p i : Nat) (l : List TFrame) : (setFrames s p i l).mem = s.mem := by
  unfold setFrames; (repeat' split) <;> simp

@[simp] theorem cancelTileTransfers_mem (s : State) (p h : Nat) : (cancelTileTransfers s p h).mem = s.mem := by
  unfold cancelTileTransfers; rw [foldl_mem]; intro s a; simp

theorem discardShadow_wf (s : State) (p i : Nat) (h : Memory.wf s.mem = true) : Memory.wf (discardShadow s p i).mem = true := by
  unfold discardShadow
  split
  · exact h
  · simp only [poolPages_mem, modTile_mem]
    exact drainWrites_wf _ _ h

@[simp] theorem withdraw_mem (s : State) (p i k : Nat) : (withdraw s p i k).mem = s.mem := by
  unfold withdraw; simp

theorem endTenure_wf (s : State) (k : Nat) (t : Tenure) (h : Memory.wf s.mem = true) : Memory.wf (endTenure s k t).mem = true := by
  unfold endTenure
  split
  · exact h
  · dsimp only
    split
    · exact h
    · split
      · simpa using h
      · split
        · rw [serve_mem]
          exact discardShadow_wf _ _ _ (by simpa using h)
        · simpa using h

theorem endTenures_wf (s : State) (k : Nat) (depth : Option Nat) (h : Memory.wf s.mem = true) :
    Memory.wf (endTenures s k depth).mem = true := by
  unfold endTenures
  simp only [modSlot_mem]
  exact foldl_wf _ (fun t e ht => endTenure_wf _ _ _ ht) _ _ h

theorem clearLocal_wf (s : State) (core a n : Nat) (h : Memory.wf s.mem = true) : Memory.wf (clearLocal s core a n).mem = true :=
  memClear_wf _ _ h

@[simp] theorem barrierTry_mem (s : State) (launch gang : Nat) : (barrierTry s launch gang).mem = s.mem := by
  unfold barrierTry; dsimp only; (repeat' split) <;> first | rfl | simp | (rw [foldl_mem]; intro s a; (repeat' split) <;> simp)

@[simp] theorem barrierOfThread_mem (s : State) (th : Nat) : (barrierOfThread s th).mem = s.mem := by
  unfold barrierOfThread; simp; (repeat' split) <;> simp

@[simp] theorem wakeKillers_mem (s : State) (k : Nat) : (wakeKillers s k).mem = s.mem := by
  unfold wakeKillers
  dsimp only
  rw [foldl_mem, foldl_mem]
  all_goals
    intro t e
    (repeat' split) <;> simp

/-- The end of a task keeps the form of memory: it zeroes the window. -/
theorem endTask_wf (s : State) (k : Nat) (killed : Bool) (h : Memory.wf s.mem = true) : Memory.wf (endTask s k killed).mem = true := by
  have h2 : Memory.wf (endTenures (discardWhere s k fun e => !isReadyWrite e) k none).mem = true :=
    endTenures_wf _ _ _ (by simpa using h)
  unfold endTask
  dsimp only
  split <;> (simp only [barrierTry_mem, wakeKillers_mem, modCore_mem, modSlot_mem]; apply clearLocal_wf; simp only [freeBank_mem, dropMatrix_mem];
             split <;> simpa using h2)

@[simp] theorem faultLaunch_mem (s : State) (k kind cause : Nat) (p : Word) (status : Nat) :
    (faultLaunch s k kind cause p status).mem = s.mem := by
  rfl

theorem popFrame_wf (s : State) (k : Nat) (h : Memory.wf s.mem = true) : Memory.wf (popFrame s k).mem = true := by
  unfold popFrame
  dsimp only
  split
  · exact h
  · simp only [modSlot_mem]
    apply clearLocal_wf
    simp only [cancelTransfers_mem]
    apply endTenures_wf
    split <;> simpa using h

@[simp] theorem startCleanup_mem (s : State) (k : Nat) (u : Unwind) (f : Frame) (rest : List Frame) :
    (startCleanup s k u f rest).mem = s.mem := by
  rfl

@[simp] theorem haltForGood_mem (s : State) (k : Nat) : (haltForGood s k).mem = s.mem := by
  unfold haltForGood; simp

theorem finishUnwind_wf (s : State) (k : Nat) (u : Unwind) (h : Memory.wf s.mem = true) : Memory.wf (finishUnwind s k u).mem = true := by
  unfold finishUnwind
  dsimp only
  split
  · simpa using h
  · split
    · split
      · exact endTask_wf _ _ _ h
      · simp only [postRecord_mem]
        exact endTask_wf _ _ _ (by simpa using h)
    · simpa using h

theorem unwindFrom_wf (n : Nat) : ∀ (s : State) (k : Nat), Memory.wf s.mem = true → Memory.wf (unwindFrom s k n).mem = true := by
  induction n with
  | zero => intro s k h; exact h
  | succ n ih =>
    intro s k h
    unfold unwindFrom
    dsimp only
    split
    · exact h
    · split
      · exact finishUnwind_wf _ _ _ h
      · split
        · exact finishUnwind_wf _ _ _ h
        · split
          · simpa using h
          · split
            · exact ih _ _ (popFrame_wf _ _ (by simpa using h))
            · simpa using h
            · simpa using h
            · split
              · exact ih _ _ (popFrame_wf _ _ (by simpa using h))
              · simpa using h

theorem startUnwind_wf (s : State) (k : Nat) (u : Unwind) (h : Memory.wf s.mem = true) : Memory.wf (startUnwind s k u).mem = true := by
  have hd : Memory.wf (if (slotAt s k).vec.frozen then dropEntries s k else s).mem = true := by split <;> simpa using h
  unfold startUnwind
  dsimp only
  split
  · split
    · first | simpa using hd | simpa using h
    · exact unwindFrom_wf _ _ _ (by first | simpa using hd | simpa using h)
  · exact unwindFrom_wf _ _ _ (by first | simpa using hd | simpa using h)

theorem endCleanup_wf (s : State) (k : Nat) (h : Memory.wf s.mem = true) : Memory.wf (endCleanup s k).mem = true := by
  unfold endCleanup
  split
  · exact unwindFrom_wf _ _ _ (by simpa using h)
  · exact h

@[simp] theorem abandonPark_mem (s : State) (k : Nat) : (abandonPark s k).mem = s.mem := by
  unfold abandonPark; simp; (repeat' split) <;> simp

theorem haltSupervisor_wf (s : State) (k : Nat) (h : Memory.wf s.mem = true) : Memory.wf (haltSupervisor s k).mem = true := by
  unfold haltSupervisor
  dsimp only
  split
  · simpa using h
  · exact startUnwind_wf _ _ _ h

theorem killOne_wf (s : State) (k : Nat) (u : Unwind) (h : Memory.wf s.mem = true) :
    Memory.wf (killOne s k u).mem = true := by
  unfold killOne
  dsimp only
  split
  · exact h
  · exact startUnwind_wf _ _ _ (by simpa using h)

/-- A kill keeps the form of memory. -/
theorem killSlot_wf (s : State) (k kind cause : Nat) (p : Word) (h : Memory.wf s.mem = true) :
    Memory.wf (killSlot s k kind cause p).mem = true := by
  unfold killSlot
  dsimp only
  split
  · exact haltSupervisor_wf _ _ h
  · split
    · simp only [deliverEvent_mem]
      exact killOne_wf _ _ _ (killOne_wf _ _ _ (by simpa using h))
    · simp only [deliverEvent_mem]
      exact killOne_wf _ _ _ h

@[simp] theorem tl1Entry_mem (s : State) (ag : Agent) (cw : Nat) (v p : Word) : (tl1Entry s ag cw v p).mem = s.mem := by
  unfold tl1Entry; simp

@[simp] theorem tl2Entry_mem (s : State) (k : Nat) (cw : Nat) (v p : Word) : (tl2Entry s k cw v p).mem = s.mem := by
  unfold tl2Entry; simp

@[simp] theorem tl2OrWait_mem (s : State) (k cw : Nat) (v p : Word) : (tl2OrWait s k cw v p).mem = s.mem := by
  unfold tl2OrWait; (repeat' split) <;> simp

@[simp] theorem splitPair_mem (s : State) (k : Nat) (p : Word) : (splitPair s k p).mem = s.mem := by
  unfold splitPair; (repeat' split) <;> simp

/-- Taking a trap keeps the form of memory, whatever it does. -/
theorem takeTrapOf_wf (s : State) (ag : Agent) (cw : Nat) (v p : Word) (h : Memory.wf s.mem = true) :
    Memory.wf (takeTrapOf s ag cw v p).mem = true := by
  unfold takeTrapOf
  split
  · split <;> simpa using h
  · rename_i k
    have h0 : Memory.wf (splitPair s k p).mem = true := by simpa using h
    dsimp only
    split
    · exact endCleanup_wf _ _ h0
    · split
      · split
        · simpa using h
        · exact haltSupervisor_wf _ _ h0
      · split
        · exact killSlot_wf _ _ _ _ _ h0
        · split
          · simpa using h
          · split
            · split
              · exact killSlot_wf _ _ _ _ _ h0
              · exact startUnwind_wf _ _ _ h0
            · simpa using h

theorem takeTrap_wf (s : State) (cause : Nat) (v : Word) (h : Memory.wf s.mem = true) : Memory.wf (takeTrap s cause v).mem = true :=
  takeTrapOf_wf _ _ _ _ _ h

end Sys2Proof.Machine
end

