-- ==== Sys2Proof/Laws/PerInstr.lean ====
section
/-! SUPPORT. A statement over all instructions, one lemma per constructor: the word of an instruction has 32 bits (R93, R94). An
event has no word. -/

namespace Sys2Proof

theorem Laws.field_le {n : Nat} (x : BitVec n) (l : Nat) : x.toNat * 2 ^ l ≤ (2 ^ n - 1) * 2 ^ l :=
  Nat.mul_le_mul_right _ (Nat.le_sub_one_of_lt x.isLt)

theorem Laws.word0_lt {base w : Nat} (hb : base < 2 ^ 32)
    (h : word0 base = some w) : w < 2 ^ 32 := by
  cases h
  exact hb

theorem Laws.word1_lt {n1 : Nat} {base w : Nat} {x1 : BitVec n1} {l1 : Nat} (hb : base + (2 ^ n1 - 1) * 2 ^ l1 < 2 ^ 32)
    (h : word1 base x1 l1 = some w) : w < 2 ^ 32 := by
  cases h
  have := Laws.field_le x1 l1
  omega

theorem Laws.word2_lt {n1 n2 : Nat} {base w : Nat} {x1 : BitVec n1} {l1 : Nat} {x2 : BitVec n2} {l2 : Nat} (hb : base + (2 ^ n1 - 1) * 2 ^ l1 + (2 ^ n2 - 1) * 2 ^ l2 < 2 ^ 32)
    (h : word2 base x1 l1 x2 l2 = some w) : w < 2 ^ 32 := by
  cases h
  have := Laws.field_le x1 l1
  have := Laws.field_le x2 l2
  omega

theorem Laws.word3_lt {n1 n2 n3 : Nat} {base w : Nat} {x1 : BitVec n1} {l1 : Nat} {x2 : BitVec n2} {l2 : Nat} {x3 : BitVec n3} {l3 : Nat} (hb : base + (2 ^ n1 - 1) * 2 ^ l1 + (2 ^ n2 - 1) * 2 ^ l2 + (2 ^ n3 - 1) * 2 ^ l3 < 2 ^ 32)
    (h : word3 base x1 l1 x2 l2 x3 l3 = some w) : w < 2 ^ 32 := by
  cases h
  have := Laws.field_le x1 l1
  have := Laws.field_le x2 l2
  have := Laws.field_le x3 l3
  omega

theorem Laws.word4_lt {n1 n2 n3 n4 : Nat} {base w : Nat} {x1 : BitVec n1} {l1 : Nat} {x2 : BitVec n2} {l2 : Nat} {x3 : BitVec n3} {l3 : Nat} {x4 : BitVec n4} {l4 : Nat} (hb : base + (2 ^ n1 - 1) * 2 ^ l1 + (2 ^ n2 - 1) * 2 ^ l2 + (2 ^ n3 - 1) * 2 ^ l3 + (2 ^ n4 - 1) * 2 ^ l4 < 2 ^ 32)
    (h : word4 base x1 l1 x2 l2 x3 l3 x4 l4 = some w) : w < 2 ^ 32 := by
  cases h
  have := Laws.field_le x1 l1
  have := Laws.field_le x2 l2
  have := Laws.field_le x3 l3
  have := Laws.field_le x4 l4
  omega

theorem Laws.word5_lt {n1 n2 n3 n4 n5 : Nat} {base w : Nat} {x1 : BitVec n1} {l1 : Nat} {x2 : BitVec n2} {l2 : Nat} {x3 : BitVec n3} {l3 : Nat} {x4 : BitVec n4} {l4 : Nat} {x5 : BitVec n5} {l5 : Nat} (hb : base + (2 ^ n1 - 1) * 2 ^ l1 + (2 ^ n2 - 1) * 2 ^ l2 + (2 ^ n3 - 1) * 2 ^ l3 + (2 ^ n4 - 1) * 2 ^ l4 + (2 ^ n5 - 1) * 2 ^ l5 < 2 ^ 32)
    (h : word5 base x1 l1 x2 l2 x3 l3 x4 l4 x5 l5 = some w) : w < 2 ^ 32 := by
  cases h
  have := Laws.field_le x1 l1
  have := Laws.field_le x2 l2
  have := Laws.field_le x3 l3
  have := Laws.field_le x4 l4
  have := Laws.field_le x5 l5
  omega

theorem Laws.word6_lt {n1 n2 n3 n4 n5 n6 : Nat} {base w : Nat} {x1 : BitVec n1} {l1 : Nat} {x2 : BitVec n2} {l2 : Nat} {x3 : BitVec n3} {l3 : Nat} {x4 : BitVec n4} {l4 : Nat} {x5 : BitVec n5} {l5 : Nat} {x6 : BitVec n6} {l6 : Nat} (hb : base + (2 ^ n1 - 1) * 2 ^ l1 + (2 ^ n2 - 1) * 2 ^ l2 + (2 ^ n3 - 1) * 2 ^ l3 + (2 ^ n4 - 1) * 2 ^ l4 + (2 ^ n5 - 1) * 2 ^ l5 + (2 ^ n6 - 1) * 2 ^ l6 < 2 ^ 32)
    (h : word6 base x1 l1 x2 l2 x3 l3 x4 l4 x5 l5 x6 l6 = some w) : w < 2 ^ 32 := by
  cases h
  have := Laws.field_le x1 l1
  have := Laws.field_le x2 l2
  have := Laws.field_le x3 l3
  have := Laws.field_le x4 l4
  have := Laws.field_le x5 l5
  have := Laws.field_le x6 l6
  omega

/-- The word of an instruction has 32 bits. -/
def Laws.WordFits.Statement (i : Instr) : Prop := ∀ w, encode i = some w → w < 2 ^ 32

theorem Laws.WordFits.add (d : BitVec 5) (a : BitVec 5) (b : BitVec 5) : Laws.WordFits.Statement (.add d a b) :=
  fun _ h => Laws.word3_lt (by decide) h
theorem Laws.WordFits.sub (d : BitVec 5) (a : BitVec 5) (b : BitVec 5) : Laws.WordFits.Statement (.sub d a b) :=
  fun _ h => Laws.word3_lt (by decide) h
theorem Laws.WordFits.and (d : BitVec 5) (a : BitVec 5) (b : BitVec 5) : Laws.WordFits.Statement (.and d a b) :=
  fun _ h => Laws.word3_lt (by decide) h
theorem Laws.WordFits.or (d : BitVec 5) (a : BitVec 5) (b : BitVec 5) : Laws.WordFits.Statement (.or d a b) :=
  fun _ h => Laws.word3_lt (by decide) h
theorem Laws.WordFits.xor (d : BitVec 5) (a : BitVec 5) (b : BitVec 5) : Laws.WordFits.Statement (.xor d a b) :=
  fun _ h => Laws.word3_lt (by decide) h
theorem Laws.WordFits.andn (d : BitVec 5) (a : BitVec 5) (b : BitVec 5) : Laws.WordFits.Statement (.andn d a b) :=
  fun _ h => Laws.word3_lt (by decide) h
theorem Laws.WordFits.shl (d : BitVec 5) (a : BitVec 5) (b : BitVec 5) : Laws.WordFits.Statement (.shl d a b) :=
  fun _ h => Laws.word3_lt (by decide) h
theorem Laws.WordFits.shr (d : BitVec 5) (a : BitVec 5) (b : BitVec 5) : Laws.WordFits.Statement (.shr d a b) :=
  fun _ h => Laws.word3_lt (by decide) h
theorem Laws.WordFits.sar (d : BitVec 5) (a : BitVec 5) (b : BitVec 5) : Laws.WordFits.Statement (.sar d a b) :=
  fun _ h => Laws.word3_lt (by decide) h
theorem Laws.WordFits.rol (d : BitVec 5) (a : BitVec 5) (b : BitVec 5) : Laws.WordFits.Statement (.rol d a b) :=
  fun _ h => Laws.word3_lt (by decide) h
theorem Laws.WordFits.min (d : BitVec 5) (a : BitVec 5) (b : BitVec 5) : Laws.WordFits.Statement (.min d a b) :=
  fun _ h => Laws.word3_lt (by decide) h
theorem Laws.WordFits.max (d : BitVec 5) (a : BitVec 5) (b : BitVec 5) : Laws.WordFits.Statement (.max d a b) :=
  fun _ h => Laws.word3_lt (by decide) h
theorem Laws.WordFits.minn (d : BitVec 5) (a : BitVec 5) (b : BitVec 5) : Laws.WordFits.Statement (.minn d a b) :=
  fun _ h => Laws.word3_lt (by decide) h
theorem Laws.WordFits.maxn (d : BitVec 5) (a : BitVec 5) (b : BitVec 5) : Laws.WordFits.Statement (.maxn d a b) :=
  fun _ h => Laws.word3_lt (by decide) h
theorem Laws.WordFits.slt (d : BitVec 5) (a : BitVec 5) (b : BitVec 5) : Laws.WordFits.Statement (.slt d a b) :=
  fun _ h => Laws.word3_lt (by decide) h
theorem Laws.WordFits.sltn (d : BitVec 5) (a : BitVec 5) (b : BitVec 5) : Laws.WordFits.Statement (.sltn d a b) :=
  fun _ h => Laws.word3_lt (by decide) h
theorem Laws.WordFits.seq (d : BitVec 5) (a : BitVec 5) (b : BitVec 5) : Laws.WordFits.Statement (.seq d a b) :=
  fun _ h => Laws.word3_lt (by decide) h
theorem Laws.WordFits.sne (d : BitVec 5) (a : BitVec 5) (b : BitVec 5) : Laws.WordFits.Statement (.sne d a b) :=
  fun _ h => Laws.word3_lt (by decide) h
theorem Laws.WordFits.addw (d : BitVec 5) (a : BitVec 5) (b : BitVec 5) : Laws.WordFits.Statement (.addw d a b) :=
  fun _ h => Laws.word3_lt (by decide) h
theorem Laws.WordFits.subw (d : BitVec 5) (a : BitVec 5) (b : BitVec 5) : Laws.WordFits.Statement (.subw d a b) :=
  fun _ h => Laws.word3_lt (by decide) h
theorem Laws.WordFits.addi (d : BitVec 5) (a : BitVec 5) (i : BitVec 16) : Laws.WordFits.Statement (.addi d a i) :=
  fun _ h => Laws.word3_lt (by decide) h
theorem Laws.WordFits.andi (d : BitVec 5) (a : BitVec 5) (i : BitVec 16) : Laws.WordFits.Statement (.andi d a i) :=
  fun _ h => Laws.word3_lt (by decide) h
theorem Laws.WordFits.ori (d : BitVec 5) (a : BitVec 5) (i : BitVec 16) : Laws.WordFits.Statement (.ori d a i) :=
  fun _ h => Laws.word3_lt (by decide) h
theorem Laws.WordFits.xori (d : BitVec 5) (a : BitVec 5) (i : BitVec 16) : Laws.WordFits.Statement (.xori d a i) :=
  fun _ h => Laws.word3_lt (by decide) h
theorem Laws.WordFits.shli (d : BitVec 5) (a : BitVec 5) (n : BitVec 6) : Laws.WordFits.Statement (.shli d a n) :=
  fun _ h => Laws.word3_lt (by decide) h
theorem Laws.WordFits.shri (d : BitVec 5) (a : BitVec 5) (n : BitVec 6) : Laws.WordFits.Statement (.shri d a n) :=
  fun _ h => Laws.word3_lt (by decide) h
theorem Laws.WordFits.sari (d : BitVec 5) (a : BitVec 5) (n : BitVec 6) : Laws.WordFits.Statement (.sari d a n) :=
  fun _ h => Laws.word3_lt (by decide) h
theorem Laws.WordFits.roli (d : BitVec 5) (a : BitVec 5) (n : BitVec 6) : Laws.WordFits.Statement (.roli d a n) :=
  fun _ h => Laws.word3_lt (by decide) h
theorem Laws.WordFits.movi (d : BitVec 5) (i : BitVec 16) : Laws.WordFits.Statement (.movi d i) :=
  fun _ h => Laws.word2_lt (by decide) h
theorem Laws.WordFits.lit (d : BitVec 5) (k : BitVec 2) (i : BitVec 16) : Laws.WordFits.Statement (.lit d k i) :=
  fun _ h => Laws.word3_lt (by decide) h
theorem Laws.WordFits.slti (d : BitVec 5) (a : BitVec 5) (i : BitVec 16) : Laws.WordFits.Statement (.slti d a i) :=
  fun _ h => Laws.word3_lt (by decide) h
theorem Laws.WordFits.sltni (d : BitVec 5) (a : BitVec 5) (i : BitVec 16) : Laws.WordFits.Statement (.sltni d a i) :=
  fun _ h => Laws.word3_lt (by decide) h
theorem Laws.WordFits.mul (d : BitVec 5) (a : BitVec 5) (b : BitVec 5) : Laws.WordFits.Statement (.mul d a b) :=
  fun _ h => Laws.word3_lt (by decide) h
theorem Laws.WordFits.mulh (d : BitVec 5) (a : BitVec 5) (b : BitVec 5) : Laws.WordFits.Statement (.mulh d a b) :=
  fun _ h => Laws.word3_lt (by decide) h
theorem Laws.WordFits.mulhn (d : BitVec 5) (a : BitVec 5) (b : BitVec 5) : Laws.WordFits.Statement (.mulhn d a b) :=
  fun _ h => Laws.word3_lt (by decide) h
theorem Laws.WordFits.mulw (d : BitVec 5) (a : BitVec 5) (b : BitVec 5) : Laws.WordFits.Statement (.mulw d a b) :=
  fun _ h => Laws.word3_lt (by decide) h
theorem Laws.WordFits.div (d : BitVec 5) (a : BitVec 5) (b : BitVec 5) : Laws.WordFits.Statement (.div d a b) :=
  fun _ h => Laws.word3_lt (by decide) h
theorem Laws.WordFits.divn (d : BitVec 5) (a : BitVec 5) (b : BitVec 5) : Laws.WordFits.Statement (.divn d a b) :=
  fun _ h => Laws.word3_lt (by decide) h
theorem Laws.WordFits.rem (d : BitVec 5) (a : BitVec 5) (b : BitVec 5) : Laws.WordFits.Statement (.rem d a b) :=
  fun _ h => Laws.word3_lt (by decide) h
theorem Laws.WordFits.remn (d : BitVec 5) (a : BitVec 5) (b : BitVec 5) : Laws.WordFits.Statement (.remn d a b) :=
  fun _ h => Laws.word3_lt (by decide) h
theorem Laws.WordFits.divw (d : BitVec 5) (a : BitVec 5) (b : BitVec 5) : Laws.WordFits.Statement (.divw d a b) :=
  fun _ h => Laws.word3_lt (by decide) h
theorem Laws.WordFits.remw (d : BitVec 5) (a : BitVec 5) (b : BitVec 5) : Laws.WordFits.Statement (.remw d a b) :=
  fun _ h => Laws.word3_lt (by decide) h
theorem Laws.WordFits.divideDone (slot : Nat) : Laws.WordFits.Statement (.divideDone slot) := fun _ h => nomatch h
theorem Laws.WordFits.clz (d : BitVec 5) (a : BitVec 5) : Laws.WordFits.Statement (.clz d a) :=
  fun _ h => Laws.word2_lt (by decide) h
theorem Laws.WordFits.ctz (d : BitVec 5) (a : BitVec 5) : Laws.WordFits.Statement (.ctz d a) :=
  fun _ h => Laws.word2_lt (by decide) h
theorem Laws.WordFits.popc (d : BitVec 5) (a : BitVec 5) : Laws.WordFits.Statement (.popc d a) :=
  fun _ h => Laws.word2_lt (by decide) h
theorem Laws.WordFits.brev (d : BitVec 5) (a : BitVec 5) : Laws.WordFits.Statement (.brev d a) :=
  fun _ h => Laws.word2_lt (by decide) h
theorem Laws.WordFits.sextb (d : BitVec 5) (a : BitVec 5) : Laws.WordFits.Statement (.sextb d a) :=
  fun _ h => Laws.word2_lt (by decide) h
theorem Laws.WordFits.sexth (d : BitVec 5) (a : BitVec 5) : Laws.WordFits.Statement (.sexth d a) :=
  fun _ h => Laws.word2_lt (by decide) h
theorem Laws.WordFits.sextw (d : BitVec 5) (a : BitVec 5) : Laws.WordFits.Statement (.sextw d a) :=
  fun _ h => Laws.word2_lt (by decide) h
theorem Laws.WordFits.zextb (d : BitVec 5) (a : BitVec 5) : Laws.WordFits.Statement (.zextb d a) :=
  fun _ h => Laws.word2_lt (by decide) h
theorem Laws.WordFits.zexth (d : BitVec 5) (a : BitVec 5) : Laws.WordFits.Statement (.zexth d a) :=
  fun _ h => Laws.word2_lt (by decide) h
theorem Laws.WordFits.zextw (d : BitVec 5) (a : BitVec 5) : Laws.WordFits.Statement (.zextw d a) :=
  fun _ h => Laws.word2_lt (by decide) h
theorem Laws.WordFits.bfx (d : BitVec 5) (a : BitVec 5) (b : BitVec 5) : Laws.WordFits.Statement (.bfx d a b) :=
  fun _ h => Laws.word3_lt (by decide) h
theorem Laws.WordFits.bfi (d : BitVec 5) (a : BitVec 5) (b : BitVec 5) : Laws.WordFits.Statement (.bfi d a b) :=
  fun _ h => Laws.word3_lt (by decide) h
theorem Laws.WordFits.padd (d : BitVec 5) (a : BitVec 5) (b : BitVec 5) : Laws.WordFits.Statement (.padd d a b) :=
  fun _ h => Laws.word3_lt (by decide) h
theorem Laws.WordFits.psub (d : BitVec 5) (a : BitVec 5) (b : BitVec 5) : Laws.WordFits.Statement (.psub d a b) :=
  fun _ h => Laws.word3_lt (by decide) h
theorem Laws.WordFits.pfmt (d : BitVec 5) (a : BitVec 5) (b : BitVec 5) : Laws.WordFits.Statement (.pfmt d a b) :=
  fun _ h => Laws.word3_lt (by decide) h
theorem Laws.WordFits.pmeta (d : BitVec 5) (a : BitVec 5) : Laws.WordFits.Statement (.pmeta d a) :=
  fun _ h => Laws.word2_lt (by decide) h
theorem Laws.WordFits.pclr (d : BitVec 5) (a : BitVec 5) : Laws.WordFits.Statement (.pclr d a) :=
  fun _ h => Laws.word2_lt (by decide) h
theorem Laws.WordFits.pchk (d : BitVec 5) (a : BitVec 5) (k : BitVec 3) : Laws.WordFits.Statement (.pchk d a k) :=
  fun _ h => Laws.word3_lt (by decide) h
theorem Laws.WordFits.mfsr (d : BitVec 5) (n : BitVec 16) : Laws.WordFits.Statement (.mfsr d n) :=
  fun _ h => Laws.word2_lt (by decide) h
theorem Laws.WordFits.mtsr (a : BitVec 5) (n : BitVec 16) : Laws.WordFits.Statement (.mtsr a n) :=
  fun _ h => Laws.word2_lt (by decide) h
theorem Laws.WordFits.beq (a : BitVec 5) (b : BitVec 5) (o : BitVec 16) : Laws.WordFits.Statement (.beq a b o) :=
  fun _ h => Laws.word3_lt (by decide) h
theorem Laws.WordFits.bne (a : BitVec 5) (b : BitVec 5) (o : BitVec 16) : Laws.WordFits.Statement (.bne a b o) :=
  fun _ h => Laws.word3_lt (by decide) h
theorem Laws.WordFits.blt (a : BitVec 5) (b : BitVec 5) (o : BitVec 16) : Laws.WordFits.Statement (.blt a b o) :=
  fun _ h => Laws.word3_lt (by decide) h
theorem Laws.WordFits.bge (a : BitVec 5) (b : BitVec 5) (o : BitVec 16) : Laws.WordFits.Statement (.bge a b o) :=
  fun _ h => Laws.word3_lt (by decide) h
theorem Laws.WordFits.bltn (a : BitVec 5) (b : BitVec 5) (o : BitVec 16) : Laws.WordFits.Statement (.bltn a b o) :=
  fun _ h => Laws.word3_lt (by decide) h
theorem Laws.WordFits.bgen (a : BitVec 5) (b : BitVec 5) (o : BitVec 16) : Laws.WordFits.Statement (.bgen a b o) :=
  fun _ h => Laws.word3_lt (by decide) h
theorem Laws.WordFits.j (o : BitVec 26) : Laws.WordFits.Statement (.j o) := fun _ h => Laws.word1_lt (by decide) h
theorem Laws.WordFits.jal (o : BitVec 26) : Laws.WordFits.Statement (.jal o) := fun _ h => Laws.word1_lt (by decide) h
theorem Laws.WordFits.jr (a : BitVec 5) : Laws.WordFits.Statement (.jr a) := fun _ h => Laws.word1_lt (by decide) h
theorem Laws.WordFits.jalr (d : BitVec 5) (a : BitVec 5) : Laws.WordFits.Statement (.jalr d a) :=
  fun _ h => Laws.word2_lt (by decide) h
theorem Laws.WordFits.loop (a : BitVec 5) (n : BitVec 1) (o : BitVec 16) : Laws.WordFits.Statement (.loop a n o) :=
  fun _ h => Laws.word3_lt (by decide) h
theorem Laws.WordFits.ldb (d : BitVec 5) (a : BitVec 5) (s : BitVec 3) (h : BitVec 2) (o : BitVec 11) : Laws.WordFits.Statement (.ldb d a s h o) :=
  fun _ h => Laws.word5_lt (by decide) h
theorem Laws.WordFits.ldbn (d : BitVec 5) (a : BitVec 5) (s : BitVec 3) (h : BitVec 2) (o : BitVec 11) : Laws.WordFits.Statement (.ldbn d a s h o) :=
  fun _ h => Laws.word5_lt (by decide) h
theorem Laws.WordFits.ldh (d : BitVec 5) (a : BitVec 5) (s : BitVec 3) (h : BitVec 2) (o : BitVec 11) : Laws.WordFits.Statement (.ldh d a s h o) :=
  fun _ h => Laws.word5_lt (by decide) h
theorem Laws.WordFits.ldhn (d : BitVec 5) (a : BitVec 5) (s : BitVec 3) (h : BitVec 2) (o : BitVec 11) : Laws.WordFits.Statement (.ldhn d a s h o) :=
  fun _ h => Laws.word5_lt (by decide) h
theorem Laws.WordFits.ldw (d : BitVec 5) (a : BitVec 5) (s : BitVec 3) (h : BitVec 2) (o : BitVec 11) : Laws.WordFits.Statement (.ldw d a s h o) :=
  fun _ h => Laws.word5_lt (by decide) h
theorem Laws.WordFits.ldwn (d : BitVec 5) (a : BitVec 5) (s : BitVec 3) (h : BitVec 2) (o : BitVec 11) : Laws.WordFits.Statement (.ldwn d a s h o) :=
  fun _ h => Laws.word5_lt (by decide) h
theorem Laws.WordFits.ldd (d : BitVec 5) (a : BitVec 5) (s : BitVec 3) (h : BitVec 2) (o : BitVec 11) : Laws.WordFits.Statement (.ldd d a s h o) :=
  fun _ h => Laws.word5_lt (by decide) h
theorem Laws.WordFits.stb (d : BitVec 5) (a : BitVec 5) (s : BitVec 3) (h : BitVec 2) (o : BitVec 11) : Laws.WordFits.Statement (.stb d a s h o) :=
  fun _ h => Laws.word5_lt (by decide) h
theorem Laws.WordFits.sth (d : BitVec 5) (a : BitVec 5) (s : BitVec 3) (h : BitVec 2) (o : BitVec 11) : Laws.WordFits.Statement (.sth d a s h o) :=
  fun _ h => Laws.word5_lt (by decide) h
theorem Laws.WordFits.stw (d : BitVec 5) (a : BitVec 5) (s : BitVec 3) (h : BitVec 2) (o : BitVec 11) : Laws.WordFits.Statement (.stw d a s h o) :=
  fun _ h => Laws.word5_lt (by decide) h
theorem Laws.WordFits.std (d : BitVec 5) (a : BitVec 5) (s : BitVec 3) (h : BitVec 2) (o : BitVec 11) : Laws.WordFits.Statement (.std d a s h o) :=
  fun _ h => Laws.word5_lt (by decide) h
theorem Laws.WordFits.memoryReply (slot : Nat) : Laws.WordFits.Statement (.memoryReply slot) := fun _ h => nomatch h
theorem Laws.WordFits.ldo (d : BitVec 5) (a : BitVec 5) (g : BitVec 3) (p : BitVec 2) (c : BitVec 3) (w : BitVec 2) : Laws.WordFits.Statement (.ldo d a g p c w) :=
  fun _ h => Laws.word6_lt (by decide) h
theorem Laws.WordFits.sto (d : BitVec 5) (a : BitVec 5) (g : BitVec 3) (p : BitVec 2) (c : BitVec 3) (w : BitVec 2) : Laws.WordFits.Statement (.sto d a g p c w) :=
  fun _ h => Laws.word6_lt (by decide) h
theorem Laws.WordFits.amoadd (d : BitVec 5) (a : BitVec 5) (b : BitVec 5) (g : BitVec 3) (p : BitVec 2) (c : BitVec 3) : Laws.WordFits.Statement (.amoadd d a b g p c) :=
  fun _ h => Laws.word6_lt (by decide) h
theorem Laws.WordFits.amoand (d : BitVec 5) (a : BitVec 5) (b : BitVec 5) (g : BitVec 3) (p : BitVec 2) (c : BitVec 3) : Laws.WordFits.Statement (.amoand d a b g p c) :=
  fun _ h => Laws.word6_lt (by decide) h
theorem Laws.WordFits.amoor (d : BitVec 5) (a : BitVec 5) (b : BitVec 5) (g : BitVec 3) (p : BitVec 2) (c : BitVec 3) : Laws.WordFits.Statement (.amoor d a b g p c) :=
  fun _ h => Laws.word6_lt (by decide) h
theorem Laws.WordFits.amoxor (d : BitVec 5) (a : BitVec 5) (b : BitVec 5) (g : BitVec 3) (p : BitVec 2) (c : BitVec 3) : Laws.WordFits.Statement (.amoxor d a b g p c) :=
  fun _ h => Laws.word6_lt (by decide) h
theorem Laws.WordFits.amomin (d : BitVec 5) (a : BitVec 5) (b : BitVec 5) (g : BitVec 3) (p : BitVec 2) (c : BitVec 3) : Laws.WordFits.Statement (.amomin d a b g p c) :=
  fun _ h => Laws.word6_lt (by decide) h
theorem Laws.WordFits.amomax (d : BitVec 5) (a : BitVec 5) (b : BitVec 5) (g : BitVec 3) (p : BitVec 2) (c : BitVec 3) : Laws.WordFits.Statement (.amomax d a b g p c) :=
  fun _ h => Laws.word6_lt (by decide) h
theorem Laws.WordFits.amoswp (d : BitVec 5) (a : BitVec 5) (b : BitVec 5) (g : BitVec 3) (p : BitVec 2) (c : BitVec 3) : Laws.WordFits.Statement (.amoswp d a b g p c) :=
  fun _ h => Laws.word6_lt (by decide) h
theorem Laws.WordFits.amocas (d : BitVec 5) (a : BitVec 5) (b : BitVec 5) (g : BitVec 3) (p : BitVec 2) (c : BitVec 3) : Laws.WordFits.Statement (.amocas d a b g p c) :=
  fun _ h => Laws.word6_lt (by decide) h
theorem Laws.WordFits.amowadd (d : BitVec 5) (a : BitVec 5) (b : BitVec 5) (g : BitVec 3) (p : BitVec 2) (c : BitVec 3) : Laws.WordFits.Statement (.amowadd d a b g p c) :=
  fun _ h => Laws.word6_lt (by decide) h
theorem Laws.WordFits.amowand (d : BitVec 5) (a : BitVec 5) (b : BitVec 5) (g : BitVec 3) (p : BitVec 2) (c : BitVec 3) : Laws.WordFits.Statement (.amowand d a b g p c) :=
  fun _ h => Laws.word6_lt (by decide) h
theorem Laws.WordFits.amowor (d : BitVec 5) (a : BitVec 5) (b : BitVec 5) (g : BitVec 3) (p : BitVec 2) (c : BitVec 3) : Laws.WordFits.Statement (.amowor d a b g p c) :=
  fun _ h => Laws.word6_lt (by decide) h
theorem Laws.WordFits.amowxor (d : BitVec 5) (a : BitVec 5) (b : BitVec 5) (g : BitVec 3) (p : BitVec 2) (c : BitVec 3) : Laws.WordFits.Statement (.amowxor d a b g p c) :=
  fun _ h => Laws.word6_lt (by decide) h
theorem Laws.WordFits.amowmin (d : BitVec 5) (a : BitVec 5) (b : BitVec 5) (g : BitVec 3) (p : BitVec 2) (c : BitVec 3) : Laws.WordFits.Statement (.amowmin d a b g p c) :=
  fun _ h => Laws.word6_lt (by decide) h
theorem Laws.WordFits.amowmax (d : BitVec 5) (a : BitVec 5) (b : BitVec 5) (g : BitVec 3) (p : BitVec 2) (c : BitVec 3) : Laws.WordFits.Statement (.amowmax d a b g p c) :=
  fun _ h => Laws.word6_lt (by decide) h
theorem Laws.WordFits.amowswp (d : BitVec 5) (a : BitVec 5) (b : BitVec 5) (g : BitVec 3) (p : BitVec 2) (c : BitVec 3) : Laws.WordFits.Statement (.amowswp d a b g p c) :=
  fun _ h => Laws.word6_lt (by decide) h
theorem Laws.WordFits.amowcas (d : BitVec 5) (a : BitVec 5) (b : BitVec 5) (g : BitVec 3) (p : BitVec 2) (c : BitVec 3) : Laws.WordFits.Statement (.amowcas d a b g p c) :=
  fun _ h => Laws.word6_lt (by decide) h
theorem Laws.WordFits.fence (p : BitVec 2) (c : BitVec 3) : Laws.WordFits.Statement (.fence p c) :=
  fun _ h => Laws.word2_lt (by decide) h
theorem Laws.WordFits.vaddF32 (d : BitVec 6) (a : BitVec 6) (b : BitVec 6) (m : BitVec 3) : Laws.WordFits.Statement (.vaddF32 d a b m) :=
  fun _ h => Laws.word4_lt (by decide) h
theorem Laws.WordFits.vsubF32 (d : BitVec 6) (a : BitVec 6) (b : BitVec 6) (m : BitVec 3) : Laws.WordFits.Statement (.vsubF32 d a b m) :=
  fun _ h => Laws.word4_lt (by decide) h
theorem Laws.WordFits.vmulF32 (d : BitVec 6) (a : BitVec 6) (b : BitVec 6) (m : BitVec 3) : Laws.WordFits.Statement (.vmulF32 d a b m) :=
  fun _ h => Laws.word4_lt (by decide) h
theorem Laws.WordFits.vfmaF32 (d : BitVec 6) (a : BitVec 6) (b : BitVec 6) (m : BitVec 3) : Laws.WordFits.Statement (.vfmaF32 d a b m) :=
  fun _ h => Laws.word4_lt (by decide) h
theorem Laws.WordFits.vfmsF32 (d : BitVec 6) (a : BitVec 6) (b : BitVec 6) (m : BitVec 3) : Laws.WordFits.Statement (.vfmsF32 d a b m) :=
  fun _ h => Laws.word4_lt (by decide) h
theorem Laws.WordFits.vminF32 (d : BitVec 6) (a : BitVec 6) (b : BitVec 6) (m : BitVec 3) : Laws.WordFits.Statement (.vminF32 d a b m) :=
  fun _ h => Laws.word4_lt (by decide) h
theorem Laws.WordFits.vmaxF32 (d : BitVec 6) (a : BitVec 6) (b : BitVec 6) (m : BitVec 3) : Laws.WordFits.Statement (.vmaxF32 d a b m) :=
  fun _ h => Laws.word4_lt (by decide) h
theorem Laws.WordFits.vabsF32 (d : BitVec 6) (a : BitVec 6) (m : BitVec 3) : Laws.WordFits.Statement (.vabsF32 d a m) :=
  fun _ h => Laws.word3_lt (by decide) h
theorem Laws.WordFits.vnegF32 (d : BitVec 6) (a : BitVec 6) (m : BitVec 3) : Laws.WordFits.Statement (.vnegF32 d a m) :=
  fun _ h => Laws.word3_lt (by decide) h
theorem Laws.WordFits.vdivF32 (d : BitVec 6) (a : BitVec 6) (b : BitVec 6) (m : BitVec 3) : Laws.WordFits.Statement (.vdivF32 d a b m) :=
  fun _ h => Laws.word4_lt (by decide) h
theorem Laws.WordFits.vsqrtF32 (d : BitVec 6) (a : BitVec 6) (m : BitVec 3) : Laws.WordFits.Statement (.vsqrtF32 d a m) :=
  fun _ h => Laws.word3_lt (by decide) h
theorem Laws.WordFits.vsinF32 (d : BitVec 6) (a : BitVec 6) (m : BitVec 3) : Laws.WordFits.Statement (.vsinF32 d a m) :=
  fun _ h => Laws.word3_lt (by decide) h
theorem Laws.WordFits.vcosF32 (d : BitVec 6) (a : BitVec 6) (m : BitVec 3) : Laws.WordFits.Statement (.vcosF32 d a m) :=
  fun _ h => Laws.word3_lt (by decide) h
theorem Laws.WordFits.vexp2F32 (d : BitVec 6) (a : BitVec 6) (m : BitVec 3) : Laws.WordFits.Statement (.vexp2F32 d a m) :=
  fun _ h => Laws.word3_lt (by decide) h
theorem Laws.WordFits.vcmpeqF32 (d : BitVec 3) (a : BitVec 6) (b : BitVec 6) (m : BitVec 3) : Laws.WordFits.Statement (.vcmpeqF32 d a b m) :=
  fun _ h => Laws.word4_lt (by decide) h
theorem Laws.WordFits.vcmpltF32 (d : BitVec 3) (a : BitVec 6) (b : BitVec 6) (m : BitVec 3) : Laws.WordFits.Statement (.vcmpltF32 d a b m) :=
  fun _ h => Laws.word4_lt (by decide) h
theorem Laws.WordFits.vcmpleF32 (d : BitVec 3) (a : BitVec 6) (b : BitVec 6) (m : BitVec 3) : Laws.WordFits.Statement (.vcmpleF32 d a b m) :=
  fun _ h => Laws.word4_lt (by decide) h
theorem Laws.WordFits.vcmpunF32 (d : BitVec 3) (a : BitVec 6) (b : BitVec 6) (m : BitVec 3) : Laws.WordFits.Statement (.vcmpunF32 d a b m) :=
  fun _ h => Laws.word4_lt (by decide) h
theorem Laws.WordFits.vselF32 (d : BitVec 6) (a : BitVec 6) (b : BitVec 6) (m : BitVec 3) : Laws.WordFits.Statement (.vselF32 d a b m) :=
  fun _ h => Laws.word4_lt (by decide) h
theorem Laws.WordFits.vaddBf16 (d : BitVec 6) (a : BitVec 6) (b : BitVec 6) (m : BitVec 3) : Laws.WordFits.Statement (.vaddBf16 d a b m) :=
  fun _ h => Laws.word4_lt (by decide) h
theorem Laws.WordFits.vsubBf16 (d : BitVec 6) (a : BitVec 6) (b : BitVec 6) (m : BitVec 3) : Laws.WordFits.Statement (.vsubBf16 d a b m) :=
  fun _ h => Laws.word4_lt (by decide) h
theorem Laws.WordFits.vmulBf16 (d : BitVec 6) (a : BitVec 6) (b : BitVec 6) (m : BitVec 3) : Laws.WordFits.Statement (.vmulBf16 d a b m) :=
  fun _ h => Laws.word4_lt (by decide) h
theorem Laws.WordFits.vfmaBf16 (d : BitVec 6) (a : BitVec 6) (b : BitVec 6) (m : BitVec 3) : Laws.WordFits.Statement (.vfmaBf16 d a b m) :=
  fun _ h => Laws.word4_lt (by decide) h
theorem Laws.WordFits.vfmsBf16 (d : BitVec 6) (a : BitVec 6) (b : BitVec 6) (m : BitVec 3) : Laws.WordFits.Statement (.vfmsBf16 d a b m) :=
  fun _ h => Laws.word4_lt (by decide) h
theorem Laws.WordFits.vminBf16 (d : BitVec 6) (a : BitVec 6) (b : BitVec 6) (m : BitVec 3) : Laws.WordFits.Statement (.vminBf16 d a b m) :=
  fun _ h => Laws.word4_lt (by decide) h
theorem Laws.WordFits.vmaxBf16 (d : BitVec 6) (a : BitVec 6) (b : BitVec 6) (m : BitVec 3) : Laws.WordFits.Statement (.vmaxBf16 d a b m) :=
  fun _ h => Laws.word4_lt (by decide) h
theorem Laws.WordFits.vabsBf16 (d : BitVec 6) (a : BitVec 6) (m : BitVec 3) : Laws.WordFits.Statement (.vabsBf16 d a m) :=
  fun _ h => Laws.word3_lt (by decide) h
theorem Laws.WordFits.vnegBf16 (d : BitVec 6) (a : BitVec 6) (m : BitVec 3) : Laws.WordFits.Statement (.vnegBf16 d a m) :=
  fun _ h => Laws.word3_lt (by decide) h
theorem Laws.WordFits.vdivBf16 (d : BitVec 6) (a : BitVec 6) (b : BitVec 6) (m : BitVec 3) : Laws.WordFits.Statement (.vdivBf16 d a b m) :=
  fun _ h => Laws.word4_lt (by decide) h
theorem Laws.WordFits.vsqrtBf16 (d : BitVec 6) (a : BitVec 6) (m : BitVec 3) : Laws.WordFits.Statement (.vsqrtBf16 d a m) :=
  fun _ h => Laws.word3_lt (by decide) h
theorem Laws.WordFits.vsinBf16 (d : BitVec 6) (a : BitVec 6) (m : BitVec 3) : Laws.WordFits.Statement (.vsinBf16 d a m) :=
  fun _ h => Laws.word3_lt (by decide) h
theorem Laws.WordFits.vcosBf16 (d : BitVec 6) (a : BitVec 6) (m : BitVec 3) : Laws.WordFits.Statement (.vcosBf16 d a m) :=
  fun _ h => Laws.word3_lt (by decide) h
theorem Laws.WordFits.vexp2Bf16 (d : BitVec 6) (a : BitVec 6) (m : BitVec 3) : Laws.WordFits.Statement (.vexp2Bf16 d a m) :=
  fun _ h => Laws.word3_lt (by decide) h
theorem Laws.WordFits.vcmpeqBf16 (d : BitVec 3) (a : BitVec 6) (b : BitVec 6) (m : BitVec 3) : Laws.WordFits.Statement (.vcmpeqBf16 d a b m) :=
  fun _ h => Laws.word4_lt (by decide) h
theorem Laws.WordFits.vcmpltBf16 (d : BitVec 3) (a : BitVec 6) (b : BitVec 6) (m : BitVec 3) : Laws.WordFits.Statement (.vcmpltBf16 d a b m) :=
  fun _ h => Laws.word4_lt (by decide) h
theorem Laws.WordFits.vcmpleBf16 (d : BitVec 3) (a : BitVec 6) (b : BitVec 6) (m : BitVec 3) : Laws.WordFits.Statement (.vcmpleBf16 d a b m) :=
  fun _ h => Laws.word4_lt (by decide) h
theorem Laws.WordFits.vcmpunBf16 (d : BitVec 3) (a : BitVec 6) (b : BitVec 6) (m : BitVec 3) : Laws.WordFits.Statement (.vcmpunBf16 d a b m) :=
  fun _ h => Laws.word4_lt (by decide) h
theorem Laws.WordFits.vselBf16 (d : BitVec 6) (a : BitVec 6) (b : BitVec 6) (m : BitVec 3) : Laws.WordFits.Statement (.vselBf16 d a b m) :=
  fun _ h => Laws.word4_lt (by decide) h
theorem Laws.WordFits.vaddF16 (d : BitVec 6) (a : BitVec 6) (b : BitVec 6) (m : BitVec 3) : Laws.WordFits.Statement (.vaddF16 d a b m) :=
  fun _ h => Laws.word4_lt (by decide) h
theorem Laws.WordFits.vsubF16 (d : BitVec 6) (a : BitVec 6) (b : BitVec 6) (m : BitVec 3) : Laws.WordFits.Statement (.vsubF16 d a b m) :=
  fun _ h => Laws.word4_lt (by decide) h
theorem Laws.WordFits.vmulF16 (d : BitVec 6) (a : BitVec 6) (b : BitVec 6) (m : BitVec 3) : Laws.WordFits.Statement (.vmulF16 d a b m) :=
  fun _ h => Laws.word4_lt (by decide) h
theorem Laws.WordFits.vfmaF16 (d : BitVec 6) (a : BitVec 6) (b : BitVec 6) (m : BitVec 3) : Laws.WordFits.Statement (.vfmaF16 d a b m) :=
  fun _ h => Laws.word4_lt (by decide) h
theorem Laws.WordFits.vfmsF16 (d : BitVec 6) (a : BitVec 6) (b : BitVec 6) (m : BitVec 3) : Laws.WordFits.Statement (.vfmsF16 d a b m) :=
  fun _ h => Laws.word4_lt (by decide) h
theorem Laws.WordFits.vminF16 (d : BitVec 6) (a : BitVec 6) (b : BitVec 6) (m : BitVec 3) : Laws.WordFits.Statement (.vminF16 d a b m) :=
  fun _ h => Laws.word4_lt (by decide) h
theorem Laws.WordFits.vmaxF16 (d : BitVec 6) (a : BitVec 6) (b : BitVec 6) (m : BitVec 3) : Laws.WordFits.Statement (.vmaxF16 d a b m) :=
  fun _ h => Laws.word4_lt (by decide) h
theorem Laws.WordFits.vabsF16 (d : BitVec 6) (a : BitVec 6) (m : BitVec 3) : Laws.WordFits.Statement (.vabsF16 d a m) :=
  fun _ h => Laws.word3_lt (by decide) h
theorem Laws.WordFits.vnegF16 (d : BitVec 6) (a : BitVec 6) (m : BitVec 3) : Laws.WordFits.Statement (.vnegF16 d a m) :=
  fun _ h => Laws.word3_lt (by decide) h
theorem Laws.WordFits.vdivF16 (d : BitVec 6) (a : BitVec 6) (b : BitVec 6) (m : BitVec 3) : Laws.WordFits.Statement (.vdivF16 d a b m) :=
  fun _ h => Laws.word4_lt (by decide) h
theorem Laws.WordFits.vsqrtF16 (d : BitVec 6) (a : BitVec 6) (m : BitVec 3) : Laws.WordFits.Statement (.vsqrtF16 d a m) :=
  fun _ h => Laws.word3_lt (by decide) h
theorem Laws.WordFits.vsinF16 (d : BitVec 6) (a : BitVec 6) (m : BitVec 3) : Laws.WordFits.Statement (.vsinF16 d a m) :=
  fun _ h => Laws.word3_lt (by decide) h
theorem Laws.WordFits.vcosF16 (d : BitVec 6) (a : BitVec 6) (m : BitVec 3) : Laws.WordFits.Statement (.vcosF16 d a m) :=
  fun _ h => Laws.word3_lt (by decide) h
theorem Laws.WordFits.vexp2F16 (d : BitVec 6) (a : BitVec 6) (m : BitVec 3) : Laws.WordFits.Statement (.vexp2F16 d a m) :=
  fun _ h => Laws.word3_lt (by decide) h
theorem Laws.WordFits.vcmpeqF16 (d : BitVec 3) (a : BitVec 6) (b : BitVec 6) (m : BitVec 3) : Laws.WordFits.Statement (.vcmpeqF16 d a b m) :=
  fun _ h => Laws.word4_lt (by decide) h
theorem Laws.WordFits.vcmpltF16 (d : BitVec 3) (a : BitVec 6) (b : BitVec 6) (m : BitVec 3) : Laws.WordFits.Statement (.vcmpltF16 d a b m) :=
  fun _ h => Laws.word4_lt (by decide) h
theorem Laws.WordFits.vcmpleF16 (d : BitVec 3) (a : BitVec 6) (b : BitVec 6) (m : BitVec 3) : Laws.WordFits.Statement (.vcmpleF16 d a b m) :=
  fun _ h => Laws.word4_lt (by decide) h
theorem Laws.WordFits.vcmpunF16 (d : BitVec 3) (a : BitVec 6) (b : BitVec 6) (m : BitVec 3) : Laws.WordFits.Statement (.vcmpunF16 d a b m) :=
  fun _ h => Laws.word4_lt (by decide) h
theorem Laws.WordFits.vselF16 (d : BitVec 6) (a : BitVec 6) (b : BitVec 6) (m : BitVec 3) : Laws.WordFits.Statement (.vselF16 d a b m) :=
  fun _ h => Laws.word4_lt (by decide) h
theorem Laws.WordFits.vaddI32 (d : BitVec 6) (a : BitVec 6) (b : BitVec 6) (m : BitVec 3) : Laws.WordFits.Statement (.vaddI32 d a b m) :=
  fun _ h => Laws.word4_lt (by decide) h
theorem Laws.WordFits.vsubI32 (d : BitVec 6) (a : BitVec 6) (b : BitVec 6) (m : BitVec 3) : Laws.WordFits.Statement (.vsubI32 d a b m) :=
  fun _ h => Laws.word4_lt (by decide) h
theorem Laws.WordFits.vmulI32 (d : BitVec 6) (a : BitVec 6) (b : BitVec 6) (m : BitVec 3) : Laws.WordFits.Statement (.vmulI32 d a b m) :=
  fun _ h => Laws.word4_lt (by decide) h
theorem Laws.WordFits.vmulhI32 (d : BitVec 6) (a : BitVec 6) (b : BitVec 6) (m : BitVec 3) : Laws.WordFits.Statement (.vmulhI32 d a b m) :=
  fun _ h => Laws.word4_lt (by decide) h
theorem Laws.WordFits.vminI32 (d : BitVec 6) (a : BitVec 6) (b : BitVec 6) (m : BitVec 3) : Laws.WordFits.Statement (.vminI32 d a b m) :=
  fun _ h => Laws.word4_lt (by decide) h
theorem Laws.WordFits.vmaxI32 (d : BitVec 6) (a : BitVec 6) (b : BitVec 6) (m : BitVec 3) : Laws.WordFits.Statement (.vmaxI32 d a b m) :=
  fun _ h => Laws.word4_lt (by decide) h
theorem Laws.WordFits.vminnI32 (d : BitVec 6) (a : BitVec 6) (b : BitVec 6) (m : BitVec 3) : Laws.WordFits.Statement (.vminnI32 d a b m) :=
  fun _ h => Laws.word4_lt (by decide) h
theorem Laws.WordFits.vmaxnI32 (d : BitVec 6) (a : BitVec 6) (b : BitVec 6) (m : BitVec 3) : Laws.WordFits.Statement (.vmaxnI32 d a b m) :=
  fun _ h => Laws.word4_lt (by decide) h
theorem Laws.WordFits.vandI32 (d : BitVec 6) (a : BitVec 6) (b : BitVec 6) (m : BitVec 3) : Laws.WordFits.Statement (.vandI32 d a b m) :=
  fun _ h => Laws.word4_lt (by decide) h
theorem Laws.WordFits.vorI32 (d : BitVec 6) (a : BitVec 6) (b : BitVec 6) (m : BitVec 3) : Laws.WordFits.Statement (.vorI32 d a b m) :=
  fun _ h => Laws.word4_lt (by decide) h
theorem Laws.WordFits.vxorI32 (d : BitVec 6) (a : BitVec 6) (b : BitVec 6) (m : BitVec 3) : Laws.WordFits.Statement (.vxorI32 d a b m) :=
  fun _ h => Laws.word4_lt (by decide) h
theorem Laws.WordFits.vshlI32 (d : BitVec 6) (a : BitVec 6) (b : BitVec 6) (m : BitVec 3) : Laws.WordFits.Statement (.vshlI32 d a b m) :=
  fun _ h => Laws.word4_lt (by decide) h
theorem Laws.WordFits.vshrI32 (d : BitVec 6) (a : BitVec 6) (b : BitVec 6) (m : BitVec 3) : Laws.WordFits.Statement (.vshrI32 d a b m) :=
  fun _ h => Laws.word4_lt (by decide) h
theorem Laws.WordFits.vsarI32 (d : BitVec 6) (a : BitVec 6) (b : BitVec 6) (m : BitVec 3) : Laws.WordFits.Statement (.vsarI32 d a b m) :=
  fun _ h => Laws.word4_lt (by decide) h
theorem Laws.WordFits.vcmpeqI32 (d : BitVec 3) (a : BitVec 6) (b : BitVec 6) (m : BitVec 3) : Laws.WordFits.Statement (.vcmpeqI32 d a b m) :=
  fun _ h => Laws.word4_lt (by decide) h
theorem Laws.WordFits.vcmpltI32 (d : BitVec 3) (a : BitVec 6) (b : BitVec 6) (m : BitVec 3) : Laws.WordFits.Statement (.vcmpltI32 d a b m) :=
  fun _ h => Laws.word4_lt (by decide) h
theorem Laws.WordFits.vcmpltnI32 (d : BitVec 3) (a : BitVec 6) (b : BitVec 6) (m : BitVec 3) : Laws.WordFits.Statement (.vcmpltnI32 d a b m) :=
  fun _ h => Laws.word4_lt (by decide) h
theorem Laws.WordFits.vselI32 (d : BitVec 6) (a : BitVec 6) (b : BitVec 6) (m : BitVec 3) : Laws.WordFits.Statement (.vselI32 d a b m) :=
  fun _ h => Laws.word4_lt (by decide) h
theorem Laws.WordFits.vaddsI32 (d : BitVec 6) (a : BitVec 6) (b : BitVec 6) (m : BitVec 3) : Laws.WordFits.Statement (.vaddsI32 d a b m) :=
  fun _ h => Laws.word4_lt (by decide) h
theorem Laws.WordFits.vsubsI32 (d : BitVec 6) (a : BitVec 6) (b : BitVec 6) (m : BitVec 3) : Laws.WordFits.Statement (.vsubsI32 d a b m) :=
  fun _ h => Laws.word4_lt (by decide) h
theorem Laws.WordFits.vaddI16 (d : BitVec 6) (a : BitVec 6) (b : BitVec 6) (m : BitVec 3) : Laws.WordFits.Statement (.vaddI16 d a b m) :=
  fun _ h => Laws.word4_lt (by decide) h
theorem Laws.WordFits.vsubI16 (d : BitVec 6) (a : BitVec 6) (b : BitVec 6) (m : BitVec 3) : Laws.WordFits.Statement (.vsubI16 d a b m) :=
  fun _ h => Laws.word4_lt (by decide) h
theorem Laws.WordFits.vmulI16 (d : BitVec 6) (a : BitVec 6) (b : BitVec 6) (m : BitVec 3) : Laws.WordFits.Statement (.vmulI16 d a b m) :=
  fun _ h => Laws.word4_lt (by decide) h
theorem Laws.WordFits.vmulhI16 (d : BitVec 6) (a : BitVec 6) (b : BitVec 6) (m : BitVec 3) : Laws.WordFits.Statement (.vmulhI16 d a b m) :=
  fun _ h => Laws.word4_lt (by decide) h
theorem Laws.WordFits.vminI16 (d : BitVec 6) (a : BitVec 6) (b : BitVec 6) (m : BitVec 3) : Laws.WordFits.Statement (.vminI16 d a b m) :=
  fun _ h => Laws.word4_lt (by decide) h
theorem Laws.WordFits.vmaxI16 (d : BitVec 6) (a : BitVec 6) (b : BitVec 6) (m : BitVec 3) : Laws.WordFits.Statement (.vmaxI16 d a b m) :=
  fun _ h => Laws.word4_lt (by decide) h
theorem Laws.WordFits.vminnI16 (d : BitVec 6) (a : BitVec 6) (b : BitVec 6) (m : BitVec 3) : Laws.WordFits.Statement (.vminnI16 d a b m) :=
  fun _ h => Laws.word4_lt (by decide) h
theorem Laws.WordFits.vmaxnI16 (d : BitVec 6) (a : BitVec 6) (b : BitVec 6) (m : BitVec 3) : Laws.WordFits.Statement (.vmaxnI16 d a b m) :=
  fun _ h => Laws.word4_lt (by decide) h
theorem Laws.WordFits.vandI16 (d : BitVec 6) (a : BitVec 6) (b : BitVec 6) (m : BitVec 3) : Laws.WordFits.Statement (.vandI16 d a b m) :=
  fun _ h => Laws.word4_lt (by decide) h
theorem Laws.WordFits.vorI16 (d : BitVec 6) (a : BitVec 6) (b : BitVec 6) (m : BitVec 3) : Laws.WordFits.Statement (.vorI16 d a b m) :=
  fun _ h => Laws.word4_lt (by decide) h
theorem Laws.WordFits.vxorI16 (d : BitVec 6) (a : BitVec 6) (b : BitVec 6) (m : BitVec 3) : Laws.WordFits.Statement (.vxorI16 d a b m) :=
  fun _ h => Laws.word4_lt (by decide) h
theorem Laws.WordFits.vshlI16 (d : BitVec 6) (a : BitVec 6) (b : BitVec 6) (m : BitVec 3) : Laws.WordFits.Statement (.vshlI16 d a b m) :=
  fun _ h => Laws.word4_lt (by decide) h
theorem Laws.WordFits.vshrI16 (d : BitVec 6) (a : BitVec 6) (b : BitVec 6) (m : BitVec 3) : Laws.WordFits.Statement (.vshrI16 d a b m) :=
  fun _ h => Laws.word4_lt (by decide) h
theorem Laws.WordFits.vsarI16 (d : BitVec 6) (a : BitVec 6) (b : BitVec 6) (m : BitVec 3) : Laws.WordFits.Statement (.vsarI16 d a b m) :=
  fun _ h => Laws.word4_lt (by decide) h
theorem Laws.WordFits.vcmpeqI16 (d : BitVec 3) (a : BitVec 6) (b : BitVec 6) (m : BitVec 3) : Laws.WordFits.Statement (.vcmpeqI16 d a b m) :=
  fun _ h => Laws.word4_lt (by decide) h
theorem Laws.WordFits.vcmpltI16 (d : BitVec 3) (a : BitVec 6) (b : BitVec 6) (m : BitVec 3) : Laws.WordFits.Statement (.vcmpltI16 d a b m) :=
  fun _ h => Laws.word4_lt (by decide) h
theorem Laws.WordFits.vcmpltnI16 (d : BitVec 3) (a : BitVec 6) (b : BitVec 6) (m : BitVec 3) : Laws.WordFits.Statement (.vcmpltnI16 d a b m) :=
  fun _ h => Laws.word4_lt (by decide) h
theorem Laws.WordFits.vselI16 (d : BitVec 6) (a : BitVec 6) (b : BitVec 6) (m : BitVec 3) : Laws.WordFits.Statement (.vselI16 d a b m) :=
  fun _ h => Laws.word4_lt (by decide) h
theorem Laws.WordFits.vaddsI16 (d : BitVec 6) (a : BitVec 6) (b : BitVec 6) (m : BitVec 3) : Laws.WordFits.Statement (.vaddsI16 d a b m) :=
  fun _ h => Laws.word4_lt (by decide) h
theorem Laws.WordFits.vsubsI16 (d : BitVec 6) (a : BitVec 6) (b : BitVec 6) (m : BitVec 3) : Laws.WordFits.Statement (.vsubsI16 d a b m) :=
  fun _ h => Laws.word4_lt (by decide) h
theorem Laws.WordFits.vaddI8 (d : BitVec 6) (a : BitVec 6) (b : BitVec 6) (m : BitVec 3) : Laws.WordFits.Statement (.vaddI8 d a b m) :=
  fun _ h => Laws.word4_lt (by decide) h
theorem Laws.WordFits.vsubI8 (d : BitVec 6) (a : BitVec 6) (b : BitVec 6) (m : BitVec 3) : Laws.WordFits.Statement (.vsubI8 d a b m) :=
  fun _ h => Laws.word4_lt (by decide) h
theorem Laws.WordFits.vmulI8 (d : BitVec 6) (a : BitVec 6) (b : BitVec 6) (m : BitVec 3) : Laws.WordFits.Statement (.vmulI8 d a b m) :=
  fun _ h => Laws.word4_lt (by decide) h
theorem Laws.WordFits.vmulhI8 (d : BitVec 6) (a : BitVec 6) (b : BitVec 6) (m : BitVec 3) : Laws.WordFits.Statement (.vmulhI8 d a b m) :=
  fun _ h => Laws.word4_lt (by decide) h
theorem Laws.WordFits.vminI8 (d : BitVec 6) (a : BitVec 6) (b : BitVec 6) (m : BitVec 3) : Laws.WordFits.Statement (.vminI8 d a b m) :=
  fun _ h => Laws.word4_lt (by decide) h
theorem Laws.WordFits.vmaxI8 (d : BitVec 6) (a : BitVec 6) (b : BitVec 6) (m : BitVec 3) : Laws.WordFits.Statement (.vmaxI8 d a b m) :=
  fun _ h => Laws.word4_lt (by decide) h
theorem Laws.WordFits.vminnI8 (d : BitVec 6) (a : BitVec 6) (b : BitVec 6) (m : BitVec 3) : Laws.WordFits.Statement (.vminnI8 d a b m) :=
  fun _ h => Laws.word4_lt (by decide) h
theorem Laws.WordFits.vmaxnI8 (d : BitVec 6) (a : BitVec 6) (b : BitVec 6) (m : BitVec 3) : Laws.WordFits.Statement (.vmaxnI8 d a b m) :=
  fun _ h => Laws.word4_lt (by decide) h
theorem Laws.WordFits.vandI8 (d : BitVec 6) (a : BitVec 6) (b : BitVec 6) (m : BitVec 3) : Laws.WordFits.Statement (.vandI8 d a b m) :=
  fun _ h => Laws.word4_lt (by decide) h
theorem Laws.WordFits.vorI8 (d : BitVec 6) (a : BitVec 6) (b : BitVec 6) (m : BitVec 3) : Laws.WordFits.Statement (.vorI8 d a b m) :=
  fun _ h => Laws.word4_lt (by decide) h
theorem Laws.WordFits.vxorI8 (d : BitVec 6) (a : BitVec 6) (b : BitVec 6) (m : BitVec 3) : Laws.WordFits.Statement (.vxorI8 d a b m) :=
  fun _ h => Laws.word4_lt (by decide) h
theorem Laws.WordFits.vshlI8 (d : BitVec 6) (a : BitVec 6) (b : BitVec 6) (m : BitVec 3) : Laws.WordFits.Statement (.vshlI8 d a b m) :=
  fun _ h => Laws.word4_lt (by decide) h
theorem Laws.WordFits.vshrI8 (d : BitVec 6) (a : BitVec 6) (b : BitVec 6) (m : BitVec 3) : Laws.WordFits.Statement (.vshrI8 d a b m) :=
  fun _ h => Laws.word4_lt (by decide) h
theorem Laws.WordFits.vsarI8 (d : BitVec 6) (a : BitVec 6) (b : BitVec 6) (m : BitVec 3) : Laws.WordFits.Statement (.vsarI8 d a b m) :=
  fun _ h => Laws.word4_lt (by decide) h
theorem Laws.WordFits.vcmpeqI8 (d : BitVec 3) (a : BitVec 6) (b : BitVec 6) (m : BitVec 3) : Laws.WordFits.Statement (.vcmpeqI8 d a b m) :=
  fun _ h => Laws.word4_lt (by decide) h
theorem Laws.WordFits.vcmpltI8 (d : BitVec 3) (a : BitVec 6) (b : BitVec 6) (m : BitVec 3) : Laws.WordFits.Statement (.vcmpltI8 d a b m) :=
  fun _ h => Laws.word4_lt (by decide) h
theorem Laws.WordFits.vcmpltnI8 (d : BitVec 3) (a : BitVec 6) (b : BitVec 6) (m : BitVec 3) : Laws.WordFits.Statement (.vcmpltnI8 d a b m) :=
  fun _ h => Laws.word4_lt (by decide) h
theorem Laws.WordFits.vselI8 (d : BitVec 6) (a : BitVec 6) (b : BitVec 6) (m : BitVec 3) : Laws.WordFits.Statement (.vselI8 d a b m) :=
  fun _ h => Laws.word4_lt (by decide) h
theorem Laws.WordFits.vaddsI8 (d : BitVec 6) (a : BitVec 6) (b : BitVec 6) (m : BitVec 3) : Laws.WordFits.Statement (.vaddsI8 d a b m) :=
  fun _ h => Laws.word4_lt (by decide) h
theorem Laws.WordFits.vsubsI8 (d : BitVec 6) (a : BitVec 6) (b : BitVec 6) (m : BitVec 3) : Laws.WordFits.Statement (.vsubsI8 d a b m) :=
  fun _ h => Laws.word4_lt (by decide) h
theorem Laws.WordFits.vperm (d : BitVec 6) (a : BitVec 6) (b : BitVec 6) (m : BitVec 3) : Laws.WordFits.Statement (.vperm d a b m) :=
  fun _ h => Laws.word4_lt (by decide) h
theorem Laws.WordFits.vslideup (d : BitVec 6) (a : BitVec 6) (b : BitVec 5) (m : BitVec 3) : Laws.WordFits.Statement (.vslideup d a b m) :=
  fun _ h => Laws.word4_lt (by decide) h
theorem Laws.WordFits.vslidedn (d : BitVec 6) (a : BitVec 6) (b : BitVec 5) (m : BitVec 3) : Laws.WordFits.Statement (.vslidedn d a b m) :=
  fun _ h => Laws.word4_lt (by decide) h
theorem Laws.WordFits.vbcast (d : BitVec 6) (a : BitVec 5) (m : BitVec 3) : Laws.WordFits.Statement (.vbcast d a m) :=
  fun _ h => Laws.word3_lt (by decide) h
theorem Laws.WordFits.vredsum (d : BitVec 6) (a : BitVec 6) (t : BitVec 2) (m : BitVec 3) : Laws.WordFits.Statement (.vredsum d a t m) :=
  fun _ h => Laws.word4_lt (by decide) h
theorem Laws.WordFits.vredmax (d : BitVec 6) (a : BitVec 6) (t : BitVec 2) (m : BitVec 3) : Laws.WordFits.Statement (.vredmax d a t m) :=
  fun _ h => Laws.word4_lt (by decide) h
theorem Laws.WordFits.vredmin (d : BitVec 6) (a : BitVec 6) (t : BitVec 2) (m : BitVec 3) : Laws.WordFits.Statement (.vredmin d a t m) :=
  fun _ h => Laws.word4_lt (by decide) h
theorem Laws.WordFits.vrediadd (d : BitVec 6) (a : BitVec 6) (t : BitVec 2) (m : BitVec 3) : Laws.WordFits.Statement (.vrediadd d a t m) :=
  fun _ h => Laws.word4_lt (by decide) h
theorem Laws.WordFits.vinterl (d : BitVec 6) (a : BitVec 6) (b : BitVec 6) (m : BitVec 3) : Laws.WordFits.Statement (.vinterl d a b m) :=
  fun _ h => Laws.word4_lt (by decide) h
theorem Laws.WordFits.vdeint (d : BitVec 6) (a : BitVec 6) (m : BitVec 3) : Laws.WordFits.Statement (.vdeint d a m) :=
  fun _ h => Laws.word3_lt (by decide) h
theorem Laws.WordFits.mand (d : BitVec 3) (a : BitVec 3) (b : BitVec 3) : Laws.WordFits.Statement (.mand d a b) :=
  fun _ h => Laws.word3_lt (by decide) h
theorem Laws.WordFits.mor (d : BitVec 3) (a : BitVec 3) (b : BitVec 3) : Laws.WordFits.Statement (.mor d a b) :=
  fun _ h => Laws.word3_lt (by decide) h
theorem Laws.WordFits.mxor (d : BitVec 3) (a : BitVec 3) (b : BitVec 3) : Laws.WordFits.Statement (.mxor d a b) :=
  fun _ h => Laws.word3_lt (by decide) h
theorem Laws.WordFits.mandn (d : BitVec 3) (a : BitVec 3) (b : BitVec 3) : Laws.WordFits.Statement (.mandn d a b) :=
  fun _ h => Laws.word3_lt (by decide) h
theorem Laws.WordFits.mnot (d : BitVec 3) (a : BitVec 3) : Laws.WordFits.Statement (.mnot d a) :=
  fun _ h => Laws.word2_lt (by decide) h
theorem Laws.WordFits.mlow (d : BitVec 3) (a : BitVec 3) : Laws.WordFits.Statement (.mlow d a) :=
  fun _ h => Laws.word2_lt (by decide) h
theorem Laws.WordFits.mbelow (d : BitVec 3) (a : BitVec 3) : Laws.WordFits.Statement (.mbelow d a) :=
  fun _ h => Laws.word2_lt (by decide) h
theorem Laws.WordFits.vtbl (d : BitVec 6) (a : BitVec 6) (t : BitVec 2) (k : BitVec 2) (m : BitVec 3) : Laws.WordFits.Statement (.vtbl d a t k m) :=
  fun _ h => Laws.word5_lt (by decide) h
theorem Laws.WordFits.vnar (d : BitVec 6) (a : BitVec 6) (s : BitVec 3) (k : BitVec 2) (c : BitVec 4) : Laws.WordFits.Statement (.vnar d a s k c) :=
  fun _ h => Laws.word5_lt (by decide) h
theorem Laws.WordFits.vnars (d : BitVec 6) (a : BitVec 6) (s : BitVec 3) (k : BitVec 2) (c : BitVec 4) : Laws.WordFits.Statement (.vnars d a s k c) :=
  fun _ h => Laws.word5_lt (by decide) h
theorem Laws.WordFits.vwid (d : BitVec 6) (a : BitVec 6) (s : BitVec 3) (k : BitVec 2) (c : BitVec 4) : Laws.WordFits.Statement (.vwid d a s k c) :=
  fun _ h => Laws.word5_lt (by decide) h
theorem Laws.WordFits.vwidr (d : BitVec 6) (a : BitVec 6) (c : BitVec 4) : Laws.WordFits.Statement (.vwidr d a c) :=
  fun _ h => Laws.word3_lt (by decide) h
theorem Laws.WordFits.vcvtf (d : BitVec 6) (a : BitVec 6) (c : BitVec 4) : Laws.WordFits.Statement (.vcvtf d a c) :=
  fun _ h => Laws.word3_lt (by decide) h
theorem Laws.WordFits.vcvti (d : BitVec 6) (a : BitVec 6) (c : BitVec 4) : Laws.WordFits.Statement (.vcvti d a c) :=
  fun _ h => Laws.word3_lt (by decide) h
theorem Laws.WordFits.vhad (d : BitVec 6) (a : BitVec 6) (s : BitVec 3) (k : BitVec 2) : Laws.WordFits.Statement (.vhad d a s k) :=
  fun _ h => Laws.word4_lt (by decide) h
theorem Laws.WordFits.vhadi (d : BitVec 6) (a : BitVec 6) (s : BitVec 3) (k : BitVec 2) : Laws.WordFits.Statement (.vhadi d a s k) :=
  fun _ h => Laws.word4_lt (by decide) h
theorem Laws.WordFits.vld (v : BitVec 6) (a : BitVec 5) (b : BitVec 5) (g : BitVec 3) (m : BitVec 3) : Laws.WordFits.Statement (.vld v a b g m) :=
  fun _ h => Laws.word5_lt (by decide) h
theorem Laws.WordFits.vst (v : BitVec 6) (a : BitVec 5) (b : BitVec 5) (g : BitVec 3) (m : BitVec 3) : Laws.WordFits.Statement (.vst v a b g m) :=
  fun _ h => Laws.word5_lt (by decide) h
theorem Laws.WordFits.vlds (v : BitVec 6) (a : BitVec 5) (b : BitVec 5) (g : BitVec 3) (m : BitVec 3) : Laws.WordFits.Statement (.vlds v a b g m) :=
  fun _ h => Laws.word5_lt (by decide) h
theorem Laws.WordFits.vsts (v : BitVec 6) (a : BitVec 5) (b : BitVec 5) (g : BitVec 3) (m : BitVec 3) : Laws.WordFits.Statement (.vsts v a b g m) :=
  fun _ h => Laws.word5_lt (by decide) h
theorem Laws.WordFits.vldf (v : BitVec 6) (a : BitVec 5) (b : BitVec 5) (g : BitVec 3) : Laws.WordFits.Statement (.vldf v a b g) :=
  fun _ h => Laws.word4_lt (by decide) h
theorem Laws.WordFits.vstf (v : BitVec 6) (a : BitVec 5) (k : BitVec 2) (s : BitVec 3) (g : BitVec 3) : Laws.WordFits.Statement (.vstf v a k s g) :=
  fun _ h => Laws.word5_lt (by decide) h
theorem Laws.WordFits.vldb (v : BitVec 6) (a : BitVec 5) (b : BitVec 5) (g : BitVec 3) (m : BitVec 3) : Laws.WordFits.Statement (.vldb v a b g m) :=
  fun _ h => Laws.word5_lt (by decide) h
theorem Laws.WordFits.vldm (v : BitVec 3) (a : BitVec 5) (b : BitVec 5) (g : BitVec 3) : Laws.WordFits.Statement (.vldm v a b g) :=
  fun _ h => Laws.word4_lt (by decide) h
theorem Laws.WordFits.vstm (v : BitVec 3) (a : BitVec 5) (b : BitVec 5) (g : BitVec 3) : Laws.WordFits.Statement (.vstm v a b g) :=
  fun _ h => Laws.word4_lt (by decide) h
theorem Laws.WordFits.vldx (v : BitVec 6) (a : BitVec 5) (i : BitVec 6) (g : BitVec 3) (m : BitVec 3) : Laws.WordFits.Statement (.vldx v a i g m) :=
  fun _ h => Laws.word5_lt (by decide) h
theorem Laws.WordFits.vstx (v : BitVec 6) (a : BitVec 5) (i : BitVec 6) (g : BitVec 3) (m : BitVec 3) : Laws.WordFits.Statement (.vstx v a i g m) :=
  fun _ h => Laws.word5_lt (by decide) h
theorem Laws.WordFits.vstxa (v : BitVec 6) (a : BitVec 5) (i : BitVec 6) (g : BitVec 3) (m : BitVec 3) : Laws.WordFits.Statement (.vstxa v a i g m) :=
  fun _ h => Laws.word5_lt (by decide) h
theorem Laws.WordFits.vmovs (d : BitVec 5) (a : BitVec 6) (b : BitVec 5) : Laws.WordFits.Statement (.vmovs d a b) :=
  fun _ h => Laws.word3_lt (by decide) h
theorem Laws.WordFits.vmovv (v : BitVec 6) (a : BitVec 5) (b : BitVec 5) : Laws.WordFits.Statement (.vmovv v a b) :=
  fun _ h => Laws.word3_lt (by decide) h
theorem Laws.WordFits.vsetl (d : BitVec 3) (a : BitVec 5) : Laws.WordFits.Statement (.vsetl d a) :=
  fun _ h => Laws.word2_lt (by decide) h
theorem Laws.WordFits.vloop (n : BitVec 6) (a : BitVec 5) (s : BitVec 6) : Laws.WordFits.Statement (.vloop n a s) :=
  fun _ h => Laws.word3_lt (by decide) h
theorem Laws.WordFits.vbind (d : BitVec 5) : Laws.WordFits.Statement (.vbind d) := fun _ h => Laws.word1_lt (by decide) h
theorem Laws.WordFits.vfree : Laws.WordFits.Statement (.vfree) := fun _ h => Laws.word0_lt (by decide) h
theorem Laws.WordFits.vtype (c : BitVec 2) : Laws.WordFits.Statement (.vtype c) := fun _ h => Laws.word1_lt (by decide) h
theorem Laws.WordFits.gang : Laws.WordFits.Statement (.gang) := fun _ h => Laws.word0_lt (by decide) h
theorem Laws.WordFits.ungang : Laws.WordFits.Statement (.ungang) := fun _ h => Laws.word0_lt (by decide) h
theorem Laws.WordFits.vwait : Laws.WordFits.Statement (.vwait) := fun _ h => Laws.word0_lt (by decide) h
theorem Laws.WordFits.vzero (v : BitVec 6) (m : BitVec 3) : Laws.WordFits.Statement (.vzero v m) :=
  fun _ h => Laws.word2_lt (by decide) h
theorem Laws.WordFits.vpopm (d : BitVec 5) (a : BitVec 3) : Laws.WordFits.Statement (.vpopm d a) :=
  fun _ h => Laws.word2_lt (by decide) h
theorem Laws.WordFits.vmmovs (d : BitVec 5) (a : BitVec 3) (h : BitVec 1) : Laws.WordFits.Statement (.vmmovs d a h) :=
  fun _ h => Laws.word3_lt (by decide) h
theorem Laws.WordFits.vsmovm (d : BitVec 3) (a : BitVec 5) (h : BitVec 1) : Laws.WordFits.Statement (.vsmovm d a h) :=
  fun _ h => Laws.word3_lt (by decide) h
theorem Laws.WordFits.sequencerEntryPerform (slot : Nat) : Laws.WordFits.Statement (.sequencerEntryPerform slot) :=
  fun _ h => nomatch h
theorem Laws.WordFits.mset (r : BitVec 5) (a : BitVec 5) : Laws.WordFits.Statement (.mset r a) :=
  fun _ h => Laws.word2_lt (by decide) h
theorem Laws.WordFits.msetMout (g : BitVec 3) (a : BitVec 5) (b : BitVec 5) : Laws.WordFits.Statement (.msetMout g a b) :=
  fun _ h => Laws.word3_lt (by decide) h
theorem Laws.WordFits.mget (r : BitVec 5) (a : BitVec 5) : Laws.WordFits.Statement (.mget r a) :=
  fun _ h => Laws.word2_lt (by decide) h
theorem Laws.WordFits.mma (o : BitVec 1) (c : BitVec 1) (t : BitVec 1) : Laws.WordFits.Statement (.mma o c t) :=
  fun _ h => Laws.word3_lt (by decide) h
theorem Laws.WordFits.mmas (o : BitVec 1) (c : BitVec 1) (t : BitVec 1) : Laws.WordFits.Statement (.mmas o c t) :=
  fun _ h => Laws.word3_lt (by decide) h
theorem Laws.WordFits.mmr (o : BitVec 1) (c : BitVec 1) (t : BitVec 1) : Laws.WordFits.Statement (.mmr o c t) :=
  fun _ h => Laws.word3_lt (by decide) h
theorem Laws.WordFits.mzero (t : BitVec 1) : Laws.WordFits.Statement (.mzero t) := fun _ h => Laws.word1_lt (by decide) h
theorem Laws.WordFits.matrixStart (core : Nat) : Laws.WordFits.Statement (.matrixStart core) := fun _ h => nomatch h
theorem Laws.WordFits.matrixComplete (core : Nat) : Laws.WordFits.Statement (.matrixComplete core) := fun _ h => nomatch h
theorem Laws.WordFits.mmrNeighbourPush (core : Nat) (north : Bool) : Laws.WordFits.Statement (.mmrNeighbourPush core north) :=
  fun _ h => nomatch h
theorem Laws.WordFits.glset (n : BitVec 3) (g : BitVec 3) (a : BitVec 5) (b : BitVec 5) : Laws.WordFits.Statement (.glset n g a b) :=
  fun _ h => Laws.word4_lt (by decide) h
theorem Laws.WordFits.glget (n : BitVec 3) (w : BitVec 2) (a : BitVec 5) : Laws.WordFits.Statement (.glget n w a) :=
  fun _ h => Laws.word3_lt (by decide) h
theorem Laws.WordFits.glpushv (n : BitVec 3) (v : BitVec 6) : Laws.WordFits.Statement (.glpushv n v) :=
  fun _ h => Laws.word2_lt (by decide) h
theorem Laws.WordFits.glpopd (n : BitVec 3) (a : BitVec 5) : Laws.WordFits.Statement (.glpopd n a) :=
  fun _ h => Laws.word2_lt (by decide) h
theorem Laws.WordFits.glhead (n : BitVec 3) (a : BitVec 5) : Laws.WordFits.Statement (.glhead n a) :=
  fun _ h => Laws.word2_lt (by decide) h
theorem Laws.WordFits.gltagRead (n : BitVec 3) (a : BitVec 5) : Laws.WordFits.Statement (.gltagRead n a) :=
  fun _ h => Laws.word2_lt (by decide) h
theorem Laws.WordFits.gltagWrite (n : BitVec 3) (a : BitVec 5) : Laws.WordFits.Statement (.gltagWrite n a) :=
  fun _ h => Laws.word2_lt (by decide) h
theorem Laws.WordFits.glflush (n : BitVec 3) : Laws.WordFits.Statement (.glflush n) := fun _ h => Laws.word1_lt (by decide) h
theorem Laws.WordFits.galleySpaceFreed (core : Nat) (galley : Nat) : Laws.WordFits.Statement (.galleySpaceFreed core galley) :=
  fun _ h => nomatch h
theorem Laws.WordFits.cpset (r : BitVec 5) (a : BitVec 5) : Laws.WordFits.Statement (.cpset r a) :=
  fun _ h => Laws.word2_lt (by decide) h
theorem Laws.WordFits.cpsetEndpoint (r : BitVec 1) (g : BitVec 3) (a : BitVec 5) (b : BitVec 5) : Laws.WordFits.Statement (.cpsetEndpoint r g a b) :=
  fun _ h => Laws.word4_lt (by decide) h
theorem Laws.WordFits.cpget (r : BitVec 5) (a : BitVec 5) : Laws.WordFits.Statement (.cpget r a) :=
  fun _ h => Laws.word2_lt (by decide) h
theorem Laws.WordFits.cplaunch (a : BitVec 5) : Laws.WordFits.Statement (.cplaunch a) := fun _ h => Laws.word1_lt (by decide) h
theorem Laws.WordFits.cpwp (a : BitVec 5) (b : BitVec 5) : Laws.WordFits.Statement (.cpwp a b) :=
  fun _ h => Laws.word2_lt (by decide) h
theorem Laws.WordFits.cpstat (a : BitVec 5) (b : BitVec 5) : Laws.WordFits.Statement (.cpstat a b) :=
  fun _ h => Laws.word2_lt (by decide) h
theorem Laws.WordFits.cpcancel (a : BitVec 5) (b : BitVec 5) : Laws.WordFits.Statement (.cpcancel a b) :=
  fun _ h => Laws.word2_lt (by decide) h
theorem Laws.WordFits.cpwaitid (a : BitVec 5) : Laws.WordFits.Statement (.cpwaitid a) := fun _ h => Laws.word1_lt (by decide) h
theorem Laws.WordFits.copyWrite (cluster : Nat) (ch : Nat) : Laws.WordFits.Statement (.copyWrite cluster ch) :=
  fun _ h => nomatch h
theorem Laws.WordFits.copyTransferEnd (cluster : Nat) (ch : Nat) : Laws.WordFits.Statement (.copyTransferEnd cluster ch) :=
  fun _ h => nomatch h
theorem Laws.WordFits.completionInterrupt (slot : Nat) : Laws.WordFits.Statement (.completionInterrupt slot) :=
  fun _ h => nomatch h
theorem Laws.WordFits.tbload (k : BitVec 2) (g : BitVec 3) (a : BitVec 5) (b : BitVec 5) : Laws.WordFits.Statement (.tbload k g a b) :=
  fun _ h => Laws.word4_lt (by decide) h
theorem Laws.WordFits.tbinfo (k : BitVec 2) (a : BitVec 5) : Laws.WordFits.Statement (.tbinfo k a) :=
  fun _ h => Laws.word2_lt (by decide) h
theorem Laws.WordFits.treg (g : BitVec 3) (a : BitVec 5) (b : BitVec 5) : Laws.WordFits.Statement (.treg g a b) :=
  fun _ h => Laws.word3_lt (by decide) h
theorem Laws.WordFits.tfree (a : BitVec 5) : Laws.WordFits.Statement (.tfree a) := fun _ h => Laws.word1_lt (by decide) h
theorem Laws.WordFits.tacqr (w : BitVec 1) (a : BitVec 5) (b : BitVec 5) : Laws.WordFits.Statement (.tacqr w a b) :=
  fun _ h => Laws.word3_lt (by decide) h
theorem Laws.WordFits.tacqw (w : BitVec 1) (a : BitVec 5) : Laws.WordFits.Statement (.tacqw w a) :=
  fun _ h => Laws.word2_lt (by decide) h
theorem Laws.WordFits.trel (a : BitVec 5) : Laws.WordFits.Statement (.trel a) := fun _ h => Laws.word1_lt (by decide) h
theorem Laws.WordFits.tabnd (a : BitVec 5) : Laws.WordFits.Statement (.tabnd a) := fun _ h => Laws.word1_lt (by decide) h
theorem Laws.WordFits.tsplit (a : BitVec 5) (b : BitVec 5) : Laws.WordFits.Statement (.tsplit a b) :=
  fun _ h => Laws.word2_lt (by decide) h
theorem Laws.WordFits.tjoin (a : BitVec 5) : Laws.WordFits.Statement (.tjoin a) := fun _ h => Laws.word1_lt (by decide) h
theorem Laws.WordFits.trecl (a : BitVec 5) (b : BitVec 5) : Laws.WordFits.Statement (.trecl a b) :=
  fun _ h => Laws.word2_lt (by decide) h
theorem Laws.WordFits.tstat (a : BitVec 5) (b : BitVec 5) : Laws.WordFits.Statement (.tstat a b) :=
  fun _ h => Laws.word2_lt (by decide) h
theorem Laws.WordFits.tver (a : BitVec 5) : Laws.WordFits.Statement (.tver a) := fun _ h => Laws.word1_lt (by decide) h
theorem Laws.WordFits.tstv (v : BitVec 5) (g : BitVec 3) (a : BitVec 5) (b : BitVec 5) : Laws.WordFits.Statement (.tstv v g a b) :=
  fun _ h => Laws.word4_lt (by decide) h
theorem Laws.WordFits.tldv (v : BitVec 5) (g : BitVec 3) (a : BitVec 5) (b : BitVec 5) : Laws.WordFits.Statement (.tldv v g a b) :=
  fun _ h => Laws.word4_lt (by decide) h
theorem Laws.WordFits.tokenForward (part : Nat) (tile : Nat) (src : Nat) (dst : Nat) : Laws.WordFits.Statement (.tokenForward part tile src dst) :=
  fun _ h => nomatch h
theorem Laws.WordFits.persistentRequest (part : Nat) (tile : Nat) (cluster : Nat) : Laws.WordFits.Statement (.persistentRequest part tile cluster) :=
  fun _ h => nomatch h
theorem Laws.WordFits.frameSlotFreed (part : Nat) (tile : Nat) : Laws.WordFits.Statement (.frameSlotFreed part tile) :=
  fun _ h => nomatch h
theorem Laws.WordFits.tspawn (g : BitVec 3) (a : BitVec 5) (b : BitVec 5) : Laws.WordFits.Statement (.tspawn g a b) :=
  fun _ h => Laws.word3_lt (by decide) h
theorem Laws.WordFits.texit : Laws.WordFits.Statement (.texit) := fun _ h => Laws.word0_lt (by decide) h
theorem Laws.WordFits.msend (k : BitVec 1) (a : BitVec 5) (b : BitVec 5) : Laws.WordFits.Statement (.msend k a b) :=
  fun _ h => Laws.word3_lt (by decide) h
theorem Laws.WordFits.cntset (a : BitVec 5) (b : BitVec 5) : Laws.WordFits.Statement (.cntset a b) :=
  fun _ h => Laws.word2_lt (by decide) h
theorem Laws.WordFits.cntget (a : BitVec 5) (b : BitVec 5) : Laws.WordFits.Statement (.cntget a b) :=
  fun _ h => Laws.word2_lt (by decide) h
theorem Laws.WordFits.cntgetIn (a : BitVec 5) : Laws.WordFits.Statement (.cntgetIn a) := fun _ h => Laws.word1_lt (by decide) h
theorem Laws.WordFits.barr : Laws.WordFits.Statement (.barr) := fun _ h => Laws.word0_lt (by decide) h
theorem Laws.WordFits.sqend (a : BitVec 5) : Laws.WordFits.Statement (.sqend a) := fun _ h => Laws.word1_lt (by decide) h
theorem Laws.WordFits.gwq (a : BitVec 5) (b : BitVec 5) : Laws.WordFits.Statement (.gwq a b) :=
  fun _ h => Laws.word2_lt (by decide) h
theorem Laws.WordFits.barq (a : BitVec 5) (b : BitVec 5) : Laws.WordFits.Statement (.barq a b) :=
  fun _ h => Laws.word2_lt (by decide) h
theorem Laws.WordFits.gwsend (a : BitVec 5) (b : BitVec 5) : Laws.WordFits.Statement (.gwsend a b) :=
  fun _ h => Laws.word2_lt (by decide) h
theorem Laws.WordFits.gcall (a : BitVec 5) (b : BitVec 5) : Laws.WordFits.Statement (.gcall a b) :=
  fun _ h => Laws.word2_lt (by decide) h
theorem Laws.WordFits.gret : Laws.WordFits.Statement (.gret) := fun _ h => Laws.word0_lt (by decide) h
theorem Laws.WordFits.gpub (d : BitVec 5) (a : BitVec 5) (k : BitVec 3) : Laws.WordFits.Statement (.gpub d a k) :=
  fun _ h => Laws.word3_lt (by decide) h
theorem Laws.WordFits.gwdr (d : BitVec 5) (a : BitVec 5) : Laws.WordFits.Statement (.gwdr d a) :=
  fun _ h => Laws.word2_lt (by decide) h
theorem Laws.WordFits.gstat (d : BitVec 5) (a : BitVec 5) : Laws.WordFits.Statement (.gstat d a) :=
  fun _ h => Laws.word2_lt (by decide) h
theorem Laws.WordFits.gwin (d : BitVec 5) (a : BitVec 5) (b : BitVec 5) : Laws.WordFits.Statement (.gwin d a b) :=
  fun _ h => Laws.word3_lt (by decide) h
theorem Laws.WordFits.wait (d : BitVec 5) (a : BitVec 5) : Laws.WordFits.Statement (.wait d a) :=
  fun _ h => Laws.word2_lt (by decide) h
theorem Laws.WordFits.yield : Laws.WordFits.Statement (.yield) := fun _ h => Laws.word0_lt (by decide) h
theorem Laws.WordFits.trap (a : BitVec 5) : Laws.WordFits.Statement (.trap a) := fun _ h => Laws.word1_lt (by decide) h
theorem Laws.WordFits.tret : Laws.WordFits.Statement (.tret) := fun _ h => Laws.word0_lt (by decide) h
theorem Laws.WordFits.uiret : Laws.WordFits.Statement (.uiret) := fun _ h => Laws.word0_lt (by decide) h
theorem Laws.WordFits.halt : Laws.WordFits.Statement (.halt) := fun _ h => Laws.word0_lt (by decide) h
theorem Laws.WordFits.flushl (k : BitVec 3) (a : BitVec 5) : Laws.WordFits.Statement (.flushl k a) :=
  fun _ h => Laws.word2_lt (by decide) h
theorem Laws.WordFits.invl (k : BitVec 3) (a : BitVec 5) : Laws.WordFits.Statement (.invl k a) :=
  fun _ h => Laws.word2_lt (by decide) h
theorem Laws.WordFits.pginv (e : BitVec 2) (a : BitVec 5) : Laws.WordFits.Statement (.pginv e a) :=
  fun _ h => Laws.word2_lt (by decide) h
theorem Laws.WordFits.slotgo (d : BitVec 5) (a : BitVec 5) : Laws.WordFits.Statement (.slotgo d a) :=
  fun _ h => Laws.word2_lt (by decide) h
theorem Laws.WordFits.slotkill (d : BitVec 5) (a : BitVec 5) : Laws.WordFits.Statement (.slotkill d a) :=
  fun _ h => Laws.word2_lt (by decide) h
theorem Laws.WordFits.slotrd (d : BitVec 5) (a : BitVec 5) : Laws.WordFits.Statement (.slotrd d a) :=
  fun _ h => Laws.word2_lt (by decide) h
theorem Laws.WordFits.slotwr (d : BitVec 5) (a : BitVec 5) : Laws.WordFits.Statement (.slotwr d a) :=
  fun _ h => Laws.word2_lt (by decide) h
theorem Laws.WordFits.quoin (d : BitVec 5) (a : BitVec 5) : Laws.WordFits.Statement (.quoin d a) :=
  fun _ h => Laws.word2_lt (by decide) h
theorem Laws.WordFits.wrevk (d : BitVec 5) (a : BitVec 5) : Laws.WordFits.Statement (.wrevk d a) :=
  fun _ h => Laws.word2_lt (by decide) h
theorem Laws.WordFits.cxsave (d : BitVec 5) (a : BitVec 5) : Laws.WordFits.Statement (.cxsave d a) :=
  fun _ h => Laws.word2_lt (by decide) h
theorem Laws.WordFits.cxrest (d : BitVec 5) (a : BitVec 5) : Laws.WordFits.Statement (.cxrest d a) :=
  fun _ h => Laws.word2_lt (by decide) h
theorem Laws.WordFits.keyld (d : BitVec 5) (a : BitVec 5) : Laws.WordFits.Statement (.keyld d a) :=
  fun _ h => Laws.word2_lt (by decide) h
theorem Laws.WordFits.evsel (d : BitVec 5) (a : BitVec 5) : Laws.WordFits.Statement (.evsel d a) :=
  fun _ h => Laws.word2_lt (by decide) h
theorem Laws.WordFits.svpost (d : BitVec 5) (a : BitVec 5) : Laws.WordFits.Statement (.svpost d a) :=
  fun _ h => Laws.word2_lt (by decide) h
theorem Laws.WordFits.bankset (d : BitVec 5) (a : BitVec 5) : Laws.WordFits.Statement (.bankset d a) :=
  fun _ h => Laws.word2_lt (by decide) h
theorem Laws.WordFits.bankSwitchPoint (cluster : Nat) (bank : Nat) : Laws.WordFits.Statement (.bankSwitchPoint cluster bank) :=
  fun _ h => nomatch h
theorem Laws.WordFits.cleanupDeadline (slot : Nat) : Laws.WordFits.Statement (.cleanupDeadline slot) := fun _ h => nomatch h
theorem Laws.WordFits.budgetExpiry (slot : Nat) : Laws.WordFits.Statement (.budgetExpiry slot) := fun _ h => nomatch h
theorem Laws.WordFits.revocationPoint (part : Nat) (world : Nat) : Laws.WordFits.Statement (.revocationPoint part world) :=
  fun _ h => nomatch h
theorem Laws.WordFits.revocationDrainDone (part : Nat) (world : Nat) : Laws.WordFits.Statement (.revocationDrainDone part world) :=
  fun _ h => nomatch h
theorem Laws.WordFits.appCoreInterrupt (app : Nat) : Laws.WordFits.Statement (.appCoreInterrupt app) := fun _ h => nomatch h
theorem Laws.WordFits.accept (thread : Nat) : Laws.WordFits.Statement (.accept thread) := fun _ h => nomatch h
theorem Laws.WordFits.advance (ev : Nat) : Laws.WordFits.Statement (.advance ev) := fun _ h => nomatch h
theorem Laws.WordFits.bind (ev : Nat) : Laws.WordFits.Statement (.bind ev) := fun _ h => nomatch h
theorem Laws.WordFits.atomicStep (ev : Nat) : Laws.WordFits.Statement (.atomicStep ev) := fun _ h => nomatch h
theorem Laws.WordFits.fenceStep (thread : Nat) : Laws.WordFits.Statement (.fenceStep thread) := fun _ h => nomatch h
theorem Laws.WordFits.publish (slot : Nat) : Laws.WordFits.Statement (.publish slot) := fun _ h => nomatch h
theorem Laws.WordFits.dequeStart (core : Nat) : Laws.WordFits.Statement (.dequeStart core) := fun _ h => nomatch h
theorem Laws.WordFits.stealVisit (core : Nat) : Laws.WordFits.Statement (.stealVisit core) := fun _ h => nomatch h
theorem Laws.WordFits.gangPlace (part : Nat) : Laws.WordFits.Statement (.gangPlace part) := fun _ h => nomatch h
theorem Laws.WordFits.gangStart (cluster : Nat) : Laws.WordFits.Statement (.gangStart cluster) := fun _ h => nomatch h
theorem Laws.WordFits.inboxDeliver (core : Nat) : Laws.WordFits.Statement (.inboxDeliver core) := fun _ h => nomatch h
theorem Laws.WordFits.inboxHoldExpiry (core : Nat) : Laws.WordFits.Statement (.inboxHoldExpiry core) := fun _ h => nomatch h
theorem Laws.WordFits.gvtSample (part : Nat) : Laws.WordFits.Statement (.gvtSample part) := fun _ h => nomatch h
theorem Laws.WordFits.gvtPublish (part : Nat) : Laws.WordFits.Statement (.gvtPublish part) := fun _ h => nomatch h
theorem Laws.WordFits.launchFetch (iface : Nat) : Laws.WordFits.Statement (.launchFetch iface) := fun _ h => nomatch h
theorem Laws.WordFits.launchEligible (launch : Nat) : Laws.WordFits.Statement (.launchEligible launch) := fun _ h => nomatch h
theorem Laws.WordFits.colophonWrite (launch : Nat) : Laws.WordFits.Statement (.colophonWrite launch) := fun _ h => nomatch h
theorem Laws.WordFits.faultRecordPost (thread : Nat) : Laws.WordFits.Statement (.faultRecordPost thread) := fun _ h => nomatch h
theorem Laws.WordFits.walkComplete (cluster : Nat) (pva : Nat) : Laws.WordFits.Statement (.walkComplete cluster pva) :=
  fun _ h => nomatch h
theorem Laws.WordFits.wakePort (word : BitVec 64) : Laws.WordFits.Statement (.wakePort word) := fun _ h => nomatch h
theorem Laws.WordFits.accessCounterHalve : Laws.WordFits.Statement (.accessCounterHalve) := fun _ h => nomatch h
theorem Laws.WordFits.tierDemote (part : Nat) (tier : Nat) : Laws.WordFits.Statement (.tierDemote part tier) :=
  fun _ h => nomatch h
theorem Laws.WordFits.tierPromote (part : Nat) (gpaFrame : Nat) : Laws.WordFits.Statement (.tierPromote part gpaFrame) :=
  fun _ h => nomatch h
theorem Laws.WordFits.flipToHost (word : BitVec 64) : Laws.WordFits.Statement (.flipToHost word) := fun _ h => nomatch h
theorem Laws.WordFits.flipToDevice (word : BitVec 64) : Laws.WordFits.Statement (.flipToDevice word) := fun _ h => nomatch h
theorem Laws.WordFits.hostAccess (write : Bool) (dpa : Nat) (len : Nat) (data : List (BitVec 8)) : Laws.WordFits.Statement (.hostAccess write dpa len data) :=
  fun _ h => nomatch h
theorem Laws.WordFits.submit (iface : Nat) : Laws.WordFits.Statement (.submit iface) := fun _ h => nomatch h
theorem Laws.WordFits.cancel (iface : Nat) : Laws.WordFits.Statement (.cancel iface) := fun _ h => nomatch h
theorem Laws.WordFits.partitionCreate (word : BitVec 64) (descriptor : BitVec 64) : Laws.WordFits.Statement (.partitionCreate word descriptor) :=
  fun _ h => nomatch h
theorem Laws.WordFits.partitionTeardown (word : BitVec 64) : Laws.WordFits.Statement (.partitionTeardown word) :=
  fun _ h => nomatch h
theorem Laws.WordFits.claimSupervisor (word : BitVec 64) : Laws.WordFits.Statement (.claimSupervisor word) :=
  fun _ h => nomatch h
theorem Laws.WordFits.claimHost (word : BitVec 64) : Laws.WordFits.Statement (.claimHost word) := fun _ h => nomatch h
theorem Laws.WordFits.claimRelease (word : BitVec 64) : Laws.WordFits.Statement (.claimRelease word) := fun _ h => nomatch h
theorem Laws.WordFits.claimEscalate (word : BitVec 64) : Laws.WordFits.Statement (.claimEscalate word) := fun _ h => nomatch h
theorem Laws.WordFits.eventDelivery (source : Nat) : Laws.WordFits.Statement (.eventDelivery source) := fun _ h => nomatch h
theorem Laws.WordFits.admissionWrite (word : BitVec 64) : Laws.WordFits.Statement (.admissionWrite word) := fun _ h => nomatch h
theorem Laws.WordFits.scrub (word : BitVec 64) : Laws.WordFits.Statement (.scrub word) := fun _ h => nomatch h
theorem Laws.WordFits.seal (word : BitVec 64) : Laws.WordFits.Statement (.seal word) := fun _ h => nomatch h
theorem Laws.WordFits.openPage (word : BitVec 64) : Laws.WordFits.Statement (.openPage word) := fun _ h => nomatch h
theorem Laws.WordFits.pageKeyInvalidOp (word : BitVec 64) : Laws.WordFits.Statement (.pageKeyInvalidOp word) :=
  fun _ h => nomatch h
theorem Laws.WordFits.sessionOpen (nonce : List (BitVec 8)) (reportDpa : Nat) (part : Nat) : Laws.WordFits.Statement (.sessionOpen nonce reportDpa part) :=
  fun _ h => nomatch h
theorem Laws.WordFits.sessionComplete (sid : Nat) (hostKey : List (BitVec 8)) (period : Nat) (grace : Option Nat) : Laws.WordFits.Statement (.sessionComplete sid hostKey period grace) :=
  fun _ h => nomatch h
theorem Laws.WordFits.heartbeat (word0 : BitVec 64) (word1 : BitVec 64) : Laws.WordFits.Statement (.heartbeat word0 word1) :=
  fun _ h => nomatch h
theorem Laws.WordFits.sessionDeadline (sid : Nat) : Laws.WordFits.Statement (.sessionDeadline sid) := fun _ h => nomatch h
theorem Laws.WordFits.sessionGraceEnd (sid : Nat) : Laws.WordFits.Statement (.sessionGraceEnd sid) := fun _ h => nomatch h
theorem Laws.WordFits.flitRetransmit (port : Nat) : Laws.WordFits.Statement (.flitRetransmit port) := fun _ h => nomatch h
theorem Laws.WordFits.portDown (port : Nat) : Laws.WordFits.Statement (.portDown port) := fun _ h => nomatch h
theorem Laws.WordFits.linkRetrain (port : Nat) : Laws.WordFits.Statement (.linkRetrain port) := fun _ h => nomatch h
theorem Laws.WordFits.remoteMessageArrival (part : Nat) (name : BitVec 64) (cluster : Nat) (core : Nat) (stamp : Nat) (payload : List (BitVec 64)) : Laws.WordFits.Statement (.remoteMessageArrival part name cluster core stamp payload) :=
  fun _ h => nomatch h
theorem Laws.WordFits.reductionBlockArrival (port : Nat) (block : List (BitVec 8)) : Laws.WordFits.Statement (.reductionBlockArrival port block) :=
  fun _ h => nomatch h
theorem Laws.WordFits.deviceFault (kind : Nat) (number : Nat) : Laws.WordFits.Statement (.deviceFault kind number) :=
  fun _ h => nomatch h
theorem Laws.WordFits.thresholdCrossing (power : Nat) (temp : Nat) : Laws.WordFits.Statement (.thresholdCrossing power temp) :=
  fun _ h => nomatch h
theorem Laws.WordFits.thermalThrottle (power : Nat) (temp : Nat) : Laws.WordFits.Statement (.thermalThrottle power temp) :=
  fun _ h => nomatch h
theorem Laws.WordFits.voltageDroop (cluster : Nat) : Laws.WordFits.Statement (.voltageDroop cluster) := fun _ h => nomatch h
theorem Laws.WordFits.moduleReset : Laws.WordFits.Statement (.moduleReset) := fun _ h => nomatch h
theorem Laws.WordFits.powerOff : Laws.WordFits.Statement (.powerOff) := fun _ h => nomatch h
theorem Laws.WordFits.counterWindowSelect (offset : Nat) (word : BitVec 64) : Laws.WordFits.Statement (.counterWindowSelect offset word) :=
  fun _ h => nomatch h
theorem Laws.WordFits.registerWrite (offset : Nat) (word : BitVec 64) : Laws.WordFits.Statement (.registerWrite offset word) :=
  fun _ h => nomatch h
theorem Laws.WordFits.waitTimerExpiry (slot : Nat) : Laws.WordFits.Statement (.waitTimerExpiry slot) := fun _ h => nomatch h
theorem Laws.WordFits.softError (line : Nat) (corrected : Bool) : Laws.WordFits.Statement (.softError line corrected) :=
  fun _ h => nomatch h
theorem Laws.WordFits.peerMemoryAccess (part : Nat) (write : Bool) (dpa : Nat) (len : Nat) (data : List (BitVec 8)) : Laws.WordFits.Statement (.peerMemoryAccess part write dpa len data) :=
  fun _ h => nomatch h
theorem Laws.WordFits.cxlCacheSnoop (write : Bool) (hpa : Nat) (len : Nat) (data : List (BitVec 8)) : Laws.WordFits.Statement (.cxlCacheSnoop write hpa len data) :=
  fun _ h => nomatch h
theorem Laws.WordFits.voltageRecovery (cluster : Nat) : Laws.WordFits.Statement (.voltageRecovery cluster) :=
  fun _ h => nomatch h

end Sys2Proof
end

