-- ==== Sys2Proof/Laws/Scalar.lean ====
section
/-! SUPPORT. What retiring and writing a register do: the laws of the instructions whose whole effect is one register. -/

namespace Sys2Proof.Machine

open Sys2Proof.Safety

@[simp] theorem pc_modScOf (s : State) (f : ScalarSt → ScalarSt) : pc (modScOf s s.cur f) = (f (scOf s s.cur)).pc := by
  simp [pc, pcOf]

@[simp] theorem tl_modScOf (s : State) (ag : Agent) (f : ScalarSt → ScalarSt) : tl (modScOf s ag f) = tl s := by
  simp [tl, tlOf]

/-- A change of the scalar state of the executor shows in the registers. -/
theorem rd_modScOf (s : State) (f : ScalarSt → ScalarSt) (r : BitVec 5) :
    rd (modScOf s s.cur f) r = if r = 0 then 0 else (f (scOf s s.cur)).s[r.toNat]'(r.isLt) := by
  simp [rd, regOf]

/-- What retiring leaves of the scalar state: all but the loop counters and the PC. -/
theorem retireSc_frame (n : Nat) (x : ScalarSt) :
    retireSc n x = { x with pc := (retireSc n x).pc, lc0 := (retireSc n x).lc0, lc1 := (retireSc n x).lc1 } := by
  unfold retireSc
  split
  · rfl
  · split
    · dsimp only
      split <;> rfl
    · dsimp only
      split <;> rfl

@[simp] theorem retireSc_s (n : Nat) (x : ScalarSt) : (retireSc n x).s = x.s := by rw [retireSc_frame]
@[simp] theorem retireSc_g (n : Nat) (x : ScalarSt) : (retireSc n x).g = x.g := by rw [retireSc_frame]

theorem loopStep_idle {l : Loop} {p : Word} (h : ¬ (l.active = true ∧ l.stop = p)) : loopStep l p = (l, none) := by
  unfold loopStep
  rw [if_neg]
  simpa using h

/-- Retiring where no loop ends: the PC goes to the next word. -/
theorem retireSc_next {n : Nat} {x : ScalarSt}
    (h : n ≠ 0 ∨ (¬ (x.lc0.active = true ∧ x.lc0.stop = x.pc) ∧ ¬ (x.lc1.active = true ∧ x.lc1.stop = x.pc))) :
    retireSc n x = { x with pc := x.pc + 4 } := by
  unfold retireSc
  rcases h with h | ⟨h0, h1⟩
  · rw [if_pos h]
  · split
    · rfl
    · simp only [loopStep_idle h0, loopStep_idle h1]
      split <;> rfl

/-- Where no loop ends at the PC of the executor, retiring goes to the next word. -/
theorem retire_next {s : State} (h : ¬ AtLoopEnd s) : retireSc (tl s) (scOf s s.cur) =
    { scOf s s.cur with pc := (scOf s s.cur).pc + 4 } := by
  apply retireSc_next
  by_cases ht : tl s = 0
  · right
    exact ⟨fun h0 => h ⟨ht, .inl h0⟩, fun h1 => h ⟨ht, .inr h1⟩⟩
  · exact .inl ht

/-- The scalar state after a register is written and the instruction retires. -/
theorem writeRetire_eq (s : State) (d : BitVec 5) (v : Word) : ∃ x : ScalarSt,
    writeRetire s d v = modScOf s s.cur (fun _ => retireSc (tl s) x) ∧
    x = { scOf s s.cur with s := x.s } ∧
    (∀ r : BitVec 5, r ≠ 0 → x.s[r.toNat]'(r.isLt) = if r = d then v else (scOf s s.cur).s[r.toNat]'(r.isLt)) := by
  unfold writeRetire retire retireOf wr setRegOf
  by_cases hd : d = 0
  · subst hd
    refine ⟨scOf s s.cur, ?_, rfl, ?_⟩
    · simp only [if_true]
      cases hc : s.cur <;> simp [modScOf, modSlot, modApp, hc, scOf, tl]
    · intro r hr; rw [if_neg hr]
  · rw [if_neg hd]
    refine ⟨{ scOf s s.cur with s := (scOf s s.cur).s.set d.toNat v d.isLt }, ?_, rfl, ?_⟩
    · simp only [modScOf_cur, modScOf_modScOf]
      cases hc : s.cur <;> simp [modScOf, modSlot, modApp, hc, scOf, tl, tlOf, trOf]
    · intro r hr
      simp only [Vector.getElem_set]
      by_cases h : r = d
      · subst h; simp
      · have : d.toNat ≠ r.toNat := fun e => h (BitVec.eq_of_toNat_eq e.symm)
        simp [h, this]

/-- The law of an instruction whose whole effect is one register. -/
theorem setReg_wrote (s : State) (d : BitVec 5) (v : Word) : ∃ t, setReg s d v = .next t ∧ Wrote s t d v := by
  obtain ⟨x, he, hx, hr⟩ := writeRetire_eq s d v
  refine ⟨writeRetire s d v, rfl, ⟨⟨?_, retireSc (tl s) x, he, ?_⟩, ?_, ?_⟩⟩
  · intro a; rw [he]; simp
  · rw [retireSc_frame, hx]
  · intro r
    rw [he, rd_modScOf]
    by_cases h0 : r = 0
    · subst h0; simp [rd, regOf]
    · simp only [h0, if_false, retireSc_s, ne_eq, not_false_eq_true, and_true]
      rw [hr r h0, rd, regOf, if_neg h0]
  · intro hl
    have hx' : x.pc = (scOf s s.cur).pc ∧ x.lc0 = (scOf s s.cur).lc0 ∧ x.lc1 = (scOf s s.cur).lc1 := by
      rw [hx]; exact ⟨rfl, rfl, rfl⟩
    have hn : retireSc (tl s) x = { x with pc := x.pc + 4 } := by
      apply retireSc_next
      by_cases ht : tl s = 0
      · right
        rw [hx'.1, hx'.2.1, hx'.2.2]
        exact ⟨fun h => hl ⟨ht, .inl h⟩, fun h => hl ⟨ht, .inr h⟩⟩
      · exact .inl ht
    rw [he, hn]
    refine ⟨?_, ?_⟩
    · simp [hx'.1, pc, pcOf]
    · intro n
      simp [getLoop, hx'.2.1, hx'.2.2]

end Sys2Proof.Machine
end

