-- ==== Sys2Proof/Laws/Sequencer.lean ====
section
/-! SUPPORT. The vector unit's rotation (R38): when a slot's turn has come, and what its step then does. -/

namespace Sys2Proof.Machine

theorem slotKey_coreOfSlot (k : Nat) : slotKey (coreOfSlot k) (slotNo k) = k := by
  simp only [slotKey, coreOfSlot, slotNo]; omega

/-- The first number below n that a test holds for. -/
theorem find_range_first {p : Nat → Bool} (n i : Nat) (hi : i < n) (hp : p i = true) (h : ∀ j < i, p j = false) :
    (List.range n).find? p = some i := by
  rw [List.find?_range_eq_some]
  exact ⟨hp, List.mem_range.mpr hi, fun j hj => by simp [h j hj]⟩

/-- The rotation comes to a slot whose head can be performed once no slot before it has such a head. -/
theorem vecTurn_of_unitTurn (s : State) (k : Nat) (h : Safety.UnitTurn s k) (hp : performHead s k ≠ s) : vecTurn s k = true := by
  obtain ⟨hc, hl⟩ := h
  have hk : slotNo k < 16 := Nat.mod_lt _ (by decide)
  have hn : vecNext s (coreOfSlot k) = some k := by
    have hmod : ((coreAt s (coreOfSlot k)).vecLast + 1 +
        (slotNo k + 15 - (coreAt s (coreOfSlot k)).vecLast % 16) % 16) % 16 = slotNo k := by omega
    have key := congrArg (slotKey (coreOfSlot k)) hmod
    rw [slotKey_coreOfSlot] at key
    unfold vecNext
    rw [List.find?_map, find_range_first 16 ((slotNo k + 15 - (coreAt s (coreOfSlot k)).vecLast % 16) % 16)
      (Nat.mod_lt _ (by decide))
      (by simp only [Function.comp_apply, key]; exact decide_eq_true hp)
      (fun j hj => by simp only [Function.comp_apply, hl j hj]; simp), Option.map_some, key]
  simp [vecTurn, hn, hc]

/-- When it is a slot's turn, its head is performed and the unit has taken its instruction of this clock. -/
theorem sequencerEntryPerform_turn (s : State) (k : Nat) (h : Safety.UnitTurn s k) (hp : performHead s k ≠ s) :
    execSequencerEntryPerform k s =
      .next (modCore (performHead s k) (coreOfSlot k) fun c => { c with vecClock := some s.cycle, vecLast := slotNo k }) := by
  rw [execSequencerEntryPerform, if_pos (vecTurn_of_unitTurn s k h hp)]

/-- While it is not a slot's turn, the unit performs nothing of it. -/
theorem sequencerEntryPerform_waits (s : State) (k : Nat) (h : vecTurn s k = false) :
    execSequencerEntryPerform k s = .next s := by
  rw [execSequencerEntryPerform, if_neg (by simp [h])]

end Sys2Proof.Machine
end

