-- ==== Sys2Proof/Laws/Traps.lean ====
section
/-! SUPPORT. What a run of bytes written or zeroed reads as, how a meaning ends, and what the two trap entries leave in the slot. -/

namespace Sys2Proof.Machine

/-! ### Runs of bytes -/

/-- After a run of bytes is written, its addresses read as the bytes, and every other address as before. -/
theorem memRead_memWriteBytes (l : List Byte) : ∀ {m : List Host.Cell} (a b : Nat), Memory.wf m = true →
    memRead (memWriteBytes m a l) b = if a ≤ b ∧ b < a + l.length then l.getD (b - a) 0 else memRead m b := by
  induction l with
  | nil =>
    intro m a b _
    rw [if_neg (fun h => by have := h.2; simp at this; omega)]
    rfl
  | cons v l ih =>
    intro m a b h
    show memRead (memWriteBytes (memWrite m a v) (a + 1) l) b = _
    rw [ih (a + 1) b (memWrite_wf a v h), memRead_memWrite a b v h]
    by_cases hb : b = a
    · subst hb
      rw [if_neg (by omega), if_pos rfl, if_pos (by simp), Nat.sub_self]
      rfl
    · by_cases hr : a + 1 ≤ b ∧ b < a + 1 + l.length
      · rw [if_pos hr, if_pos (by simp; omega)]
        obtain ⟨n, hn⟩ : ∃ n, b - a = n + 1 := ⟨b - a - 1, by omega⟩
        rw [hn, List.getD_cons_succ]
        congr 1
        omega
      · rw [if_neg hr, if_neg hb, if_neg (by simp; omega)]

theorem memRead_filter (f : Host.Cell → Bool) {m : List Host.Cell} : ∀ {k : Nat}, memWfFrom (some k) m = true → ∀ b,
    memRead (m.filter f) b = if f (b, memRead m b) then memRead m b else unlisted := by
  induction m with
  | nil => intro k _ b; exact (ite_self _).symm
  | cons e rest ih =>
    obtain ⟨c, w⟩ := e
    intro k h b
    simp only [memWfFrom, Bool.and_eq_true, decide_eq_true_eq] at h
    have hr := ih h.2 b
    have hf := filter_wfFrom f h.2
    rw [List.filter_cons]
    by_cases hb : b = c
    · subst hb
      have hm : memRead ((b, w) :: rest) b = w := by simp [memRead]
      rw [hm]
      by_cases hw : f (b, w) = true
      · simp [hw, memRead]
      · simp only [hw]
        exact memRead_below hf (Nat.le_refl _)
    · by_cases hlt : b < c
      · have hm : memRead ((c, w) :: rest) b = unlisted := by simp [memRead, hb, hlt]
        rw [hm, ite_self]
        split
        · simp [memRead, hb, hlt]
        · exact memRead_below hf (by omega)
      · have hm : memRead ((c, w) :: rest) b = memRead rest b := by simp [memRead, hb, hlt]
        rw [hm, ← hr]
        split
        · simp [memRead, hb, hlt]
        · rfl

/-! ### How a meaning ends -/

/-- A meaning that is a run answers a next state, whether the run ends early or not. -/
theorem Run.out_next (r : Run State) : ∃ t, r.out = .next t := by
  cases r with
  | ok t => exact ⟨t, rfl⟩
  | error t => exact ⟨t, rfl⟩

@[simp] theorem Run.out_ok (t : State) : Run.out (.ok t) = .next t := rfl
@[simp] theorem Run.out_error (t : State) : Run.out (.error t) = .next t := rfl

/-! ### The entries -/

@[simp] theorem setSlot_setSlot (s : State) (k : Nat) (x y : SlotSt) : setSlot (setSlot s k x) k y = setSlot s k y := by
  simp [setSlot]
@[simp] theorem setApp_setApp (s : State) (n : Nat) (x y : AppSt) : setApp (setApp s n x) n y = setApp s n y := by
  simp [setApp]

/-- TL1 entry of a slot (R311): cause, PC and value are saved, the level rises, and the PC goes to the handler. -/
theorem tl1Entry_slot (s : State) (k cw : Nat) (v p : Word) : tl1Entry s (.slot k) cw v p = setSlot s k
    { slotAt s k with
      sc := { (slotAt s k).sc with pc := (slotAt s k).tr.thandler }
      tr := { (slotAt s k).tr with tcause1 := w64 cw, tepc1 := p, tval1 := v, tl := 1 } } := by
  simp [tl1Entry, setPcOf, modTrOf, modScOf, modSlot, trOf]

/-- The entry of an application core (R106), with the slots as they were. -/
theorem tl1Entry_app (s : State) (n cw : Nat) (v p : Word) : tl1Entry s (.app n) cw v p = setApp s n
    { appAt s n with
      sc := { (appAt s n).sc with pc := (appAt s n).tr.thandler }
      tr := { (appAt s n).tr with tcause1 := w64 cw, tepc1 := p, tval1 := v, tl := 1 } } := by
  simp [tl1Entry, setPcOf, modTrOf, modScOf, modApp, trOf]

/-- A single user slot at TL0 with a handler, not in a cleanup, enters it (R310). -/
theorem takeTrapOf_handler (s : State) (k cw : Nat) (v p : Word) (hg : (slotAt s k).ganged = false) (hk : slotNo k ≠ 15)
    (hc : inCleanup (slotAt s k) = false) (ht : (slotAt s k).tr.tl = 0) (hh : (slotAt s k).tr.thandler ≠ 0) :
    takeTrapOf s (.slot k) cw v p = tl1Entry s (.slot k) cw v p := by
  have hs : splitPair s k p = s := by simp [splitPair, hg]
  simp only [takeTrapOf, hs, hk, hc, ht]
  simp [show ¬ (slotAt s k).tr.thandler = 0#64 from hh]

/-- At TL1 the trap enters TL2, or waits for a record entry (R312, R314). -/
theorem takeTrapOf_tl1 (s : State) (k cw : Nat) (v p : Word) (hg : (slotAt s k).ganged = false) (hk : slotNo k ≠ 15)
    (hc : inCleanup (slotAt s k) = false) (ht : (slotAt s k).tr.tl = 1) :
    takeTrapOf s (.slot k) cw v p = tl2OrWait s k cw v p := by
  have hs : splitPair s k p = s := by simp [splitPair, hg]
  simp [takeTrapOf, hs, hk, hc, ht]

/-- At TL2 the trap kills the context with a record of kind 1 (R313). -/
theorem takeTrapOf_tl2 (s : State) (k cw : Nat) (v p : Word) (hg : (slotAt s k).ganged = false) (hk : slotNo k ≠ 15)
    (hc : inCleanup (slotAt s k) = false) (ht : (slotAt s k).tr.tl = 2) :
    takeTrapOf s (.slot k) cw v p = killSlot s k 1 (cw % 256) p := by
  have hs : splitPair s k p = s := by simp [splitPair, hg]
  simp [takeTrapOf, hs, hk, hc, ht]

end Sys2Proof.Machine
end

