-- ==== Sys2Proof/Tests/Slice0.lean ====
section
/-! SUPPORT. The model's own tests. Decoding: words written out from R94, R102 and R103. Well-formedness: for each check a term
that it refuses. The small states on which the hypotheses of the statements hold together (theorems wit_…). The expected values
stand in the spec or are worked out from it by hand. -/

set_option Elab.async false
set_option maxRecDepth 100000

namespace Sys2Proof.Tests

open Sys2Proof.Machine Sys2Proof.Safety

/-! ### Decoding -/

theorem test_words_alu_0 : ([0x0636D000, 0x0636D001, 0x0636D002, 0x0636D003, 0x0636D004, 0x0636D005, 0x0636D006, 0x0636D007, 0x0636D008, 0x0636D009].map (decodeTableWord 32)) =
    ([.add 17 22 26, .sub 17 22 26, .and 17 22 26, .or 17 22 26, .xor 17 22 26, .andn 17 22 26, .shl 17 22 26, .shr 17 22 26, .sar 17 22 26, .rol 17 22 26] : List Instr).map some := by decide +kernel

theorem test_words_alu_1 : ([0x0636D00A, 0x0636D00B, 0x0636D00C, 0x0636D00D, 0x0636D00E, 0x0636D00F, 0x0636D010, 0x0636D011, 0x0636D012, 0x0636D013].map (decodeTableWord 32)) =
    ([.min 17 22 26, .max 17 22 26, .minn 17 22 26, .maxn 17 22 26, .slt 17 22 26, .sltn 17 22 26, .seq 17 22 26, .sne 17 22 26, .addw 17 22 26, .subw 17 22 26] : List Instr).map some := by decide +kernel

theorem test_words_immediate_0 : ([0x0A368B5A, 0x0E368B5A, 0x12368B5A, 0x16368B5A, 0x1E20DAD6, 0x22228B5A, 0x26368B5A, 0x2A368B5A, 0x3A20010F, 0x3C110041].map (decodeTableWord 32)) =
    ([.addi 17 22 35674, .andi 17 22 35674, .ori 17 22 35674, .xori 17 22 35674, .movi 17 56022, .lit 17 2 35674, .slti 17 22 35674, .sltni 17 22 35674, .mfsr 17 271, .mtsr 17 65] : List Instr).map some := by decide +kernel

theorem test_words_immediate_1 : ([0x1A36003A, 0x1A36403A, 0x1A36803A, 0x1A36C03A].map (decodeTableWord 32)) =
    ([.shli 17 22 58, .shri 17 22 58, .sari 17 22 58, .roli 17 22 58] : List Instr).map some := by decide +kernel

theorem test_words_muldiv : ([0x2E36D000, 0x2E36D001, 0x2E36D002, 0x2E36D003, 0x2E36D004, 0x2E36D005, 0x2E36D006, 0x2E36D007, 0x2E36D008, 0x2E36D009].map (decodeTableWord 32)) =
    ([.mul 17 22 26, .mulh 17 22 26, .mulhn 17 22 26, .mulw 17 22 26, .div 17 22 26, .divn 17 22 26, .rem 17 22 26, .remn 17 22 26, .divw 17 22 26, .remw 17 22 26] : List Instr).map some := by decide +kernel

theorem test_words_bits_0 : ([0x32360000, 0x32360001, 0x32360002, 0x32360003, 0x32360004, 0x32360005, 0x32360006, 0x32360007, 0x32360008, 0x32360009].map (decodeTableWord 32)) =
    ([.clz 17 22, .ctz 17 22, .popc 17 22, .brev 17 22, .sextb 17 22, .sexth 17 22, .sextw 17 22, .zextb 17 22, .zexth 17 22, .zextw 17 22] : List Instr).map some := by decide +kernel

theorem test_words_bits_1 : ([0x3236D00A, 0x3236D00B].map (decodeTableWord 32)) =
    ([.bfx 17 22 26, .bfi 17 22 26] : List Instr).map some := by decide +kernel

theorem test_words_ptr : ([0x3636D000, 0x3636D001, 0x3636D002, 0x36360003, 0x36360004, 0x36363005].map (decodeTableWord 32)) =
    ([.padd 17 22 26, .psub 17 22 26, .pfmt 17 22 26, .pmeta 17 22, .pclr 17 22, .pchk 17 22 6] : List Instr).map some := by decide +kernel

theorem test_words_branch_0 : ([0x42368B5A, 0x46368B5A, 0x4A368B5A, 0x4E368B5A, 0x52368B5A, 0x56368B5A, 0x5A02D6B1, 0x5E02D6B1, 0x60110000, 0x62360001].map (decodeTableWord 32)) =
    ([.beq 17 22 35674, .bne 17 22 35674, .blt 17 22 35674, .bge 17 22 35674, .bltn 17 22 35674, .bgen 17 22 35674, .j 33740465, .jal 33740465, .jr 17, .jalr 17 22] : List Instr).map some := by decide +kernel

theorem test_words_branch_1 : ([0x66217FFF].map (decodeTableWord 32)) =
    ([.loop 17 1 32767] : List Instr).map some := by decide +kernel

theorem test_words_memory_0 : ([0x8236DC2D, 0x8636DC2D, 0x8A36DC2D, 0x8E36DC2D, 0x9236DC2D, 0x9636DC2D, 0x9A36DC2D, 0x9E36DC2D, 0xA236DC2D, 0xA636DC2D].map (decodeTableWord 32)) =
    ([.ldb 17 22 6 3 1069, .ldbn 17 22 6 3 1069, .ldh 17 22 6 3 1069, .ldhn 17 22 6 3 1069, .ldw 17 22 6 3 1069, .ldwn 17 22 6 3 1069, .ldd 17 22 6 3 1069, .stb 17 22 6 3 1069, .sth 17 22 6 3 1069, .stw 17 22 6 3 1069] : List Instr).map some := by decide +kernel

theorem test_words_memory_1 : ([0xAA36DC2D, 0xAE360663, 0xB23606A3, 0xBC0000E0].map (decodeTableWord 32)) =
    ([.std 17 22 6 3 1069, .ldo 17 22 6 1 4 3, .sto 17 22 6 2 4 3, .fence 3 4] : List Instr).map some := by decide +kernel

theorem test_words_atomic_0 : ([0xB636D7E0, 0xB636D7E1, 0xB636D7E2, 0xB636D7E3, 0xB636D7E4, 0xB636D7E5, 0xB636D7E6, 0xB636D7E7, 0xBA36D7E0, 0xBA36D7E1].map (decodeTableWord 32)) =
    ([.amoadd 17 22 26 7 3 4, .amoand 17 22 26 7 3 4, .amoor 17 22 26 7 3 4, .amoxor 17 22 26 7 3 4, .amomin 17 22 26 7 3 4, .amomax 17 22 26 7 3 4, .amoswp 17 22 26 7 3 4, .amocas 17 22 26 7 3 4, .amowadd 17 22 26 7 3 4, .amowand 17 22 26 7 3 4] : List Instr).map some := by decide +kernel

theorem test_words_atomic_1 : ([0xBA36D7E2, 0xBA36D7E3, 0xBA36D7E4, 0xBA36D7E5, 0xBA36D7E6, 0xBA36D7E7].map (decodeTableWord 32)) =
    ([.amowor 17 22 26 7 3 4, .amowxor 17 22 26 7 3 4, .amowmin 17 22 26 7 3 4, .amowmax 17 22 26 7 3 4, .amowswp 17 22 26 7 3 4, .amowcas 17 22 26 7 3 4] : List Instr).map some := by decide +kernel

theorem test_words_vf32_0 : ([0xC31DBAE0, 0xC31DBAE1, 0xC31DBAE2, 0xC31DBAE3, 0xC31DBAE4, 0xC31DBAE5, 0xC31DBAE6, 0xC31D80C7, 0xC31D80C8, 0xC31DBAE9].map (decodeTableWord 32)) =
    ([.vaddF32 49 54 58 7, .vsubF32 49 54 58 7, .vmulF32 49 54 58 7, .vfmaF32 49 54 58 7, .vfmsF32 49 54 58 7, .vminF32 49 54 58 7, .vmaxF32 49 54 58 7, .vabsF32 49 54 6, .vnegF32 49 54 6, .vdivF32 49 54 58 7] : List Instr).map some := by decide +kernel

theorem test_words_vf32_1 : ([0xC31D80CA, 0xC31D80CB, 0xC31D80CC, 0xC31D80CD, 0xC05DBAEE, 0xC05DBAEF, 0xC05DBAF0, 0xC05DBAF1, 0xC31DBAF2].map (decodeTableWord 32)) =
    ([.vsqrtF32 49 54 6, .vsinF32 49 54 6, .vcosF32 49 54 6, .vexp2F32 49 54 6, .vcmpeqF32 5 54 58 7, .vcmpltF32 5 54 58 7, .vcmpleF32 5 54 58 7, .vcmpunF32 5 54 58 7, .vselF32 49 54 58 7] : List Instr).map some := by decide +kernel

theorem test_words_vbf16_0 : ([0xC71DBAE0, 0xC71DBAE1, 0xC71DBAE2, 0xC71DBAE3, 0xC71DBAE4, 0xC71DBAE5, 0xC71DBAE6, 0xC71D80C7, 0xC71D80C8, 0xC71DBAE9].map (decodeTableWord 32)) =
    ([.vaddBf16 49 54 58 7, .vsubBf16 49 54 58 7, .vmulBf16 49 54 58 7, .vfmaBf16 49 54 58 7, .vfmsBf16 49 54 58 7, .vminBf16 49 54 58 7, .vmaxBf16 49 54 58 7, .vabsBf16 49 54 6, .vnegBf16 49 54 6, .vdivBf16 49 54 58 7] : List Instr).map some := by decide +kernel

theorem test_words_vbf16_1 : ([0xC71D80CA, 0xC71D80CB, 0xC71D80CC, 0xC71D80CD, 0xC45DBAEE, 0xC45DBAEF, 0xC45DBAF0, 0xC45DBAF1, 0xC71DBAF2].map (decodeTableWord 32)) =
    ([.vsqrtBf16 49 54 6, .vsinBf16 49 54 6, .vcosBf16 49 54 6, .vexp2Bf16 49 54 6, .vcmpeqBf16 5 54 58 7, .vcmpltBf16 5 54 58 7, .vcmpleBf16 5 54 58 7, .vcmpunBf16 5 54 58 7, .vselBf16 49 54 58 7] : List Instr).map some := by decide +kernel

theorem test_words_vf16_0 : ([0xCB1DBAE0, 0xCB1DBAE1, 0xCB1DBAE2, 0xCB1DBAE3, 0xCB1DBAE4, 0xCB1DBAE5, 0xCB1DBAE6, 0xCB1D80C7, 0xCB1D80C8, 0xCB1DBAE9].map (decodeTableWord 32)) =
    ([.vaddF16 49 54 58 7, .vsubF16 49 54 58 7, .vmulF16 49 54 58 7, .vfmaF16 49 54 58 7, .vfmsF16 49 54 58 7, .vminF16 49 54 58 7, .vmaxF16 49 54 58 7, .vabsF16 49 54 6, .vnegF16 49 54 6, .vdivF16 49 54 58 7] : List Instr).map some := by decide +kernel

theorem test_words_vf16_1 : ([0xCB1D80CA, 0xCB1D80CB, 0xCB1D80CC, 0xCB1D80CD, 0xC85DBAEE, 0xC85DBAEF, 0xC85DBAF0, 0xC85DBAF1, 0xCB1DBAF2].map (decodeTableWord 32)) =
    ([.vsqrtF16 49 54 6, .vsinF16 49 54 6, .vcosF16 49 54 6, .vexp2F16 49 54 6, .vcmpeqF16 5 54 58 7, .vcmpltF16 5 54 58 7, .vcmpleF16 5 54 58 7, .vcmpunF16 5 54 58 7, .vselF16 49 54 58 7] : List Instr).map some := by decide +kernel

theorem test_words_vi32_0 : ([0xCF1DBAE0, 0xCF1DBAE1, 0xCF1DBAE2, 0xCF1DBAE3, 0xCF1DBAE4, 0xCF1DBAE5, 0xCF1DBAE6, 0xCF1DBAE7, 0xCF1DBAE8, 0xCF1DBAE9].map (decodeTableWord 32)) =
    ([.vaddI32 49 54 58 7, .vsubI32 49 54 58 7, .vmulI32 49 54 58 7, .vmulhI32 49 54 58 7, .vminI32 49 54 58 7, .vmaxI32 49 54 58 7, .vminnI32 49 54 58 7, .vmaxnI32 49 54 58 7, .vandI32 49 54 58 7, .vorI32 49 54 58 7] : List Instr).map some := by decide +kernel

theorem test_words_vi32_1 : ([0xCF1DBAEA, 0xCF1DBAEB, 0xCF1DBAEC, 0xCF1DBAED, 0xCC5DBAEE, 0xCC5DBAEF, 0xCC5DBAF0, 0xCF1DBAF1, 0xCF1DBAF2, 0xCF1DBAF3].map (decodeTableWord 32)) =
    ([.vxorI32 49 54 58 7, .vshlI32 49 54 58 7, .vshrI32 49 54 58 7, .vsarI32 49 54 58 7, .vcmpeqI32 5 54 58 7, .vcmpltI32 5 54 58 7, .vcmpltnI32 5 54 58 7, .vselI32 49 54 58 7, .vaddsI32 49 54 58 7, .vsubsI32 49 54 58 7] : List Instr).map some := by decide +kernel

theorem test_words_vi16_0 : ([0xD31DBAE0, 0xD31DBAE1, 0xD31DBAE2, 0xD31DBAE3, 0xD31DBAE4, 0xD31DBAE5, 0xD31DBAE6, 0xD31DBAE7, 0xD31DBAE8, 0xD31DBAE9].map (decodeTableWord 32)) =
    ([.vaddI16 49 54 58 7, .vsubI16 49 54 58 7, .vmulI16 49 54 58 7, .vmulhI16 49 54 58 7, .vminI16 49 54 58 7, .vmaxI16 49 54 58 7, .vminnI16 49 54 58 7, .vmaxnI16 49 54 58 7, .vandI16 49 54 58 7, .vorI16 49 54 58 7] : List Instr).map some := by decide +kernel

theorem test_words_vi16_1 : ([0xD31DBAEA, 0xD31DBAEB, 0xD31DBAEC, 0xD31DBAED, 0xD05DBAEE, 0xD05DBAEF, 0xD05DBAF0, 0xD31DBAF1, 0xD31DBAF2, 0xD31DBAF3].map (decodeTableWord 32)) =
    ([.vxorI16 49 54 58 7, .vshlI16 49 54 58 7, .vshrI16 49 54 58 7, .vsarI16 49 54 58 7, .vcmpeqI16 5 54 58 7, .vcmpltI16 5 54 58 7, .vcmpltnI16 5 54 58 7, .vselI16 49 54 58 7, .vaddsI16 49 54 58 7, .vsubsI16 49 54 58 7] : List Instr).map some := by decide +kernel

theorem test_words_vi8_0 : ([0xD71DBAE0, 0xD71DBAE1, 0xD71DBAE2, 0xD71DBAE3, 0xD71DBAE4, 0xD71DBAE5, 0xD71DBAE6, 0xD71DBAE7, 0xD71DBAE8, 0xD71DBAE9].map (decodeTableWord 32)) =
    ([.vaddI8 49 54 58 7, .vsubI8 49 54 58 7, .vmulI8 49 54 58 7, .vmulhI8 49 54 58 7, .vminI8 49 54 58 7, .vmaxI8 49 54 58 7, .vminnI8 49 54 58 7, .vmaxnI8 49 54 58 7, .vandI8 49 54 58 7, .vorI8 49 54 58 7] : List Instr).map some := by decide +kernel

theorem test_words_vi8_1 : ([0xD71DBAEA, 0xD71DBAEB, 0xD71DBAEC, 0xD71DBAED, 0xD45DBAEE, 0xD45DBAEF, 0xD45DBAF0, 0xD71DBAF1, 0xD71DBAF2, 0xD71DBAF3].map (decodeTableWord 32)) =
    ([.vxorI8 49 54 58 7, .vshlI8 49 54 58 7, .vshrI8 49 54 58 7, .vsarI8 49 54 58 7, .vcmpeqI8 5 54 58 7, .vcmpltI8 5 54 58 7, .vcmpltnI8 5 54 58 7, .vselI8 49 54 58 7, .vaddsI8 49 54 58 7, .vsubsI8 49 54 58 7] : List Instr).map some := by decide +kernel

theorem test_words_lanes_0 : ([0xDB1DBAE0, 0xDB1D9AE1, 0xDB1D9AE2, 0xDB1580C3, 0xDB1D82E4, 0xDB1D82E5, 0xDB1D82E6, 0xDB1D82E7, 0xDB1DBAE8, 0xDB1D80C9].map (decodeTableWord 32)) =
    ([.vperm 49 54 58 7, .vslideup 49 54 26 7, .vslidedn 49 54 26 7, .vbcast 49 22 6, .vredsum 49 54 2 7, .vredmax 49 54 2 7, .vredmin 49 54 2 7, .vrediadd 49 54 2 7, .vinterl 49 54 58 7, .vdeint 49 54 6] : List Instr).map some := by decide +kernel

theorem test_words_lanes_1 : ([0xDB1D8BAB, 0xD851860A, 0xD851862A, 0xD851864A, 0xD851866A, 0xD851808A, 0xD85180AA, 0xD85180CA].map (decodeTableWord 32)) =
    ([.vtbl 49 54 2 3 5, .mand 5 6 6, .mor 5 6 6, .mxor 5 6 6, .mandn 5 6 6, .mnot 5 6, .mlow 5 6, .mbelow 5 6] : List Instr).map some := by decide +kernel

theorem test_words_convert : ([0xDF1DB7A0, 0xDF1DB7A1, 0xDF1DB7A2, 0xDF1D8143, 0xDF1D8124, 0xDF1D8145, 0xDF1DB606, 0xDF1DB607].map (decodeTableWord 32)) =
    ([.vnar 49 54 6 3 13, .vnars 49 54 6 3 13, .vwid 49 54 6 3 13, .vwidr 49 54 10, .vcvtf 49 54 9, .vcvti 49 54 10, .vhad 49 54 6 3, .vhadi 49 54 6 3] : List Instr).map some := by decide +kernel

theorem test_words_vmem_0 : ([0xE31B6BD0, 0xE31B6BD1, 0xE31B6BD2, 0xE31B6BD3, 0xE31B6B84, 0xE31B5E85, 0xE31B6BD6, 0xE05B6B87, 0xE05B6B88, 0xE71B75E8].map (decodeTableWord 32)) =
    ([.vld 49 22 26 7 5, .vst 49 22 26 7 5, .vlds 49 22 26 7 5, .vsts 49 22 26 7 5, .vldf 49 22 26 7, .vstf 49 22 2 7 5, .vldb 49 22 26 7 5, .vldm 5 22 26 7, .vstm 5 22 26 7, .vldx 49 22 58 7 5] : List Instr).map some := by decide +kernel

theorem test_words_vmem_1 : ([0xE71B75E9, 0xE71B75EA].map (decodeTableWord 32)) =
    ([.vstx 49 22 58 7 5, .vstxa 49 22 58 7 5] : List Instr).map some := by decide +kernel

theorem test_words_vsq_0 : ([0xE91D9A00, 0xEB159A01, 0xE8558002, 0xEB15BA03, 0xE9100004, 0xE8000005, 0xE8200006, 0xE8000007, 0xE8000008, 0xE8000009].map (decodeTableWord 32)) =
    ([.vmovs 17 54 26, .vmovv 49 22 26, .vsetl 5 22, .vloop 49 22 58, .vbind 17, .vfree, .vtype 2, .gang, .ungang, .vwait] : List Instr).map some := by decide +kernel

theorem test_words_vsq_1 : ([0xEB1000CA, 0xE911800B, 0xE911810C, 0xE855810D].map (decodeTableWord 32)) =
    ([.vzero 49 6, .vpopm 17 6, .vmmovs 17 6 1, .vsmovm 5 22 1] : List Instr).map some := by decide +kernel

theorem test_words_matrix : ([0xF000A2C0, 0xF004A2C0, 0xF0081C00, 0xF00C1C00, 0xF0101C00, 0xF0140400, 0xF00056DA].map (decodeTableWord 32)) =
    ([.mset 5 22, .mget 5 22, .mma 1 1 1, .mmas 1 1 1, .mmr 1 1 1, .mzero 1, .msetMout 5 22 26] : List Instr).map some := by decide +kernel

theorem test_words_galley : ([0xF0429B5B, 0xF0468B40, 0xF04A8360, 0xF04E82C0, 0xF05282C0, 0xF05A8000, 0xF05682C0, 0xF056C2C0].map (decodeTableWord 32)) =
    ([.glset 5 6 26 27, .glget 5 2 26, .glpushv 5 54, .glpopd 5 22, .glhead 5 22, .glflush 5, .gltagRead 5 22, .gltagWrite 5 22] : List Instr).map some := by decide +kernel

theorem test_words_copy : ([0xF08202C0, 0xF08602C0, 0xF0880220, 0xF08C0236, 0xF0900236, 0xF0940236, 0xF0980220, 0xF0803B5B].map (decodeTableWord 32)) =
    ([.cpset 16 22, .cpget 16 22, .cplaunch 17, .cpwp 17 22, .cpstat 17 22, .cpcancel 17 22, .cpwaitid 17, .cpsetEndpoint 1 6 26 27] : List Instr).map some := by decide +kernel

theorem test_words_table : ([0xF0C07B5B, 0xF0C462C0].map (decodeTableWord 32)) =
    ([.tbload 3 6 26 27, .tbinfo 3 22] : List Instr).map some := by decide +kernel

theorem test_words_tile_0 : ([0xF14016DA, 0xF1440220, 0xF14806DA, 0xF14C06C0, 0xF1500220, 0xF1540220, 0xF1580236, 0xF15C0220, 0xF1600236, 0xF1640236].map (decodeTableWord 32)) =
    ([.treg 5 22 26, .tfree 17, .tacqr 1 22 26, .tacqw 1 22, .trel 17, .tabnd 17, .tsplit 17 22, .tjoin 17, .trecl 17 22, .tstat 17 22] : List Instr).map some := by decide +kernel

theorem test_words_tile_1 : ([0xF1680220, 0xF16E3B5B, 0xF1723B5B].map (decodeTableWord 32)) =
    ([.tver 17, .tstv 17 6 26 27, .tldv 17 6 26 27] : List Instr).map some := by decide +kernel

theorem test_words_task : ([0xF18016DA, 0xF1840000, 0xF18806DA, 0xF18C0236, 0xF1900236, 0xF1940000, 0xF1980220, 0xF1900620].map (decodeTableWord 32)) =
    ([.tspawn 5 22 26, .texit, .msend 1 22 26, .cntset 17 22, .cntget 17 22, .barr, .sqend 17, .cntgetIn 17] : List Instr).map some := by decide +kernel

theorem test_words_gateway : ([0xF1C00236, 0xF1C40236, 0xF1C80236].map (decodeTableWord 32)) =
    ([.gwq 17 22, .barq 17 22, .gwsend 17 22] : List Instr).map some := by decide +kernel

theorem test_words_gate : ([0xF411B000, 0xF4000001, 0xF6363002, 0xF6360003, 0xF6360004, 0xF636D005].map (decodeTableWord 32)) =
    ([.gcall 17 22, .gret, .gpub 17 22 6, .gwdr 17 22, .gstat 17 22, .gwin 17 22 26] : List Instr).map some := by decide +kernel

theorem test_words_sys_0 : ([0xFA360000, 0xF8000001, 0xF8110002, 0xF8000003, 0xF8000004, 0xF8000005, 0xF8B60006, 0xF8B60007, 0xF8560008, 0xFA360009].map (decodeTableWord 32)) =
    ([.wait 17 22, .yield, .trap 17, .tret, .uiret, .halt, .flushl 5 22, .invl 5 22, .pginv 2 22, .slotgo 17 22] : List Instr).map some := by decide +kernel

theorem test_words_sys_1 : ([0xFA36000A, 0xFA36000B, 0xFA36000C, 0xFA36000D, 0xFA36000E, 0xFA36000F, 0xFA360010, 0xFA360011, 0xFA360012, 0xFA360013].map (decodeTableWord 32)) =
    ([.slotkill 17 22, .slotrd 17 22, .slotwr 17 22, .quoin 17 22, .wrevk 17 22, .cxsave 17 22, .cxrest 17 22, .keyld 17 22, .evsel 17 22, .svpost 17 22] : List Instr).map some := by decide +kernel

theorem test_words_sys_2 : ([0xFA360014].map (decodeTableWord 32)) =
    ([.bankset 17 22] : List Instr).map some := by decide +kernel
/-! ### Words that the spec works out (R95, and the encoded listings of its programs), and ill-formed terms -/

theorem test_worked_scalar : ([0x056C6801, 0x3C06010C, 0x60290001, 0x08E50001, 0x18E70007, 0x198A4006, 0x0DAA003F, 0x11080100, 0x156B0001, 0x1D4000C4,
      0x20C34A00, 0x318C0001, 0x05AD7000, 0x2D8A0008, 0x38A0002E, 0x3C05000D, 0x44A00014, 0x5147FFFF, 0x48C8FFFC, 0x5BFFFFFA, 0x64E00003,
      0x6661000F].map (decodeTableWord 32)) =
    ([.sub 11 12 13, .mtsr 6 0x10C, .jalr 1 9, .addi 7 5 1, .shli 7 7 7, .shri 12 10 6, .andi 13 10 63, .ori 8 8 0x100, .xori 11 11 1,
      .movi 10 196, .lit 6 3 0x4A00, .ctz 12 12, .add 13 13 14, .divw 12 10 0, .mfsr 5 0x2E, .mtsr 5 13, .bne 5 0 20, .bltn 10 7 0xFFFF,
      .blt 6 8 0xFFFC, .j (BitVec.ofInt _ (-6)), .loop 7 0 3, .loop 19 1 15] : List Instr).map some := by decide +kernel
theorem test_worked_memory : ([0x80A667FD, 0x8560A100, 0x99208000, 0x98C02008, 0x9D60A100, 0xA58D2000, 0xA4CB2001, 0xA9808007, 0xA8C0E001,
      0xACA6015A, 0xACEB015B, 0xB0AB019B, 0xB4A639DF, 0xBC000098, 0xBC000058].map (decodeTableWord 32)) =
    ([.ldb 5 6 3 0 (BitVec.ofInt _ (-3)), .ldbn 11 0 5 0 256, .ldd 9 0 4 0 0, .ldd 6 0 1 0 8, .stb 11 0 5 0 256, .stw 12 13 1 0 0, .stw 6 11 1 0 1,
      .std 12 0 4 0 7, .std 6 0 7 0 1, .ldo 5 6 1 1 3 2, .ldo 7 11 1 1 3 3, .sto 5 11 1 2 3 3, .amocas 5 6 7 1 3 3, .fence 2 3, .fence 1 3]
      : List Instr).map some := by decide +kernel
theorem test_worked_vector : ([0xC0414640, 0xC0804263, 0xC010420E, 0xD8204005, 0xD8324024, 0xD851020B, 0xD820402B, 0xDC8043A0, 0xDC000025, 0xE0138200,
      0xE084AA85, 0xE0A8C883, 0xE0258091, 0xE4431040, 0xE821C002, 0xE8118203, 0xE8B00004, 0xE8000006, 0xE8C0400C, 0xE8000005, 0xE8BFC000, 0xD014110E,
      0xD8034023, 0xCC104000].map (decodeTableWord 32)) =
    ([.vaddF32 4 5 6 2, .vfmaF32 8 1 2 3, .vcmpeqF32 1 1 2 0, .vredmax 2 1 0 0, .vredsum 3 9 0 1, .vtbl 5 4 0 2 0, .vtbl 2 1 0 0 1,
      .vnar 8 1 0 1 13, .vcvti 0 0 1, .vld 1 7 0 4 0, .vstf 8 9 1 2 5, .vsts 10 17 18 1 0, .vst 2 11 0 1 1, .vldx 4 6 8 1 0, .vsetl 2 7,
      .vloop 1 6 2, .vbind 11, .vtype 0, .vmmovs 12 1 0, .vfree, .vmovs 11 63 0, .vcmpeqI16 1 16 17 0, .vbcast 0 13 1, .vaddI32 1 1 0 0]
      : List Instr).map some := by decide +kernel
theorem test_worked_engines : ([0xF00020C0, 0xF0005AA0, 0xF0080800, 0xF0081400, 0xF0101400, 0xF0419520, 0xF0490080, 0xF05480A0, 0xF054C0A0, 0xF08004E0, 0xF0803002,
      0xF0804100, 0xF0880180, 0xF08C0146, 0xF09000A6, 0xF0980180, 0xF0C05520, 0xF14004C0, 0xF14800A6, 0xF14C04A0, 0xF15000A0, 0xF16D10A6, 0xF1880120,
      0xF188052C, 0xF18C012A, 0xF19004E0, 0xF1940000, 0xF19801E0, 0xF1C000E8, 0xF1C400A6, 0xF1C800A9].map (decodeTableWord 32)) =
    ([.mset 1 6, .msetMout 6 21 0, .mma 0 1 0, .mma 1 0 1, .mmr 1 0 1, .glset 3 5 9 0, .glpushv 2 8, .gltagRead 1 5, .gltagWrite 1 5,
      .cpsetEndpoint 0 1 7 0, .cpsetEndpoint 1 4 0 2, .cpset 2 8, .cplaunch 12, .cpwp 10 6, .cpstat 5 6, .cpwaitid 12, .tbload 2 5 9 0,
      .treg 1 6 0, .tacqr 0 5 6, .tacqw 1 5, .trel 5, .tstv 8 4 5 6, .msend 0 9 0, .msend 1 9 12, .cntset 9 10, .cntgetIn 7, .barr, .sqend 15,
      .gwq 7 8, .barq 5 6, .gwsend 5 9] : List Instr).map some := by decide +kernel
theorem test_worked_control : ([0xF4053000, 0xF4000001, 0xF4A60802, 0xF4E60003, 0xF8000003, 0xF8A6000E, 0xF8A6000F, 0xF8A60010, 0xF8A60011, 0xF8A60012,
      0xF8E50013, 0xF8A60014].map (decodeTableWord 32)) =
    ([.gcall 5 6, .gret, .gpub 5 6 1, .gwdr 7 6, .tret, .wrevk 5 6, .cxsave 5 6, .cxrest 5 6, .keyld 5 6, .evsel 5 6, .svpost 7 5,
      .bankset 5 6] : List Instr).map some := by decide +kernel
/-- Words that no instruction has: all zeros, an unassigned major, and the zero words of FENCE and LOOP (R107). -/
theorem test_no_instruction : ([0, 0xFFFFFFFF, 0xBC000000, 0x64000000].map (decodeTableWord 32)) = [none, none, none, none] := by decide +kernel

theorem test_wf_registers : Instr.wf (.mfsr 1 0x42) = false ∧ Instr.wf (.mtsr 1 0x110) = false ∧ Instr.wf (.mfsr 1 0x41) = true := by decide
theorem test_wf_loop : Instr.wf (.loop 1 0 0) = false ∧ Instr.wf (.loop 1 0 0x8000) = false ∧ Instr.wf (.loop 1 0 0x7FFF) = true := by decide
theorem test_wf_ldo : Instr.wf (.ldo 1 2 0 2 0 3) = false ∧ Instr.wf (.ldo 1 2 0 0 5 3) = false ∧ Instr.wf (.ldo 1 2 0 1 4 3) = true := by decide
theorem test_wf_sto : Instr.wf (.sto 1 2 0 1 0 3) = false ∧ Instr.wf (.sto 1 2 0 2 5 3) = false ∧ Instr.wf (.sto 1 2 0 2 4 3) = true := by decide
theorem test_wf_amo : Instr.wf (.amoadd 1 2 3 0 0 5) = false ∧ Instr.wf (.amoand 1 2 3 0 0 5) = false ∧ Instr.wf (.amoor 1 2 3 0 0 5) = false ∧
    Instr.wf (.amoxor 1 2 3 0 0 5) = false ∧ Instr.wf (.amomin 1 2 3 0 0 5) = false ∧ Instr.wf (.amomax 1 2 3 0 0 5) = false ∧
    Instr.wf (.amoswp 1 2 3 0 0 5) = false ∧ Instr.wf (.amocas 1 2 3 0 0 5) = false := by decide
theorem test_wf_amow : Instr.wf (.amowadd 1 2 3 0 0 5) = false ∧ Instr.wf (.amowand 1 2 3 0 0 5) = false ∧ Instr.wf (.amowor 1 2 3 0 0 5) = false ∧
    Instr.wf (.amowxor 1 2 3 0 0 5) = false ∧ Instr.wf (.amowmin 1 2 3 0 0 5) = false ∧ Instr.wf (.amowmax 1 2 3 0 0 5) = false ∧
    Instr.wf (.amowswp 1 2 3 0 0 5) = false ∧ Instr.wf (.amowcas 1 2 3 0 0 5) = false := by decide
theorem test_wf_fence : Instr.wf (.fence 0 1) = false ∧ Instr.wf (.fence 1 5) = false ∧ Instr.wf (.fence 3 4) = true := by decide
theorem test_wf_vcvtf : Instr.wf (.vcvtf 1 2 10) = false ∧ Instr.wf (.vcvtf 1 2 9) = true := by decide
theorem test_wf_mset : Instr.wf (.mset 2 1) = false ∧ Instr.wf (.mset 6 1) = false ∧ Instr.wf (.mset 5 1) = true := by decide
theorem test_wf_mget : Instr.wf (.mget 6 1) = false ∧ Instr.wf (.mget 2 1) = true := by decide
theorem test_wf_cpset : Instr.wf (.cpset 1 1) = false ∧ Instr.wf (.cpset 17 1) = false ∧ Instr.wf (.cpset 16 1) = true := by decide
theorem test_wf_cpget : Instr.wf (.cpget 17 1) = false ∧ Instr.wf (.cpget 16 1) = true := by decide
theorem test_wf_pginv : Instr.wf (.pginv 3 1) = false ∧ Instr.wf (.pginv 2 1) = true := by decide
/-! ### Small states -/

/-- A segment of a kind with a base, rights and a limit (R110). -/
def segm (kind base rights limit : Nat) : Seg :=
  { w0 := BitVec.ofNat 64 (kind * 2 ^ 57 + base), w1 := BitVec.ofNat 64 (rights * 2 ^ 48 + limit) }

/-- Partition 0: cluster 0, granule 0 and all lanes of port 0. -/
def part0 : PartSt :=
  { clusters := [0], granules := [0], lanes := [15, 0, 0, 0, 0, 0, 0, 0], tileLog2 := 12, faultLog2 := 6, poolSize := 4,
    faultPva := 0x100000, seqPva := 0x110000, stage1 := 0, stage2 := 0x30000000, grantPva := 0x120000, overflowPva := 0x130000,
    overflowLog2 := 8, created := 0, tiles := [], pool := [0x3FFFFF000, 0x3FFFFE000, 0x3FFFFD000, 0x3FFFFC000],
    worlds := [(0, { World.reset with live := true, key := some 5 })], gvt := 0, floor := 0, sample := none, pend := 0, tail := 0,
    faults := [], counters := [], admission := [], retiring := [], overflow := [], overflowTail := 0, destroyed := [], saves := [],
    tier := Vector.replicate 16 0, demoting := [], frameCounts := [], routes := Vector.replicate 64 0xFF, descriptor := [] }

/-- The registers of slot 0: s1 = 8, s2 = 3, s3 = 0x100, s4 all ones, s5 = 0x4000, s6 = 0x3FF8, the others 0; g0 to g2 are windows
of local memory (g2 without W), g3 is paged and g4 scratchpad. -/
def sc0 : ScalarSt :=
  { ScalarSt.reset with
    pc := 16
    s := (((((ScalarSt.reset.s.set 1 8).set 2 3).set 3 0x100).set 4 (BitVec.allOnes 64)).set 5 0x4000).set 6 0x3FF8
    g := ((((ScalarSt.reset.g.set 0 (segm 2 0 15 0x3FFF)).set 1 (segm 2 0 15 0x4FFF)).set 2 (segm 2 0 1 0x3FFF)).set 3
      (segm 1 0 31 0xFFFFFFF)).set 4 (segm 3 0 15 0x1FFFFF) }

/-- Slot 0 runs a task with bank 0 bound and the window 0 to 0x3FFF. -/
def slot0 : SlotSt :=
  { SlotSt.reset with state := .ready, sc := sc0, vec := { VecSt.reset with bank := some 0 }, lmbound := 0x4000 }

/-- Slot 0 holds bank 0, and the vector unit's turn is at slot 0 (R38). -/
def core0 : CoreSt := { CoreSt.reset with holders := CoreSt.reset.holders.set 0 (some 0), vecLast := 15 }

/-- The device with partition 0 and slot 0 of core 0 issuing. -/
def base : State :=
  { State.reset with cycle := 100, slots := [(0, slot0)], cores := [(0, core0)], parts := [(0, part0)], word := 0xF8000002 }

/-- The same with another slot 0, another word of its scalar state, or another register. -/
def withSlot (x : SlotSt) : State := setSlot base 0 x
def withSc (f : ScalarSt → ScalarSt) : State := withSlot { slot0 with sc := f sc0 }
def withVec (f : VecSt → VecSt) : State := withSlot { slot0 with vec := f slot0.vec }
def withTr (f : TrapSt → TrapSt) : State := withSlot { slot0 with tr := f slot0.tr }
def parkedOn (r : ParkReason) (b : Bool) (c : Cont) : State :=
  withSlot { slot0 with state := .parked, park := some { reason := r, abandon := b, cont := c } }

theorem base_memoryOk : MemoryOk base := by decide +kernel
/-- Where no session stands, as in the states of these tests but those of sessions, no slot is held. -/
theorem wit_not_held (s : State) (k : Nat) (h : s.mod.sessions = []) : NotHeld s k := by
  have none : ∀ id, sessionHeld s id = false := by
    intro id
    simp only [sessionHeld, h]
    cases (worldOf s id).session <;> rfl
  simp [NotHeld, heldNow, none]
/-- Slot 0 waits for its timer at clock 90, and its world's session is HELD. -/
def heldState : State :=
  { parkedOn .wait true (.wait 8 90) with
    mod := { State.reset.mod with sessions := [(0, { state := .heldState, part := 0, nonce := [], secret := 0, key := 9, period := 1, grace := 1, deadline := 50, beat := 0, keyCounter := 3, worlds := [0] })] }
    parts := [(0, { part0 with worlds := [(0, { World.reset with live := true, key := some 5, session := some 0 })] })] }
theorem wit_held_slot : ¬ NotHeld heldState 0 ∧ (8 : BitVec 5).getLsbD 3 = true ∧ 90 ≤ heldState.cycle ∧
    (slotAt heldState 0).park = some { reason := .wait, abandon := true, cont := .wait 8 90 } := by decide +kernel
/-! ### Scalar instructions: witnesses -/

theorem wit_divides : base.cur = .slot 0 ∧ (rd base 2).toNat ≠ 0 ∧ (rd base 2).toNat % 2 ^ 32 ≠ 0 ∧
    (scOf base base.cur).fpmode.getLsbD 8 = false := by decide +kernel

theorem wit_divides_done : let u := { parkedOn .divide false (.divide 7 2 134) with cycle := 134 }
    (slotAt u 0).park = some { reason := .divide, abandon := false, cont := .divide 7 2 (100 + 34) } ∧ u.cur = .slot 0 ∧
    100 + 34 ≤ u.cycle := by decide +kernel

theorem wit_divides_trap : let s := withSc fun x => { x with fpmode := 0x100 }
    (scOf s s.cur).fpmode.getLsbD 8 = true ∧ rd s 0 = 0 ∧ (rd s 0).toNat % 2 ^ 32 = 0 := by decide +kernel

/-- A target of exactly 0, one just below it, and the three cases of a register target. -/
theorem wit_branches : (pc base).toNat + 4 * (-4 : BitVec 16).toInt = 0 ∧ (pc base).toNat + 4 * (-5 : BitVec 16).toInt < 0 ∧
    rd base 1 = rd base 1 ∧ rd base 1 ≠ rd base 2 ∧ (rd base 4).toInt < (rd base 1).toInt ∧ (rd base 1).toNat < (rd base 4).toNat ∧
    (pc base).toNat + 4 * (-4 : BitVec 26).toInt = 0 ∧ (pc base).toNat + 4 * (-5 : BitVec 26).toInt < 0 ∧
    ((rd base 0).toNat % 4 = 0 ∧ 0 ≤ (rd base 0).toInt) ∧ (rd base 2).toNat % 4 ≠ 0 ∧
    (let s := withSc fun x => { x with s := x.s.set 7 (-4) }; (rd s 7).toNat % 4 = 0 ∧ (rd s 7).toInt < 0) := by decide +kernel

theorem wit_loop : tl base = 0 ∧ rd base 0 = 0 ∧ rd base 1 ≠ 0 ∧ ¬ AtLoopEnd base ∧
    tl (withTr fun x => { x with tl := 1 }) ≠ 0 := by decide +kernel

/-- A counter that ends here, with one iteration left and with two. -/
def atEnd (count : Word) : State := withSc fun x => { x with lc1 := { count := count, start := 4, stop := 16, active := true, order := 0 } }
theorem wit_loop_end : (getLoop (scOf (atEnd 1) (atEnd 1).cur) 1).active = true ∧ tl (atEnd 1) = 0 ∧
    (getLoop (scOf (atEnd 1) (atEnd 1).cur) 1).stop = pc (atEnd 1) ∧
    (getLoop (scOf (atEnd 1) (atEnd 1).cur) 0).active = false ∧ (getLoop (scOf (atEnd 1) (atEnd 1).cur) 1).count.toNat ≤ 1 ∧
    1 < (getLoop (scOf (atEnd 2) (atEnd 2).cur) 1).count.toNat := by decide +kernel

/-- Slot 15 of core 0, and slot 0 at TL2. -/
def at15 : State :=
  { base with cur := .slot 15, slots := [(0, slot0), (15, { slot0 with vec := VecSt.reset, lmbase := 0xB000, lmbound := 0x1000 })] }
def atTl2 : State := withTr fun x => { x with tl := 2 }

theorem wit_mfsr : base.cur = .slot 0 ∧ partOfSlot base 0 = some 0 ∧ (partAt base 0).isSome = true ∧ slot0.vec.seq = [] ∧
    slot0.frames = [] ∧ (0 % 16 ≠ 15 ∧ (slotAt base 0).tr.tl ≠ 2) ∧ (slotAt atTl2 0).tr.tl = 2 ∧ atTl2.cur = .slot 0 ∧
    at15.cur = .slot 15 ∧ partOfSlot at15 15 = some 0 := by decide +kernel

/-- No flag, and flags 0 and 3, raised by the channels of cluster 0 in this clock. -/
theorem wit_sticky : let y := { ClusterSt.reset with sticky := 9, raisedAt := 100, raised := 8 }
    (clusterAt base 0).raisedAt ≠ base.cycle ∧ (clusterAt (setCluster base 0 y) 0).raisedAt = base.cycle ∧ y.raised &&& y.sticky ≠ 0 := by
  decide +kernel
/-- Numbers of the list at its ends, and one that an application core has not. -/
theorem wit_mtsr_numbers : (0 : BitVec 16).toNat = 0 ∧ (0x25 : BitVec 16).toNat = 0x25 ∧ (0x3D : BitVec 16).toNat = 0x3D ∧
    (0x41 : BitVec 16).toNat ≤ 0x41 ∧ 0x41 ∉ [0, 1, 2, 3, 4, 5, 6, 7, 8, 9, 0x0D, 0x0E, 0x0F, 0x10, 0x26, 0x27, 0x2A, 0x32] := by decide

theorem wit_mfsr_counter : let c := { core0 with evcnt := [(7, { EvCounter.reset with value := 9 })] }
    lookup (coreAt (setCore base 0 c) 0).evcnt (7 : Fin 8) = some { EvCounter.reset with value := 9 } := rfl

/-- Writes of g0: one that narrows it by a byte, and one that leaves its range by a byte; and the edges of the register map. -/
theorem wit_mtsr : base.cur = .slot 0 ∧
    (let s := withSc fun x => { x with staging := BitVec.ofNat 64 (2 ^ 58), s := x.s.set 7 (BitVec.ofNat 64 (15 * 2 ^ 48 + 0x3FFE)) }
     let old := (slotAt s 0).sc.g[0]
     let new : Seg := { w0 := (slotAt s 0).sc.staging, w1 := rd s 7 }
     new.kind = old.kind ∧ new.rights &&& old.rights = new.rights ∧ old.base ≤ new.base ∧
       new.base + new.limit ≤ old.base + old.limit ∧ old.w1.getLsbD 53 = false ∧ new.w1.getLsbD 53 = false) ∧
    (let s := withSc fun x => { x with staging := BitVec.ofNat 64 (2 ^ 58), s := x.s.set 7 (BitVec.ofNat 64 (15 * 2 ^ 48 + 0x4000)) }
     let old := (slotAt s 0).sc.g[0]
     let new : Seg := { w0 := (slotAt s 0).sc.staging, w1 := rd s 7 }
     ¬ new.base + new.limit ≤ old.base + old.limit ∧ 0 % 16 ≠ 15 ∧ (slotAt s 0).tr.tl ≠ 2) := by decide +kernel

/-- An application core. -/
def onApp : State := { base with cur := .app 9, apps := [(9, { AppSt.reset with sc := sc0 })] }
theorem wit_app : onApp.cur = .app 9 := rfl

/-! ### Accesses: witnesses -/

/-- The last byte, half, word and doubleword of the window. -/
theorem wit_local : LocalAccess base 0 0 (rd base 5) (-1) 1 1 ∧ LocalAccess base 0 0 (rd base 5) (-2) 2 1 ∧
    LocalAccess base 0 0 (rd base 5) (-4) 4 1 ∧ LocalAccess base 0 0 (rd base 5) (-8) 8 1 ∧ Quiet base 0 := by
  refine ⟨?_, ?_, ?_, ?_, ?_⟩ <;> decide +kernel
theorem wit_local_store : LocalAccess base 0 0 (rd base 5) (-1) 1 2 ∧ LocalAccess base 0 0 (rd base 5) (-2) 2 2 ∧
    LocalAccess base 0 0 (rd base 5) (-4) 4 2 ∧ LocalAccess base 0 0 (rd base 5) (-8) 8 2 ∧ MemoryOk base := by
  refine ⟨?_, ?_, ?_, ?_, ?_⟩ <;> decide +kernel

theorem wit_local_atomic : LocalAccess base 0 0 (rd base 6) 0 8 11 ∧ LocalAccess base 0 0 (rd base 6) 0 4 11 ∧ Quiet base 0 ∧
    MemoryOk base ∧ base.transit = [] := by decide +kernel

/-- Each check of R114 in turn, with all that come before it passed; the window just left, and 0xB000 reached. -/
theorem wit_access_pointer : let s := withSc fun x => { x with s := x.s.set 7 (BitVec.ofNat 64 (22 * 2 ^ 59)) }
    ¬ PointerOk (rd s 7) := by decide +kernel
theorem wit_access_segment : PointerOk (rd base 1) ∧ ¬ SegmentOk base 5 1 ∧ ¬ SegmentOk base 2 2 := by decide +kernel
theorem wit_access_range : PointerOk (rd base 6) ∧ SegmentOk base 0 1 ∧ ¬ InRange base 0 (rd base 6) 1 8 := by decide +kernel
theorem wit_access_alignment : PointerOk (rd base 6) ∧ SegmentOk base 0 1 ∧ InRange base 0 (rd base 6) (-1) 8 ∧
    cvaOf base 0 (rd base 6) (-1) % 8 ≠ 0 := by decide +kernel
theorem wit_access_window : InRange base 1 (rd base 5) 0 1 ∧ SegmentOk base 1 1 ∧
    cvaOf base 1 (rd base 5) 0 = winBase (slotAt base 0) + winLen (slotAt base 0) ∧ SegmentOk base 1 11 ∧
    (∀ n ∈ [1, 2, 4, 8], InRange base 1 (rd base 5) 0 n ∧ cvaOf base 1 (rd base 5) 0 % n = 0) := by decide +kernel
def highWindow : State := withSlot { slot0 with
  lmbase := 0xA000, lmbound := 0x2000, sc := { sc0 with g := sc0.g.set 1 (segm 2 0 15 0xFFFF), s := sc0.s.set 7 0xB000 } }
theorem wit_access_top : InRange highWindow 1 (rd highWindow 7) 0 1 ∧ SegmentOk highWindow 1 1 ∧
    cvaOf highWindow 1 (rd highWindow 7) 0 < winBase (slotAt highWindow 0) + winLen (slotAt highWindow 0) ∧
    0xB000 < cvaOf highWindow 1 (rd highWindow 7) 0 + 1 := by decide +kernel
/-! ### Memory events: witnesses -/

/-- Bank 0 of cluster 0's SRAM is in SCRATCH mode. -/
def scratchy (s : State) : State := setCluster s 0 { ClusterSt.reset with modes := ClusterSt.reset.modes.set 0 1 }

theorem wit_other_loads : (match onePlace (access (scratchy base) 4 (rd base 1) 0 8 8 rR 0) with
    | .ok (s1, pl) => s1.cur == base.cur && !servedAtOnce s1 (hinted pl 0) && s1.iq.isEmpty
    | _ => false) = true := by decide +kernel

/-- An event of slot 0 at the first doubleword of the scratchpad of cluster 0. -/
def anEvent (k : EvKind) (data : List Byte) : MemEv :=
  { id := 1, thread := 0, kind := k, addrs := (List.range 8).map (flatScratch 0), data := data, order := .relaxed,
    scope := .thread, space := .sp, dom := none, path := [.cluster 0], footprint := none, copyOffset := none, poisoned := false,
    launch := none }
def aWrite : MemEv := anEvent .write [1, 2, 3, 4, 5, 6, 7, 8]
def anAtomic : MemEv := anEvent (.atomic .add 1 0) []

theorem wit_bind : let s := { base with iq := [anEvent .read []] }
    evIn s.iq 1 = some (anEvent .read []) ∧ bindOk s (anEvent .read []) = true ∧ linkDown s (anEvent .read []) = false := by
  decide +kernel
theorem wit_accept : let s := { base with iq := [aWrite] }
    nextWrite s 0 = some aWrite ∧ acceptOk s aWrite = true ∧ aWrite.path ≠ [] := by decide +kernel
theorem wit_advance : let s := { base with transit := [aWrite] }
    MemoryOk s ∧ evIn s.transit 1 = some aWrite ∧ advanceOk s aWrite = true ∧ linkDown s aWrite = false ∧
    aWrite.path.length = 1 ∧ aWrite.addrs.Nodup ∧ aWrite.data.length = aWrite.addrs.length ∧
    (∀ a ∈ aWrite.addrs, isWindow a = false ∧ isMetadata a = false) := by refine ⟨?_, ?_, ?_, ?_, ?_, ?_, ?_, ?_⟩ <;> decide +kernel
theorem wit_atomic_step : let s := { base with iq := [anAtomic] }
    evIn s.iq 1 = some anAtomic ∧ atomicOk s anAtomic = true ∧ linkDown s anAtomic = false ∧
    anAtomic.addrs.all (lineOpens s anAtomic.dom) = true ∧ MemoryOk s ∧ anAtomic.addrs.Nodup ∧
    (∀ a ∈ anAtomic.addrs, isWindow a = false ∧ isMetadata a = false) := by refine ⟨?_, ?_, ?_, ?_, ?_, ?_, ?_⟩ <;> decide +kernel

theorem wit_replies : let s := { parkedOn .memory false (.load 7 8 false 1) with bound := [anEvent .read [1, 2, 3, 4, 5, 6, 7, 8]] }
    evIn s.bound 1 = some (anEvent .read [1, 2, 3, 4, 5, 6, 7, 8]) ∧ s.cur = .slot 0 ∧
    (slotAt s 0).park = some { reason := .memory, abandon := false, cont := .load 7 8 false 1 } ∧ evIn s.iq 1 = none := by
  decide +kernel

/-- The parks whose reply lets the slot go on, once the event of id 1 is bound or has left the queue. -/
theorem wit_reply_forms : let s := fun c => { parkedOn .memory false c with bound := [anEvent (.atomic .add 1 0) [1, 2, 3, 4]] }
    (∀ c ∈ ([.atomic 7 true 1, .atomic 7 false 1, .store 1, .fence 1, .reply 7 5] : List Cont),
      (slotAt (s c) 0).park = some { reason := .memory, abandon := false, cont := c } ∧ (s c).cur = .slot 0 ∧ evIn (s c).iq 1 = none ∧
      (evIn (s c).bound 1).map (fun e => e.poisoned) = some false) := by decide +kernel
/-- An event that may not go: the write's bytes are not there, a fence stands before a read, an earlier write is in transit towards the
same point. -/
theorem wit_order_waits : acceptOk base { aWrite with data := [] } = false ∧ nextWrite { base with iq := [aWrite] } 0 = some aWrite ∧
    acceptOk { base with iq := [anEvent .fence [], { aWrite with id := 2 }] } { aWrite with id := 2 } = false ∧
    bindOk { base with iq := [anEvent .fence [], { anEvent .read [] with id := 2 }] } { anEvent .read [] with id := 2 } = false ∧
    advanceOk { base with transit := [aWrite, { aWrite with id := 2 }] } { aWrite with id := 2 } = false ∧
    atomicOk { base with iq := [anAtomic], transit := [{ aWrite with thread := 5 }] } anAtomic = false := by decide +kernel
/-- A byte in transit at the core's buffer, at the cluster point and at home alone. -/
theorem wit_youngest : (∀ e ∈ [aWrite], e.data.length = e.addrs.length) ∧ (aWrite.path.head? == some (Point.cluster 0)) = true ∧
    aWrite.addrs.contains (flatScratch 0 0) = true ∧ isWindow (flatScratch 0 0) = false ∧ isMetadata (flatScratch 0 0) = false := by
  decide +kernel
theorem wit_fence_waits : (¬ ∀ x ∈ [aWrite], x.thread = threadOf base.cur → x.id < 2 → PerformedAt (scopeOf 4) x) ∧
    (∀ x ∈ [{ aWrite with path := [] }], x.thread = threadOf base.cur → x.id < 2 → PerformedAt (scopeOf 4) x) := by
  refine ⟨fun h => absurd (h aWrite (List.mem_singleton.2 rfl) (by decide) (by decide)) (show ¬ ([Point.cluster 0] = []) by decide), ?_⟩
  intro x hx _ _
  obtain rfl := List.mem_singleton.1 hx
  exact (rfl : ([] : List Point) = [])
theorem wit_fence : base.iq = [] ∧ fenceOk base (fenceEv base 1 4) = true ∧
    (let s := { base with transit := [aWrite], nextId := 2 }; fenceOk s (fenceEv s 2 4) = false) := by decide +kernel
/-- A fence alone holds; an acquire fence behind a read, and a release fence behind a write in transit, do not. -/
theorem wit_fence_holds : let f := anEvent .fence []
    (∀ x, ¬ Before { base with iq := [f] } f x) ∧ ReadsMem (anEvent .read []) ∧
    Before { base with iq := [anEvent .read [], { f with id := 2 }] } { f with id := 2, order := .acquire } (anEvent .read []) ∧
    SentBefore { base with transit := [aWrite] } { f with id := 2, order := .release, scope := .system } aWrite ∧
    ¬ PerformedAt .system aWrite := by
  refine ⟨?_, .inl rfl, ⟨List.mem_cons_self .., rfl, by decide⟩, ⟨List.mem_singleton.2 rfl, rfl, by decide⟩, by simp [PerformedAt, aWrite, anEvent]⟩
  rintro x ⟨hx, -, hid⟩
  obtain rfl := List.mem_singleton.1 hx
  exact absurd hid (by decide)
theorem wit_fence_step : let f := anEvent .fence []
    ([f].find? fun e => e.thread == f.thread && e.kind.isFence) = some f ∧ fenceOk { base with iq := [f] } f = true := by
  decide +kernel
/-! ### Vector instructions: witnesses -/

theorem wit_vec_ready : VecReady base 0 ∧ VecReady (withVec fun x => { x with vtype := 1 }) 0 ∧
    VecReady (withVec fun x => { x with vtype := 2 }) 0 ∧ classWidth 0 = 32 ∧ classWidth 1 = 16 ∧ classWidth 2 = 8 := by decide +kernel

/-- Slot 0 with one instruction in its sequencer, single and ganged with slot 1. -/
def entryOf (h : Handed) (ganged : Bool) : SeqEntry :=
  { body := [h], step := 0, next := 0, last := 0, at_ := 0, pc := 16, ganged := ganged }
def queued (h : Handed) : State := withVec fun x => { x with seq := [entryOf h false] }
def pairOf (x : VecSt → VecSt) : State :=
  { base with slots := [(0, { slot0 with ganged := true, vec := x slot0.vec }),
                        (1, { slot0 with ganged := true, vec := { VecSt.reset with bank := some 1 } })] }
def queuedPair (h : Handed) : State := pairOf fun x => { x with seq := [entryOf h true] }

/-- Every instruction can stand at the head of a sequencer, with no flag enabled. -/
theorem wit_vec_head (h : Handed) : HeadIs (queued h) 0 (entryOf h false) [] h ∧ enabledFlags (queued h) 0 = 0 :=
  ⟨⟨rfl, rfl, rfl, rfl, rfl, rfl, ⟨⟨0, by decide, rfl⟩, by intro e; cases e⟩, nofun, fun i hi => absurd (show i < 0 from hi) (Nat.not_lt_zero i)⟩,
    (show enabledFlags (queued h) 0 = enabledFlags base 0 from rfl).trans (by decide +kernel)⟩
theorem wit_vec_head_ganged (h : Handed) : HeadIs (queuedPair h) 0 (entryOf h true) [] h ∧ enabledFlags (queuedPair h) 0 = 0 :=
  ⟨⟨rfl, rfl, rfl, rfl, rfl, rfl, ⟨⟨0, by decide, rfl⟩, fun _ => ⟨rfl, 1, by decide, rfl, fun e => nomatch Option.some.inj e⟩⟩, nofun,
      fun i hi => absurd (show i < 0 from hi) (Nat.not_lt_zero i)⟩,
    (show enabledFlags (queuedPair h) 0 = enabledFlags base 0 from rfl).trans (by decide +kernel)⟩

/-- The type codes of R148: a float, an integer and none; and lanes that are active, and none. -/
theorem wit_reductions : xty 0 0 = some (.flt fp32) ∧ xty 0 1 = some (.int true) ∧ xty 0 2 = some (.int false) ∧ xty 0 3 = none ∧
    xty 1 3 = some (.flt fp16) ∧ xty 2 0 = none ∧ (XTy.flt fp32).isFlt = true ∧ (XTy.int true).isFlt = false ∧
    maskBit base 0 32 0 31 = true ∧ maskBit base 0 32 1 31 = false := by decide +kernel

/-- Operands of the exact rows in FP32: 1 and 2 with 3, -1, 2 and 4; 1 - 1 and -0 - 0; the largest finite code, an infinity and two NaNs. -/
theorem wit_floats : (∀ x ∈ [0, 0x80000000, 0x3F800000, 0xBF800000, 0x40000000, 0x40400000, 0x40800000, 0x7F7FFFFF], CodeOf fp32 x ∧ IsFinite fp32 x) ∧
    unitsOf fp32 0x3F800000 + unitsOf fp32 0x40000000 = unitsOf fp32 0x40400000 ∧ unitsOf fp32 0x40400000 ≠ 0 ∧
    unitsOf fp32 0x3F800000 - unitsOf fp32 0x40000000 = unitsOf fp32 0xBF800000 ∧
    unitsOf fp32 0x40000000 * unitsOf fp32 0x40000000 = unitsOf fp32 0x40800000 * oneUnits fp32 ∧
    unitsOf fp32 0x40000000 * oneUnits fp32 + unitsOf fp32 0x3F800000 * unitsOf fp32 0x40000000 = unitsOf fp32 0x40800000 * oneUnits fp32 ∧
    unitsOf fp32 0x3F800000 * oneUnits fp32 - unitsOf fp32 0x3F800000 * unitsOf fp32 0x40000000 = unitsOf fp32 0xBF800000 * oneUnits fp32 ∧
    unitsOf fp32 0x40800000 * oneUnits fp32 = unitsOf fp32 0x40000000 * unitsOf fp32 0x40000000 ∧
    unitsOf fp32 0x3F800000 + unitsOf fp32 0xBF800000 = 0 ∧ unitsOf fp32 0x80000000 = 0 ∧ unitsOf fp32 0xBF800000 < 0 ∧
    (CodeOf fp32 0x7F800000 ∧ IsInf fp32 0x7F800000) ∧ (IsInf fp32 0xFF800000 ∧ signOf fp32 0xFF800000 = true) ∧
    signOf fp32 0x7F800000 = false ∧ (CodeOf fp32 0x7F800001 ∧ IsNaN fp32 0x7F800001) ∧ IsNaN fp32 0xFFFFFFFF ∧ ¬ IsNaN fp32 0x7F800000 := by
  decide +kernel
/-- The same of the other formats: their largest finite codes, infinities and NaNs. -/
theorem wit_floats16 : IsFinite bf16 0x7F7F ∧ IsInf bf16 0x7F80 ∧ IsNaN bf16 0x7F81 ∧ IsFinite fp16 0x7BFF ∧ IsInf fp16 0x7C00 ∧
    IsNaN fp16 0x7C01 ∧ CodeOf fp16 0xFFFF ∧ ¬ CodeOf fp16 0x10000 := by decide +kernel
/-- Lanes of a reduction: 1 and 2 with the sum 3, 1 and -1, -0 twice, and a NaN among them or alone. -/
theorem wit_sums : ([0x3F800000, 0x40000000].map (unitsOf fp32)).sum = unitsOf fp32 0x40400000 ∧ ([0x3F800000, 0xBF800000].map (unitsOf fp32)).sum = 0 ∧
    ([0x80000000, 0x80000000].map (unitsOf fp32)).sum = 0 ∧ ([0x80000000, 0x80000000].all fun x => x == zeroCode fp32 true) = true ∧
    (∃ x ∈ [0x7FC00000, 0x3F800000], IsNaN fp32 x) ∧ (∃ x ∈ [0x7FC00000, 0x3F800000], ¬ IsNaN fp32 x) ∧ (∀ x ∈ [0x7FC00000], IsNaN fp32 x) := by
  decide +kernel

/-- VNAR in blocks of 16 and 256 lanes: groups of 1 and 8 registers at class w32; v8 starts a group of 8 and v4 does not. -/
theorem wit_conversions : (slotAt base 0).vec.vtype < 2 ∧ max 1 (16 / 32) = 1 ∧ 256 / 32 = 8 ∧ (8 : BitVec 6).toNat % 8 = 0 ∧
    (4 : BitVec 6).toNat % 8 ≠ 0 := by decide +kernel
/-- A conversion at the head of slot 0's sequencer, with v2 of its bank as given; class w16 for a c of 1. -/
def conv (i : Instr) (c : Nat) : Handed :=
  { instr := i, pc := 16, sa := 0, sb := 0, seed := 0, cls := c, mask := BitVec.allOnes 128, maskOdd := 0, lanes := [], extra := [] }
def converting (i : Instr) (c : Nat) (v : BitVec 1024) : State :=
  setCore (queued (conv i c)) 0 { core0 with banks := core0.banks.set 0 { Bank.zero with v := Bank.zero.v.set 2 v } }
/-- Every conversion can stand at the head, with no flag enabled, over any register. -/
theorem wit_conv (i : Instr) (c : Nat) (v : BitVec 1024) :
    HeadIs (converting i c v) 0 (entryOf (conv i c) false) [] (conv i c) ∧ enabledFlags (converting i c v) 0 = 0 :=
  ⟨⟨rfl, rfl, rfl, rfl, rfl, rfl, ⟨⟨0, by decide, rfl⟩, by intro e; cases e⟩, nofun, fun i hi => absurd (show i < 0 from hi) (Nat.not_lt_zero i)⟩,
    (show enabledFlags (converting i c v) 0 = enabledFlags base 0 from rfl).trans (by decide +kernel)⟩
/-- Lanes of v2: zeros; an infinity in lane 0 of a block of 16; 448 and the NaN in E4M3; a 32-bit 0x7FFF and 0x8000, which fit in 16 bits
and do not. -/
theorem wit_conv_lanes : let reg := fun (v : BitVec 1024) => bankReg (bankOfSlot (converting (.vhad 1 2 0 1) 0 v) 0) 2
    (∀ z < 32, el 32 (reg 0) z % 2 ^ 31 = 0) ∧ (∃ z < 16, z / 16 = 0 ∧ ¬ IsFinite fp32 (el 32 (reg 0x7F800000) z)) ∧
    (el 8 (reg 0x7E) 0 % 2 ^ 7 ≠ 2 ^ 7 - 1 ∧ ¬ el 8 (reg 0x7F) 0 % 2 ^ 7 ≠ 2 ^ 7 - 1) ∧ IsFinite e5m2 (el 8 (reg 0x7B) 0) ∧
    (BitVec.ofNat 32 (el 32 (reg 0x7FFF) 0)).toInt = 2 ^ 15 - 1 ∧ (∃ z < 32, (2 : Int) ^ 15 - 1 < (BitVec.ofNat 32 (el 32 (reg 0x8000) z)).toInt) ∧
    lookup (coreAt (converting (.vtbl 1 2 0 3 0) 0 0) 0).tables 3 = none ∧ (1 : BitVec 6).toNat + 1 ≤ 64 ∧ (56 : BitVec 6).toNat + 8 ≤ 64 ∧
    halvesOf 0 false = [0] ∧ (∀ z < 32, halfOf 0 32 z = 0) := by decide +kernel

/-- A saturating addition that overflows, with OF enabled. -/
def tops : Handed :=
  { instr := .vaddsI32 1 2 2 0, pc := 16, sa := 0, sb := 0, seed := 0, cls := 0, mask := 0, maskOdd := 0, lanes := [], extra := [] }
def overflows : State :=
  let s := withSlot { slot0 with sc := { sc0 with fpmode := 0x10 }, vec := { slot0.vec with seq := [entryOf tops false] } }
  setCore s 0 { core0 with banks := core0.banks.set 0 { Bank.zero with v := Bank.zero.v.set 2 0x7FFFFFFF } }
theorem wit_freeze : HeadIs overflows 0 (entryOf tops false) [] tops :=
  ⟨rfl, rfl, rfl, rfl, rfl, rfl, ⟨⟨0, by decide, rfl⟩, by intro e; cases e⟩, nofun, fun i hi => absurd (show i < 0 from hi) (Nat.not_lt_zero i)⟩
theorem wit_freeze_flags : isMatrix tops.instr = false ∧ isVecLoad tops.instr = false ∧ isVecStore tops.instr = false ∧
    isVecAtomic tops.instr = false ∧
    (vecEffect tops.instr (viewOfEntry overflows 0 (entryOf tops false) tops)).flags &&& enabledFlags overflows 0 ≠ 0 := by
  decide +kernel

/-- An entry that freezes while its slot is parked on a matrix instruction behind it: the park ends; and the park of the entry itself. -/
noncomputable def overflowsBehind : State :=
  setSlot overflows 0 { slotAt overflows 0 with
    state := .parked, park := some { reason := .matrix, abandon := false, cont := .matrix }
    vec := { (slotAt overflows 0).vec with seq := [entryOf tops false, entryOf { tops with instr := .mma 0 0 0 } false] } }
theorem wit_freeze_behind : (slotAt overflowsBehind 0).park = some { reason := .matrix, abandon := false, cont := .matrix } ∧
    ParkReason.matrix ≠ ParkReason.sequencer ∧ (coreAt overflowsBehind (coreOfSlot 0)).matrixRun = none ∧ (slotAt overflows 0).park = none ∧
    (slotAt overflowsBehind 0).vec.seq = [entryOf tops false, entryOf { tops with instr := .mma 0 0 0 } false] ∧
    (vecEffect tops.instr (viewOfEntry overflowsBehind 0 (entryOf tops false) tops)).flags &&& enabledFlags overflowsBehind 0 ≠ 0 := by
  refine ⟨?_, ?_, ?_, ?_, ?_, ?_⟩ <;> decide +kernel

theorem wit_bank : vecHidden slot0 = false ∧ slot0.vec.bank ≠ none ∧ slot0.vec.seq = [] ∧ slot0.ganged = false ∧
    (coreAt base 0).bankQueue = [] ∧ tl base = 0 := by decide +kernel
theorem wit_bank_waits (h : Handed) : (slotAt (queued h) 0).vec.seq = [entryOf h false] ∧ (slotAt (queued h) 0).vec.frozen = false ∧
    (slotAt (queued h) 0).ganged = false := ⟨rfl, rfl, rfl⟩
/-- No bank is bound, and bank 3 is the lowest that is free. -/
def bankless : State := setCore (withVec fun x => { x with bank := none }) 0
  { core0 with holders := ((core0.holders.set 0 (some 4)).set 1 (some 5)).set 2 (some 6) }
theorem wit_bank_binds : (slotAt bankless 0).vec.bank = none ∧ (coreAt bankless 0).holders.toList.getD 3 none = none ∧
    (∀ j < 3, (coreAt bankless 0).holders.toList.getD j none ≠ none) := by decide +kernel

/-- The partner of slot 0 waits in GANG, or does not; the pair. -/
def partnerWaits : State :=
  { base with slots := [(0, slot0), (1, { slot0 with
      state := .parked, vec := { VecSt.reset with bank := some 1 }, park := some { reason := .join, abandon := false, cont := .join } })] }
theorem wit_gang : partnerOf 0 = 1 ∧ base.cur = .slot 0 ∧ (slotAt base 1).park = none ∧ (slotAt base 1).state ≠ .splitWait ∧
    tl partnerWaits = 0 ∧ (slotAt partnerWaits 1).park = some { reason := .join, abandon := false, cont := .join } ∧
    (slotAt partnerWaits 1).vec.bank ≠ none ∧ (slotAt partnerWaits 1).world = (slotAt partnerWaits 0).world ∧
    ¬ AtLoopEnd partnerWaits ∧ (slotAt (pairOf id) 0).ganged = true := by decide +kernel
/-- The greatest even slot that may gang. -/
theorem wit_gang_top : 13 % 16 < 14 ∧ partnerOf 12 = 13 := by decide

/-- VLOOP 1, s2, 20 after one VADDS of v1 to v2: v2 + 3 * 20 = 62. -/
def looped : State := withVec fun x => { x with recent := [tops] }
theorem wit_vloop : VecReady looped 0 ∧ (1 : BitVec 6).toNat ≤ (slotAt looped 0).vec.recent.length ∧
    (vecFields tops.instr) = some [1, 2, 2] ∧ (rd looped 2).toNat = 3 ∧ (2 : BitVec 6).toNat + 3 * 20 ≤ 63 ∧
    (rd looped 0).toNat = 0 ∧ groupLen tops.instr = 0 := by decide +kernel
/-- The same with a group: VNAR from the 8 registers of v8, whose copy at v12 starts no group of 8. -/
def loopedGroup : State := withVec fun x => { x with recent := [{ tops with instr := .vnar 8 8 0 3 1 }] }
theorem wit_vloop_group : ∀ h ∈ (slotAt loopedGroup 0).vec.recent.take 1, vecFields h.instr = some [8, 8] ∧ groupLen h.instr = 256 ∧
    8 + 3 * 4 ≤ 63 ∧ (8 + (0 + 1) * 4) % max 1 (groupLen h.instr / (1 * (1024 / classWidth h.cls))) ≠ 0 := by decide +kernel
theorem wit_vloop_replay : let e : SeqEntry := { body := [tops], step := 20, next := 1, last := 3, at_ := 0, pc := 16, ganged := false }
    let s := withVec fun x => { x with seq := [e] }
    e.body[e.at_]? = some tops ∧ (vecFields tops.instr).isSome = true ∧ e.next < e.last ∧ enabledFlags s 0 = 0 := by decide +kernel
/-! ### Vector memory: witnesses -/

/-- A full register at 0x3F80, the last 128 bytes of the window: lane 31 ends at its last byte. -/
theorem wit_vld : (0 + offsetOf (BitVec.ofNat 64 0x3F80) 0 + 0) % 64 = 0 ∧ PointerOk (BitVec.ofNat 64 0x3F80) ∧ SegmentOk base 0 1 ∧
    SegmentOk base 0 2 ∧ SegmentOk base 0 11 ∧ (segOf base base.cur 0).w0.toNat / 2 ^ 57 = 2 ∧
    0x3F80 + 31 * 4 + 4 ≤ (segOf base base.cur 0).w1.toNat % 2 ^ 48 + 1 ∧ (0x3F80 + 31 * 4) % 4 = 0 ∧
    winBase slot0 ≤ 0x3F80 ∧ 0x3F80 + 31 * 4 + 4 ≤ winBase slot0 + winLen slot0 := by decide +kernel
/-- Without an active lane: a pointer with reserved bits, and bases that are not aligned. -/
theorem wit_vmem_idle : (∀ j < 32, maskBit base 0 32 1 j = false) ∧ (∀ e ∈ (slotAt base 0).vec.seq, ∀ h ∈ e.body, maskWritten h.instr ≠ some 1) ∧
    ¬ PointerOk (BitVec.ofNat 64 (22 * 2 ^ 59)) ∧ PointerOk 2 ∧ (0 + offsetOf 2 0) % 64 ≠ 0 ∧ (0 + offsetOf 2 0) % 4 ≠ 0 := by decide +kernel
/-- One of every element: stride 0, an index group of one register, the mask forms at 0x3FF0, FP32, E4M3 and raw formats. -/
theorem wit_vmem_forms : (0 : Word).toInt = 0 ∧ (2 : BitVec 6).toNat % (32 / 32) = 0 ∧ 0x3FF0 % 16 = 0 ∧ 0x3FF0 + 16 ≤ 0x3FFF + 1 ∧
    fmtOk 0 0 = true ∧ isMx 0 = false ∧ fmtOk 2 0 = true ∧ isMx 2 = false ∧ (slotAt base 0).vec.vtype < 2 ∧
    elemWidth 2 % 8 = 0 ∧ (∃ c < 22, isNarrow c = true ∧ fmtOk c 0 = true ∧ isMx c = false) := by decide +kernel

/-- A load whose single event is bound, and a store whose single event waits for its bytes. -/
def memHead (i : Instr) : Handed :=
  { instr := i, pc := 16, sa := 0, sb := 0, seed := 0, cls := 0, mask := BitVec.allOnes 128, maskOdd := 0, lanes := [(0, [1])], extra := [] }
def lmEvent (k : EvKind) (n : Nat) (data : List Byte) : MemEv :=
  { anEvent k data with addrs := (List.range n).map (flatLocal 0), space := .lm, path := [] }
def ones (n : Nat) : List Byte := List.replicate n 1
theorem wit_vload : let h := memHead (.vld 3 0 0 0 0)
    let s := { queued h with bound := [lmEvent .read 128 (ones 128)] }
    boundBytes s (entryIds h) = some (ones 128) ∧ (∀ y ∈ s.bound, y.id ∈ entryIds h → y.poisoned = false ∧ y.data ≠ []) ∧
    ((List.range 32).filter fun j => h.mask.getLsbD (j % 32)).length = 32 := by decide +kernel
theorem wit_vload_mask : let h := memHead (.vldm 3 0 0 0)
    let s := { queued h with bound := [lmEvent .read 16 (ones 16)] }
    boundBytes s (entryIds h) = some (ones 16) := by decide +kernel
theorem wit_vstore : let h := memHead (.vst 3 0 0 0 0)
    let s := { queued h with iq := [lmEvent .write 128 []] }
    (entryIds h).Nodup ∧ (evIn s.iq 1).map (fun y => y.kind) = some .write ∧
    ((evIn s.iq 1).map fun y => y.addrs.length) = some 128 := by decide +kernel
/-- VLDF of 32 elements of E4M3. -/
theorem wit_vload_format : let h := { memHead (.vldf 3 0 0 0) with extra := [2, 0] }
    let s := { queued h with bound := [lmEvent .read 32 (ones 32)] }
    boundBytes s (entryIds h) = some (ones 32) ∧ isMx 2 = false ∧ h.cls < 2 ∧ (ones 32).length = 32 * elemWidth 2 / 8 := by decide +kernel
/-- VSTXA with one active lane: its write, and the atomic that it has become, performed. -/
theorem wit_vstxa : let h := { memHead (.vstxa 3 0 0 0 0) with mask := 1 }
    let s := { queued h with iq := [lmEvent .write 4 []] }
    let u := { queued h with bound := [lmEvent (.atomic .add 1 0) 4 [0, 0, 0, 0]] }
    (entryIds h).length = ((List.range 32).filter fun j => h.mask.getLsbD (j % 32)).length ∧ entryIds h ≠ [] ∧
    ((evIn s.iq 1).map fun y => y.addrs.length) = some (32 / 8) ∧ (∀ y ∈ u.iq, y.id ∈ entryIds h → y.kind ≠ .write) ∧
    boundBytes u (entryIds h) = some [0, 0, 0, 0] := by decide +kernel
/-! ### Engines: witnesses -/

theorem wit_engine : OnCluster base 0 ∧ (slotAt base 0).ganged = false ∧ (slotAt (pairOf id) 0).ganged = true ∧
    (16 : BitVec 5).toNat < 17 ∧ 2 ≤ (2 : BitVec 5).toNat := by decide +kernel

/-- Memory with the bytes given in slot 0's window; a table image with lo 0 and hi 1, and one with hi 0. -/
def localMem (l : List (Nat × Byte)) : State := { base with mem := l.map fun e => (flatLocal 0 e.1, e.2) }
theorem wit_table : let s := localMem [(6, 0x80), (7, 0x3F)]
    LocalBlock s 0 0 (rd s 0) 0 3104 64 1 ∧ Quiet s 0 := by decide +kernel
theorem image_tail : (localBytes (localMem [(6, 0x80), (7, 0x3F)]) 0 0 3104).drop 32 = List.replicate 3072 0 := by decide +kernel
theorem wit_table_ok : tableOk (localBytes (localMem [(6, 0x80), (7, 0x3F)]) 0 0 3104) = true := by
  have h : ∀ i < 768, tblWord (localBytes (localMem [(6, 0x80), (7, 0x3F)]) 0 0 3104) (32 + 4 * i) = 0 := by
    intro i hi
    obtain ⟨n, hn⟩ : ∃ n, 3072 - 4 * i = n + 4 := ⟨3068 - 4 * i, by omega⟩
    rw [tblWord, recField, ← List.drop_drop, image_tail, List.drop_replicate, hn, List.take_replicate, Nat.min_eq_left (by omega)]
    decide
  unfold tableOk
  refine Bool.and_eq_true_iff.2 ⟨by decide +kernel, List.all_eq_true.2 fun i hi => ?_⟩
  rw [h i (List.mem_range.1 hi)]
  decide
theorem wit_table_bad : tableOk (localBytes base 0 0 3104) = false := by
  unfold tableOk
  simp only [show ltF (decodeF fp32 (tblWord (localBytes base 0 0 3104) 0)) (decodeF fp32 (tblWord (localBytes base 0 0 3104) 4)) = false
    from by decide +kernel, Bool.and_false, Bool.false_and]

/-- A galley descriptor of 64 bytes and one entry at 0, the same with a reserved byte set, and one of zeros. -/
def descMem (last : Byte) : State := scratchy (localMem ([(8, 64), (12, 1), (14, 7)] ++ if last = 0 then [] else [(31, last)]))
theorem wit_glset : let s := descMem 0
    LocalBlock s 0 0 (rd s 0) 0 32 32 1 ∧ Quiet s 0 ∧ galleyAt s 0 7 = none ∧
    heldByMatrix s 0 7 = false ∧ heldByNeighbour s 0 7 = false ∧ heldByCopy s 0 7 = false := by
  refine ⟨?_, ?_, ?_, ?_, ?_, ?_⟩ <;> decide +kernel
theorem wit_glset_bytes : galleyOk (localBytes (descMem 0) 0 0 32) = true ∧
    (∃ c ∈ localBytes (descMem 0) 0 0 32, c ≠ 0) ∧ ringScratch (descMem 0) 0 0 64 = true ∧
    galleyOk (localBytes (descMem 1) 0 0 32) = false ∧ (∀ c ∈ localBytes base 0 0 32, c = 0) := by
  refine ⟨?_, ?_, ?_, ?_, ?_⟩ <;> decide +kernel

/-- Galleys 0 and 1 of core 0: FP32 or BF16 entries in SCRATCH mode, empty, with one entry, or full. -/
def gal (fmt : Nat) (tags : List Nat) (world : Nat) : Galley :=
  { world := world, raw := Vector.replicate 4 0, base := 0, size := 256, count := 2, fmt := fmt, blen := 0, bitmap := false,
    head := 1, tags := tags, pushTag := 0, pushed := none }
def withGalleys (a b : Galley) (f : SlotSt → SlotSt) : State :=
  scratchy (setCore (withSlot (f slot0)) 0 { core0 with galleys := [(0, a), (1, b)] })
def withK (x : SlotSt) (k : Word) : SlotSt := { x with vec := { x.vec with mkReg := k, mgal := 0x10 } }
theorem wit_galleys : let s := withGalleys (gal 7 [] 0) (gal 7 [0, 0] 1) fun x => withK x 2
    (galleyAt s 0 0).map (fun y => (y.world, y.tags)) = some (0, []) ∧ (galleyAt s 0 1).map (fun y => (y.world, y.tags)) = some (1, [0, 0]) ∧
    heldByMatrix s 0 0 = false ∧ elemWidth 7 = 32 ∧ isMx 7 = false ∧ (slotAt s 0).vec.mkReg ≠ 0 ∧
    32 * (slotAt s 0).vec.mkReg.toNat % 32 = 0 ∧ (62 : BitVec 6).toNat + 32 * 2 / 32 ≤ 64 ∧ 32 * 2 * 32 / 8 ≤ 256 ∧
    tagOk 0 = true ∧ tagOk 1 = false := by decide +kernel
/-- A push that waits for room in a ring that has it. -/
theorem wit_galley_room : let u := withGalleys (gal 7 [0] 0) (gal 7 [] 0) fun x =>
      { x with state := .parked, park := some { reason := .galley, abandon := false, cont := .galley 0 0 } }
    ((slotAt u 0).park.map fun p => p.cont) = some (.galley 0 0) ∧ (lookup u.slots 0).isSome = true ∧
    ((galleyAt u 0 0).map fun y => decide (y.tags.length < y.count)) = some true := by decide +kernel
/-- The matrix instruction under way reads galley 0: GLPOPD waits. -/
noncomputable def mmaHead : Handed := { memHead (.mma 0 0 0) with extra := [4, 0x10, 0, 0, 0, 0, 0, 0], lanes := [] }
noncomputable def mmaRun : MatrixRun :=
  { slot := 0, run := mmaHead, pushWest := false, pushNorth := false, productDone := false, due := 100, outs := [], tile := none, offs := [], flags := 0 }
noncomputable def running (r : Option MatrixRun) (q : List (Nat × Nat)) : State :=
  let s := withGalleys (gal 9 [0] 0) (gal 9 [0] 0) fun x =>
    { x with vec := { x.vec with seq := [entryOf mmaHead false] }, state := .parked,
             park := some { reason := .matrix, abandon := false, cont := .matrix } }
  setCore s 0 { coreAt s 0 with matrixRun := r, matrixQueue := q }
theorem wit_held : heldByMatrix (running (some mmaRun) []) 0 0 = true := by decide +kernel

/-- K = 4 in BF16 to FP32, the least that is legal: 32 rows of 4 elements of 2 bytes fill the entry. -/
theorem wit_matrix_start : let s := running none [(90, 0)]
    (coreAt s 0).matrixRun = none ∧ (coreAt s 0).matrixQueue = [(90, 0)] ∧ ((galleyAt s 0 0).map fun y => y.tags) = some [0] ∧
    ((galleyAt s 0 1).map fun y => y.tags) = some [0] ∧ pairKc 9 9 false = some 4 ∧ 4 % 4 = 0 ∧ 32 * 4 * elemWidth 9 / 8 ≤ 256 ∧
    ringScratch s 0 0 512 = true ∧ tagBlk 0 = 0 ∧ (slotAt s 0).park = some { reason := .matrix, abandon := false, cont := .matrix } := by
  decide +kernel
theorem wit_matrix_end : let s := running (some mmaRun) []
    (coreAt s 0).matrixRun.isSome = true ∧ mmaRun.due ≤ s.cycle ∧ galA mmaHead = 0 ∧ galB mmaHead = 1 ∧
    (slotAt s 0).vec.seq.length = 1 ∧ (slotAt s 0).vec.bank = some 0 ∧ enabledFlags s 0 = 0 := by decide +kernel
/-- An MMAS of K = 8 over entries in bitmap mode, with these tags: 32 + 512 bytes each. -/
noncomputable def sparseStart (ta tb : Nat) (again : Bool) : State :=
  let h := { memHead (.mmas 0 0 0) with extra := [8, 0x10, 0, 0, 0, 0, 0, 0], lanes := [] }
  let g := fun (t : Nat) => { gal 9 [t] 0 with bitmap := true, size := 544 }
  let s := withGalleys (g ta) (g tb) fun x =>
    { x with vec := { x.vec with seq := [entryOf h false] }, state := .parked,
             park := some { reason := .matrix, abandon := false, cont := if again then .matrixAgain else .matrix } }
  setCore s 0 { coreAt s 0 with matrixQueue := [(90, 0)] }
theorem wit_sparse_start : let s := sparseStart 0 0 true
    (coreAt s 0).matrixRun = none ∧ (coreAt s 0).matrixQueue = [(90, 0)] ∧ 90 < s.cycle ∧ ((galleyAt s 0 0).map fun y => (y.bitmap, y.tags, y.world)) = some (true, [0], 0) ∧
    ((galleyAt s 0 1).map fun y => (y.bitmap, y.tags)) = some (true, [0]) ∧ 8 % 4 = 0 ∧ 8 % 8 = 0 ∧ 32 * 8 / 8 + 32 * 8 * elemWidth 9 / 8 ≤ 544 ∧
    ringScratch s 0 0 (544 * 2) = true ∧ (slotAt s 0).park = some { reason := .matrix, abandon := false, cont := .matrixAgain } := by
  decide +kernel
/-- Tags of blocks of 16 with the seed 5: they agree, at K = 16 and not at K = 8; and with a seed that differs. -/
theorem wit_matrix_tags : let t := 2 ^ 34 + 5
    t / 2 ^ 34 % 4 = 1 ∧ t / 2 ^ 32 % 4 = 0 ∧ 16 % 4 ^ (t / 2 ^ 34 % 4 + 1) = 0 ∧ 8 % 4 ^ (t / 2 ^ 34 % 4 + 1) ≠ 0 ∧
    t % 2 ^ 32 ≠ (t + 1) % 2 ^ 32 ∧ ((galleyAt (sparseStart (2 ^ 34 + 5) (2 ^ 34 + 6) false) 0 0).map fun y => y.tags) = some [2 ^ 34 + 5] := by
  decide +kernel
/-- An MMA with store-out of raw words: 32 rows of 128 bytes. -/
noncomputable def outRun : MatrixRun :=
  { mmaRun with
    run := { mmaHead with instr := .mma 1 0 0, extra := [4, 0x10, 0, 7, 0, 0, 0, 0] }
    outs := List.replicate 32 [lmEvent .write 128 []] }
theorem wit_matrix_out : outRun.run.extra.getD 3 0 % 32 = 7 ∧ outRun.run.extra.getD 3 0 / 2 ^ 11 % 2 = 0 ∧ 0 < outRun.run.extra.getD 0 0 ∧
    outRun.outs.length = 32 ∧ (∀ row ∈ outRun.outs, (row.map fun v => v.addrs.length).sum = 128) ∧ outRun.tile = none ∧
    galA outRun.run ≠ galB outRun.run := by
  refine ⟨?_, ?_, ?_, ?_, ?_, ?_, ?_⟩ <;> decide +kernel
/-- Products of zeros: INT8 and MXINT8 over an accumulator of 0, and BF16 over one of 1, which every group leaves. -/
theorem wit_product : (let old : Int := 0; -(2 ^ 31) ≤ old - 8 * 2 ^ 14 ∧ old + 8 * 2 ^ 14 < 2 ^ 31) ∧ 1 ∈ [1, 20] ∧ 8 % 8 = 0 ∧
    (let s := setCore (running (some mmaRun) []) 0 { coreAt (running (some mmaRun) []) 0 with
       banks := core0.banks.set 0 { Bank.zero with v := Bank.zero.v.set 0 0x3F800000 } }
     el 32 (bankReg (bankOfSlot s 0) (32 * 0 + 0)) 0 = 0x3F800000 ∧ IsFinite fp32 0x3F800000 ∧ unitsOf fp32 0x3F800000 ≠ 0 ∧ 4 % 4 = 0 ∧
     (∀ v < 32, ∀ x < 4, codeOf s 0 (gal 9 [0] 0) 4 v x = 0) ∧ IsFinite bf16 0 ∧ unitsOf bf16 0 = 0) := by
  refine ⟨?_, ?_, ?_, ?_, ?_, ?_, ?_, ?_, ?_, ?_⟩ <;> decide +kernel
/-- Element 0 of row 0 of A is an infinity, which meets a 0, and every flag is enabled. -/
noncomputable def nanRun : State :=
  let s := running (some mmaRun) []
  setSlot { s with mem := [(flatScratch 0 256, 0x80), (flatScratch 0 257, 0x7F)] } 0
    { slotAt s 0 with sc := { (slotAt s 0).sc with fpmode := 0x7C } }
theorem wit_matrix_flags : ((coreAt nanRun 0).matrixRun.bind fun r => (galleyAt nanRun 0 0).bind fun a => (galleyAt nanRun 0 1).map fun b =>
    decide ((runProduct nanRun 0 r a b).2 &&& enabledFlags nanRun 0 ≠ 0)) = some true := by decide +kernel

/-- An MMR of core 5 whose product is done: its west neighbour is core 4, its north neighbour core 1. -/
noncomputable def mmrState (full : Bool) : State :=
  let r := { mmaRun with run := { mmaHead with instr := .mmr 0 0 0, extra := [4, 0x3210, 0, 0, 0, 0, 0, 0] }, productDone := true, pushWest := true, pushNorth := true }
  let dest := { CoreSt.reset with galleys := [(2, gal 9 (if full then [0, 0] else [0]) 0), (3, gal 9 (if full then [0, 0] else [0]) 0)] }
  scratchy { base with cores := [(1, dest), (4, dest), (5, { CoreSt.reset with matrixRun := some r, galleys := [(0, gal 9 [7] 0), (1, gal 9 [8] 0)] })] }
theorem wit_mmr : let s := mmrState false
    ((coreAt s 5).matrixRun.map fun r => (galA r.run, galB r.run, galW r.run, galN r.run)) = some (0, 1, 2, 3) ∧
    ((galleyAt s 4 2).map fun x => decide (x.tags.length < x.count)) = some true ∧
    ((galleyAt s 1 3).map fun x => decide (x.tags.length < x.count)) = some true ∧ MemoryOk s ∧
    ((galleyAt (mmrState true) 4 2).map fun x => decide (x.count ≤ x.tags.length)) = some true ∧
    5 - 5 % 4 + (5 % 4 + 3) % 4 = 4 ∧ 5 - 5 % 16 + (5 % 16 + 12) % 16 = 1 := by decide +kernel

/-- A copy of 8 raw bytes from the window to the scratchpad, on channel 0; the same to 0x100 of the window. -/
def copyTo (g : BitVec 3) (ptr : Word) : State :=
  scratchy (withSlot { slot0 with eng := { EngineSt.reset with
    cpdst := { seg := g, ptr := ptr, disp := 0 }
    cp := ((((EngineSt.reset.cp.set 2 8).set 3 1).set 4 1).set 5 1).set 14 0x40 } })
def copying : State := copyTo 4 0
theorem wit_copy_launch : (match resolveJob copying with | .ok j => j.total == 8 | _ => false) = true ∧
    (chanAt copying 0 0).state ≠ .running ∧ (chanAt copying 0 0).claim = none ∧ copying.iq = [] ∧ copying.transit = [] := by
  decide +kernel

/-- An earlier access of the slot stands before the launch's fence; and the claim waits while the fence does, and after it. -/
def launching (l : List MemEv) : State :=
  let j : CopyJob := match resolveJob copying with | .ok j => j | _ => CopyJob.reset
  let s := setChan copying 0 0 { Chan.reset with claim := some (0, j) }
  { setSlot s 0 { slotAt s 0 with state := .parked, park := some { reason := .memory, abandon := false, cont := .launch 7 5 } } with iq := l, nextId := 6 }
theorem wit_copy_waits : let s := { copying with iq := [aWrite], nextId := 2 }
    (∃ e ∈ s.iq, e.thread = 0 ∧ e.id < s.nextId) ∧ (match resolveJob s with | .ok j => j.total == 8 | _ => false) = true ∧
    (chanAt s 0 0).state ≠ .running ∧ (chanAt s 0 0).claim = none := by decide +kernel
theorem wit_copy_claim : let s := launching []
    (slotAt s 0).park = some { reason := .memory, abandon := false, cont := .launch 7 5 } ∧ (∀ e ∈ s.iq, e.id ≠ 5) ∧
    ((chanAt s 0 0).claim.map fun q => (q.1, decide (q.2.total ≠ 0))) = some (0, true) ∧ (0, chanAt s 0 0) ∈ (clusterAt s 0).chans ∧
    (∀ q ∈ (clusterAt s 0).chans, ∀ y, q.2.claim = some y → y.1 = 0 → q = (0, chanAt s 0 0)) := by
  refine ⟨?_, ?_, ?_, ?_, ?_⟩
  · decide +kernel
  · decide +kernel
  · decide +kernel
  · decide +kernel
  · have one : (clusterAt (launching []) 0).chans = [(0, chanAt (launching []) 0 0)] := by decide +kernel
    intro q hq _ _ _
    rw [one] at hq
    exact List.mem_singleton.1 hq

/-- A channel of slot 0 in a state, with a transfer of a world and bytes written. -/
def chan (st : ChanState) (world written : Nat) : State :=
  let j : CopyJob := match resolveJob copying with | .ok j => { j with world := world } | _ => CopyJob.reset
  setChan copying 0 0 { Chan.reset with seq := 1, state := st, id := 1, job := j, written := written }
theorem wit_copy_status : ((chanAt (chan .running 0 0) 0 0).id ≠ 0 ∧ (chanAt (chan .running 0 0) 0 0).job.world = 0) ∧
    (chanAt (chan .running 1 0) 0 0).job.world ≠ 0 ∧ (chanAt (chan .cancelled 0 0) 0 0).state ≠ .running ∧
    (chanAt (chan .running 0 0) 0 (1 / 4096)).id = 1 ∧ 1 % 4096 ≠ 0 := by decide +kernel
/-- The bytes of such a copy into the window stand ready. -/
def copyReady : State :=
  let j : CopyJob := match resolveJob (copyTo 0 0x100) with | .ok j => j | _ => CopyJob.reset
  setChan base 0 0 { Chan.reset with seq := 1, state := .running, id := 1, job := j, entryBytes := [1, 2, 3, 4, 5, 6, 7, 8] }
theorem wit_copy_ready : let c := chanAt copyReady 0 0
    c.state = .running ∧ c.waiting = false ∧ c.job.dst.kind = 0 ∧ c.job.dst.tile = none ∧ isMx c.job.dst.fmt = false ∧ c.entryScales = [] ∧
    readyRun (byteCva c.job) 16 c.written c.entryBytes.length c.job.bytes = 8 ∧
    (∀ i < 8, lineOpens copyReady c.job.dst.dom (flatLocal c.job.core (byteCva c.job (c.written + i))) = true) := by decide +kernel
/-- A copy of raw bytes within the window, of which none stands ready. -/
def copyEmpty : State := setChan copyReady 0 0 { chanAt copyReady 0 0 with entryBytes := [] }
theorem wit_copy_read : let c := chanAt copyEmpty 0 0
    c.state = .running ∧ c.waiting = false ∧ c.job.dst.kind = 0 ∧ c.job.src.kind = 0 ∧ c.job.src.tile = none ∧ c.job.src.fmt ∈ [0, 1, 2] ∧
    c.job.dst.fmt = c.job.src.fmt ∧ c.job.srcMorton = false ∧ c.job.dstMorton = false ∧ c.job.group = 1 ∧ c.job.same = true ∧
    c.entryScales = [] ∧ readyRun (byteCva c.job) 16 c.written c.entryBytes.length c.job.bytes = 0 ∧ 0 < c.job.total ∧ unitLen c.job 0 = 8 ∧
    (∀ i < 8, lineOpens copyEmpty c.job.src.dom (flatLocal c.job.core (c.job.src.base + i)) = true) := by decide +kernel
theorem wit_copy_write : (match (deliverUnit (chan .running 0 0) 0 0).2 with | .ok _ => true | _ => false) = true ∧
    (chanAt (chan .running 0 0) 0 0).waiting = false := by decide +kernel
/-- A unit that cannot be written: the scratchpad bank has left SCRATCH mode. -/
theorem wit_copy_fault : (match (deliverUnit (let s := chan .running 0 0
      setCluster (setChan s 0 0 { chanAt s 0 0 with entryBytes := List.replicate 8 0 }) 0
        { clusterAt (setChan s 0 0 { chanAt s 0 0 with entryBytes := List.replicate 8 0 }) 0 with modes := ClusterSt.reset.modes }) 0 0).2 with | .error (.cause _) => true | _ => false) = true := by
  decide +kernel
theorem wit_copy_end : let s := chan .running 0 8
    (chanAt s 0 0).written = (chanAt s 0 0).job.total * elemWidth (chanAt s 0 0).job.dst.fmt / 8 ∧
    chanWp s 0 0 = (chanAt s 0 0).written ∧ (chanAt s 0 0).job.slot < 2 ^ 15 ∧
    (chanAt s 0 0).state = .running ∧ (chanAt s 0 0).written = (chanAt s 0 0).job.bytes ∧ chanWp s 0 0 = (chanAt s 0 0).job.bytes ∧
    (chanAt s 0 0).job.regs.toList.getD 14 0 ≠ 0 ∧ (slotAt s 0).eng.queue.length < 4 ∧
    (∀ y ∈ (slotAt s 0).eng.queue, y.clock = s.cycle → y.chan ≤ 0) ∧ (slotAt s 0).park = none := by decide +kernel
theorem wit_completion : let s := withSlot { slot0 with
      sc := { sc0 with uienEn := true }, eng := { EngineSt.reset with queue := [{ xfer := 1, handler := 0x40, depth := 0, clock := 0 }] } }
    takeable s 0 = true ∧ (slotAt s 0).park = none ∧ (slotAt s 0).eng.pending = 0 := by decide +kernel
/-- The head of the queue enters: from a Ready slot, and from one parked for the transfer; the completion is of this depth. -/
theorem wit_completion_enters : let q := [{ xfer := 1, handler := 0x40, depth := 0, clock := 0 }]
    let x := { slot0 with sc := { sc0 with uienEn := true }, eng := { EngineSt.reset with queue := q } }
    let y := { x with state := .parked, park := some { reason := .copy, abandon := true, cont := .transfer 1 } }
    x.eng.queue = q ∧ x.tr.tl = 0 ∧ x.sc.uienEn = true ∧ hdepth x = 0 ∧ x.vec.deferred = none ∧ x.unwind = none ∧ x.ganged = false ∧
    x.state = .ready ∧ x.park = none ∧ x.eng.pending = 0 ∧ hdepth y = 0 ∧ NotHeld (withSlot x) 0 ∧ NotHeld (withSlot y) 0 := by decide +kernel
/-! ### Tiles and tasks: witnesses -/

/-- Stage 1 maps PVAs below 1 GiB to the same GPAs, and stage 2 frame 0 to the device's first frame, with every right (R347, R350). -/
def pageBytes : List (Nat × Byte) := [(0, 1), (2, 0x10), (0x100000, 0x7F), (0x30000000, 0x3F)]
def paged (l : List (Nat × Byte)) : State := { base with mem := pageBytes ++ l.map fun e => (flatLocal 0 e.1, e.2) }

/-- The record of a tile of 8,192 bytes at 0x1000: INT8, one dimension. -/
def recordState : State := paged [(1, 0x10), (9, 0x20), (12, 1), (16, 1), (20, 1), (36, 1)]
theorem wit_treg : let bs := localBytes recordState 0 0 64
    fmtOk (recShape bs).fmt (recShape bs).blen = true ∧ recTagOk (recShape bs) (recField bs 42 5 % 2 ^ 36) = true ∧
    recOk bs (recShape bs) = true ∧ (recShape bs).ext = 8192 ∧ Quiet recordState 0 ∧ MemoryOk recordState := by
  refine ⟨?_, ?_, ?_, ?_, ?_, ?_⟩ <;> decide +kernel
theorem wit_treg_access : LocalBlock recordState 0 0 (rd recordState 0) 0 64 64 1 := by decide +kernel
theorem wit_treg_pages : (match footPages recordState 0 [0x1000, 0x2000] with
    | .ok (s2, l) => s2.cur == base.cur && l == [0x1000, 0x2000] && (partAt s2 0).isSome
    | _ => false) = true ∧ freeIndex part0 < 2 ^ 12 := by decide +kernel

/-- That tile, registered at index 3 with generation 1, and slot 0 with its handle in s7. -/
def tile0 : Tile :=
  { base := 0x1000, ext := 8192, dims := [8192, 1, 1, 1], strides := [0, 0, 0], fmt := 1, blen := 0, morton := false, rank := 1,
    owner := 0, kdom := 0, tag := 0, state := 0, version := 0, parent := 0, oldest := 0, basePages := [0x1000, 0x2000],
    frames := [{ slot := 0, version := 0, pages := [0x1000, 0x2000], pooled := [false, false], publishTime := 0, nextTime := none, held := none }],
    shadow := none, agent := 0, tokens := [(0, 64)], home := 0, requests := [], pins := [], firstChild := 0, children := 0 }
def withTile (t : Tile) (f : SlotSt → SlotSt) : State :=
  { paged [] with
    slots := [(0, f { slot0 with sc := { sc0 with s := (sc0.s.set 7 0x100003).set 8 0x200 } })]
    parts := [(0, { part0 with tiles := [(3, { gen := 1, retired := false, tile := some t })] })] }
def withTenures (t : Tile) (l : List Tenure) : State := withTile t fun x => { x with eng := { x.eng with tenures := l } }
def held (write : Bool) : Tenure := { handle := 0x100003, write := write, granted := true, version := 1, depth := 0 }
def shadow0 : Shadow := { slot := 0, version := 1, frameNo := none, pages := [none, none] }
def isLive (s : State) : Bool := (liveTile s 0x100003).map (fun q => (q.1, q.2.1)) == some (0, 3)

theorem wit_tile : isLive (withTile tile0 id) = true ∧ liveTile base 0 = none ∧ (rd (withTile tile0 id) 7).toNat % 2 ^ 32 = 0x100003 ∧
    tileHandle (withTile tile0 id) 0 3 = 0x100003 ∧ tenureOn (withTile tile0 id) 0x100003 = none ∧
    (tenureOn (withTenures tile0 [held false]) 0x100003).isSome = true ∧
    (∀ f ∈ tile0.frames, f.version = tile0.version → f.pages = tile0.basePages) := by decide +kernel
/-- Its published version stands in the footprint's own frames, or its first page stands in one of the pool. -/
theorem wit_tile_pages : pagesToReturn (withTile tile0 id) 0 tile0 = [] ∧
    pagesToReturn (withTile tile0 id) 0 { tile0 with frames := [{ slot := 0, version := 0, pages := [0x3FFFFF000, 0x2000], pooled := [true, false], publishTime := 0, nextTime := none, held := none }] } = [(0x3FFFFF000, 0x1000)] ∧
    (tileIx (withTile tile0 id) 0 3).map (fun ix => ix.gen) = some 1 := by refine ⟨?_, ?_, ?_⟩ <;> decide +kernel
/-- Not the owner, split, and in use. -/
theorem wit_tile_kept : ¬ (65 = (slotAt base 0).world ∨ (slotAt (withTile tile0 fun x => { x with world := 1 }) 0).world % 64 = 0) ∧
    isLive (withTile { tile0 with owner := 65 } fun x => { x with world := 1 }) = true ∧
    isLive (withTile { tile0 with state := 2 } id) = true ∧ isLive (withTile { tile0 with pins := [(5, 0)] } id) = true := by decide +kernel
/-- Version 0 is the latest and has a frame; 64 tokens, none, and the greatest version that may be followed. -/
theorem wit_tenure : (0 : Nat) ≤ seenVersion tile0 0 ∧ (frameOf tile0 0).isSome = true ∧
    (frameOf { tile0 with version := 7 } 3).isSome = false ∧ 3 ≤ seenVersion { tile0 with version := 7 } 0 ∧
    lookupD tile0.tokens 0 0 = 64 ∧ lookupD ({ tile0 with tokens := [] } : Tile).tokens 0 0 < 64 ∧
    ({ tile0 with version := 0xFFFFFFFD } : Tile).version < 0xFFFFFFFE := by decide +kernel
theorem wit_full : 8 ≤ ((List.range 8).map fun i => { held false with handle := i }).length := by decide
theorem wit_trel : let s := withTenures { tile0 with pins := [(0, 1)] } [held false]
    tenureHere s 0x100003 = some (held false) ∧ allPerformed s 0 .system = true := by decide +kernel
theorem wit_publish : let t := { tile0 with shadow := some shadow0 }
    tenureHere (withTenures t [held true]) 0x100003 = some (held true) ∧ releaseReady (withTenures t [held true]) 0 t true = true ∧
    holdsPublishes (withTenures t [held true]) 0 = false ∧ Quiet (withTenures t [held true]) 0 ∧
    (withTenures t [held true]).clusters = [] ∧ (withTenures t [held true]).transit = [] := by
  refine ⟨?_, ?_, ?_, ?_, ?_, ?_⟩ <;> decide +kernel
/-- The same release, parked until it may publish. -/
theorem wit_publish_park : let t := { tile0 with shadow := some shadow0 }
    let s := withTile t fun x => { x with eng := { x.eng with tenures := [held true] }, state := .parked, park := some { reason := .memory, abandon := false, cont := .publish 7 0x100003 } }
    (slotAt s 0).park = some { reason := .memory, abandon := false, cont := .publish 7 0x100003 } ∧ s.cur = .slot 0 ∧
    (rd s 7).toNat % 2 ^ 32 = 0x100003 ∧ tenureHere s 0x100003 = some (held true) ∧ releaseReady s 0 t true = true := by
  refine ⟨?_, ?_, ?_, ?_, ?_⟩ <;> decide +kernel
/-- Cluster 5 asks for the 64 tokens of cluster 0, 256 clocks ago. -/
def asker : TReq := { slot := 1280, cluster := 5, write := true, version := 0, noWait := false, since := some 0, persistent := none, reg := 1 }
theorem wit_tokens : let s := { withTile { tile0 with requests := [asker] } id with cycle := 256 }
    tokensFrom s { tile0 with requests := [asker] } 0 5 = 64 ∧ restorers s 0x100003 5 = [] ∧
    lackingReq s { tile0 with requests := [asker] } 5 = some asker ∧ asker.since = some 0 ∧ 0 + 256 ≤ s.cycle := by decide +kernel
/-- A second request of cluster 5, whose first is persistent; and one on its way to the home. -/
theorem wit_tokens_wait : let q := [{ asker with persistent := some 300 }, { asker with slot := 1281 }, { asker with slot := 1282, since := none }]
    (∃ y ∈ q, y.cluster = 5 ∧ y.persistent ≠ none) ∧ (lackingReq (withTile { tile0 with requests := q } id) { tile0 with requests := q } 5).isSome = true ∧
    (∀ y ∈ [asker], y.cluster = 5 → y.persistent = none) ∧ (q[2].since).isNone = true := by decide +kernel
/-- Items 4, 6 and 7 of TSTAT, with a granted read tenure, a write tenure and none; requests of a split tile. -/
theorem wit_tstat : (4 : Nat) % 8 = 4 ∧ 6 ≤ 7 % 8 ∧ (tenureOn (withTenures tile0 [held false]) 0x100003).map (fun e => (e.granted, e.write)) = some (true, false) ∧
    (tenureOn (withTenures tile0 [held true]) 0x100003).map (·.write) = some true ∧ tenureOn (withTile { tile0 with state := 2 } id) 0x100003 = none ∧
    (slotAt (withTile { tile0 with state := 2 } id) 0).eng.tenures.length < 8 ∧ tile0.requests = [] := by decide +kernel
/-- The split of dimension 0 in two: s8 = 0x200. -/
theorem wit_split : (rd (withTile tile0 id) 8).toNat % 4 = 0 ∧ (rd (withTile tile0 id) 8).toNat / 2 ^ 8 % 2 ^ 9 = 2 ∧
    splitOk { tile0 with shadow := some shadow0 } 0 2 = true ∧ splitOk tile0 0 4 = false ∧
    freeRun { part0 with tiles := [(3, { gen := 1, retired := false, tile := some tile0 })] } 2 = some 0 := by decide +kernel
/-- A split tile with its two children unused, and with one of them pinned. -/
def splitState (pins : List (Nat × Nat)) : State :=
  let child := { tile0 with ext := 4096, parent := 0x100003, basePages := [0x1000], pins := pins }
  { withTile tile0 id with parts := [(0, { part0 with tiles :=
      [(3, { gen := 1, retired := false, tile := some { tile0 with state := 2, firstChild := 4, children := 2 } }),
       (4, { gen := 0, retired := false, tile := some child }), (5, { gen := 0, retired := false, tile := some child })] })] }
theorem wit_join : let t := { tile0 with state := 2, firstChild := 4, children := 2 }
    isLive (splitState []) = true ∧ (childrenOf (splitState []) 0 t 0x100003).length = 2 ∧
    ((childrenOf (splitState []) 0 t 0x100003).all fun y => y.2.shadow.isNone && y.2.pins.isEmpty && y.2.state != 2 && y.1 != 3) = true ∧
    ((childrenOf (splitState [(1, 0)]) 0 t 0x100003).any fun y => !y.2.pins.isEmpty) = true := by decide +kernel
/-- 8 lanes of 32 INT8 elements through the paged g3: TLDV with no tenure, TSTV with a write tenure. -/
theorem wit_tldv : let s := withTile tile0 id
    (match tileAccess s 0x100003 0 3 false with
     | .ok (p, i, t, _, offs) => p == 0 && i == 3 && (match tilePages s p t 1 offs with | .ok s1 => slotAt s1 0 == slotAt s 0 && s1.cur == s.cur | _ => false)
     | _ => false) = true ∧ VecReady s 0 := by refine ⟨?_, ?_⟩ <;> decide +kernel
theorem wit_tstv : let t := { tile0 with shadow := some shadow0, tag := tagOf 1 0 0 }
    let s := withTenures t [held true]
    (match tileAccess s 0x100003 0 3 true with
     | .ok (p, i, t1, _, offs) => (match tilePages s p t1 2 offs with
        | .ok s1 => slotAt s1 0 == slotAt s 0 && slotAt (takeShadow s1 p i 0 offs) 0 == slotAt s 0 && shadowRoom s1 p t1 offs && (match tileAt (takeShadow s1 p i 0 offs) p i with
           | some z => offs.all fun o => lineOpens (takeShadow s1 p i 0 offs) (some t1.kdom) (shadowFlat z 0 o)
           | none => false)
        | _ => false)
     | _ => false) = true := by decide +kernel
theorem wit_frame_freed : let u := withTile tile0 fun x =>
      { x with state := .parked, park := some { reason := .tile, abandon := true, cont := .frame 0x100003 } }
    slotFree tile0 = true ∧ ((slotAt u 0).park.map fun p => p.cont) = some (.frame 0x100003) ∧ partOfSlot u 0 = some 0 := by decide +kernel

/-- A task record of zeros, and one whose entry is not a multiple of 4. -/
theorem wit_tspawn : LocalBlock base 0 0 (rd base 0) 0 32 32 1 ∧ (parseRecord (localBytes base 0 0 32)).entry % 4 = 0 ∧
    (coreAt base 0).deque.length < 64 := by refine ⟨?_, ?_, ?_⟩ <;> decide +kernel
theorem wit_tspawn_odd : (parseRecord (localBytes (localMem [(0, 2)]) 0 0 32)).entry % 4 ≠ 0 := by decide +kernel
theorem wit_texit : 0 % 16 ≠ 15 ∧ slot0.frames = [] ∧ tl base = 0 ∧ slot0.ganged = false ∧ slot0.task.counter = none ∧ 15 % 16 = 15 ∧
    at15.cur = .slot 15 := by decide +kernel
/-- Eight words to a counter of this device (s0), and nine. -/
theorem wit_msend : (8 : Word).toNat % 16 ≤ 8 ∧ (rd base 1).toNat % 16 = 8 ∧ (rd base 0).toNat / 2 ^ 63 = 0 ∧ 8 < (9 : Word).toNat % 16 := by
  decide +kernel
/-- Counts 1, the greatest, 0 and 2^24. -/
theorem wit_cntset : (0 < 1 ∧ 2 ^ 24 - 1 < 2 ^ 24) ∧ (rd base 0).toNat = 0 ∧ 2 ^ 24 ≤ (rd base 4).toNat ∧
    freeCounterIx (clusterAt base 0) < 4096 := by decide +kernel
/-- Two entries, the first of another world. -/
def inbox2 : List Delivered :=
  [{ world := 9, header := 1, payload := [], recordOf := none, posted := false, fifo := none },
   { world := 0, header := 2, payload := [7], recordOf := none, posted := false, fifo := none }]
theorem wit_cntget_in : inbox2 = [inbox2[0]] ++ inbox2[1] :: [] ∧ inbox2[0].world ≠ (slotAt base 0).world ∧
    inbox2[1].world = (slotAt base 0).world ∧ inbox2[1].payload.length ≤ 8 ∧ base.network = [] ∧ (11 : BitVec 5).toNat > 10 := by decide +kernel
/-- The gang of one slot, and the gang of two whose other slot has not arrived. -/
def inGang (l : List (Nat × Nat)) : State :=
  { base with slots := l.map fun e => (e.1, { slot0 with task := { slot0.task with launch := 1, gang := 2, gangSize := l.length, gangIndex := e.2 } }) }
theorem wit_barr : gangSlots (inGang [(0, 0)]) 1 2 = [0] ∧ allPerformed (inGang [(0, 0)]) 0 .cluster = true ∧
    gangSlots (inGang [(0, 0), (16, 1)]) 1 2 = [0, 16] ∧ slotArrived (inGang [(0, 0), (16, 1)]) 16 = false ∧
    (slotAt base 0).task.gangSize = 0 := by decide +kernel
/-- Launch 1 of partition 0, world 0: two gangs of two tasks. -/
def launch1 : Launch :=
  { id := 1, part := 0, queue := 0, position := 0, flags := 0, prio := 0, world := 0, gang := #v[2, 1, 1], seqNo := 0, waitCnt := 0,
    sigCnt := 0, waitVal := 0, entry := 0x40, code := 0, data := 0, codeLen := 0, dataLen := 0, grid := #v[2, 1, 1], colophon := 0,
    mbx := Vector.replicate 8 0, requests := [], accepted := 0, phase := 1, status := 0, reason := 0, cause := 0, killKind := 0,
    faultTask := 0, faultPc := 0, nextGang := 0, started := 0, cores := [], batch := [], stamp := 0, vec := none, again := [] }
def record1 : TaskRec :=
  { entry := 0x80, launch := 1, tile := Vector.replicate 3 0, flags := 0, arg := 5, counter := 0, stamp := 0 }
def cluster0 (c : ClusterSt) (l : List (Nat × CoreSt)) : State :=
  { base with slots := [], cores := l, launches := [launch1], clusters := [(0, c)] }
theorem wit_deque : let s := cluster0 ClusterSt.reset [(0, { CoreSt.reset with deque := [record1] })]
    recordDead s record1 = false ∧ (coreAt s 0).dequeClock ≠ some s.cycle ∧ freeSlotOf s 0 = some 0 := by decide +kernel
/-- Of three live records, the two that this clock has pushed come behind the third; a record of an ended launch at an end goes. -/
theorem wit_deque_ends : let s := { cluster0 ClusterSt.reset [(0, { CoreSt.reset with deque := [record1, record1, record1], pushClock := some (100, 2) })] with cycle := 100 }
    (match (coreAt s 0).pushClock with | some (d, m) => if d = s.cycle then min m 3 else 0 | none => 0) = 2 ∧
    (([record1, record1, record1].drop 2).dropWhile (recordDead s)) = [record1] ∧ recordDead s { record1 with launch := 9 } = true ∧
    (([{ record1 with launch := 9 }, record1] : List TaskRec).dropWhile (recordDead s)) = [record1] ∧ (coreAt s 0).deque.length ≤ 64 ∧
    (coreAt { s with cores := [(0, { coreAt s 0 with dequeClock := some 100 })] } 0).dequeClock = some s.cycle ∧
    (([record1].drop 1).dropWhile (recordDead s)) = [] := by decide +kernel
/-- Gang 3 is placed again, before the next one. -/
theorem wit_gang_again : ({ launch1 with again := [3] } : Launch).again.headD launch1.nextGang = 3 ∧ launch1.again = [] := by decide

/-- Core 0 visits its first victim, west: core 3, whose deque ends in the record. -/
theorem wit_sweep : let s := cluster0 ClusterSt.reset [(0, { CoreSt.reset with sweepDue := some 100 }), (3, { CoreSt.reset with deque := [record1] })]
    sweeps s 0 = true ∧ (victims s 0 0)[0]? = some (some 3, 8) ∧ (coreAt s 3).deque = [] ++ [record1] ∧ freeSlotOf s 0 = some 0 ∧
    recordDead s record1 = false := by decide +kernel
theorem wit_gang_place : let s := cluster0 ClusterSt.reset []
    (placeable s 0).map (fun l => (l.id, gangTasks l)) = some (1, 2) ∧
    (part0.clusters.filter fun q => (clusterAt s q).reservation.isNone && decide (2 ≤ slotsInService s q)).min? = some 0 := by decide +kernel
theorem wit_gang_start : let s := cluster0 { ClusterSt.reset with reservation := some { launch := 1, gang := 0, size := 2, slots := [0, 16] } } []
    (launchOf s 1).isSome = true ∧ joinSlots s 0 = s ∧ 2 ≤ (gangSlotsOf (isPaired s 1) [0, 16]).length ∧
    (gangPlaces (isPaired s 1) 2 (gangSlotsOf (isPaired s 1) [0, 16])).Nodup := by
  refine ⟨?_, ?_, ?_, ?_⟩ <;> decide +kernel
/-- A message to a counter of count 2, held for 64 clocks and for 63. -/
def inboxState (since : Nat) (stamp : Nat) : State :=
  let m : Msg := { id := 5, name := 0x1000, stamp := stamp, cluster := 0, core := 0, part := 0, world := 0, launch := 0, payload := [],
                   since := since, ack := none, remote := false }
  let y : Counter := { gen := 1, live := true, count := 2, record := record1, ownerCore := 0, world := 0, part := 0, launch := 1, greatest := 0 }
  cluster0 { ClusterSt.reset with counters := [(0, y)] } [(0, { CoreSt.reset with inbox := [m] })]
theorem wit_inbox : ((nextMessage (inboxState 36 0) 0).map fun q => (q.1.id, q.2)) = some (5, true) ∧
    ((nextMessage (inboxState 37 0) 0).map fun q => q.2) = some false ∧
    ((counterAt (inboxState 36 0) 0 0x1000).map fun y => (y.count, y.world)) = some (2, 0) ∧
    gvtOf (inboxState 36 9) (some 0) < 9 ∧ isLate (coreAt (inboxState 36 0) 0) 0 = false := by decide +kernel
theorem wit_gvt : 65 ≤ 65 - part0.created ∧ (65 - part0.created - 1) % 64 = 0 ∧ part0.sample = none ∧
    ({ part0 with sample := some (128, 7) } : PartSt).sample = some (128, 7) ∧ part0.retiring = [] := by decide +kernel

/-! ### Steps, traps, control codes: witnesses -/

/-- Fetches at 0, at the last word of the limit and one beyond it, and through a g0 without X. -/
theorem wit_fetch : SegmentOk base 0 4 ∧ (pc base).toNat + 3 ≤ (segOf base base.cur 0).w1.toNat % 2 ^ 48 ∧
    (let s := withSc fun x => { x with pc := 0x3FFC }; (pc s).toNat + 3 ≤ (segOf s s.cur 0).w1.toNat % 2 ^ 48) ∧
    (let s := withSc fun x => { x with pc := 0x4000 }; (segOf s s.cur 0).w1.toNat % 2 ^ 48 < (pc s).toNat + 3) := by decide +kernel
theorem wit_fetch_x : ¬ SegmentOk (withSc fun x => { x with g := x.g.set 0 (segm 2 0 3 0x3FFF) }) 0 4 := by decide +kernel

/-- ADD s1, s2, s3 as the first instruction after reset: nothing else may happen, and a slot issues it. -/
theorem wit_step : (State.reset.withFetchWord 32 0x04221800).mod.powered = true ∧
    (forced (State.reset.withFetchWord 32 0x04221800)).isNone = true ∧
    (openEvents (State.reset.withFetchWord 32 0x04221800)).length = 0 ∧
    (State.reset.withFetchWord 32 0x04221800).agenda.isEmpty = true ∧
    (choose (State.reset.withFetchWord 32 0x04221800) 1).2 = 0 ∧
    (nextIssuer (choose (State.reset.withFetchWord 32 0x04221800) 1).1).isSome = true := by
  refine ⟨?_, ?_, ?_, ?_, ?_, ?_⟩ <;> decide +kernel
theorem wit_step_word : (match nextIssuer (State.reset.withFetchWord 32 0x04221800) with
    | some k => (match fetch (issueState (State.reset.withFetchWord 32 0x04221800) k) with
      | .ok (_, w) => w == 0x04221800#32
      | _ => false)
    | none => false) = true := by decide +kernel

/-- After reset no slot issues, and application core 0 does; its fetch goes through a void g0. -/
theorem wit_step_app : State.reset.mod.powered = true ∧ (forced State.reset).isNone = true ∧ (openEvents State.reset).length = 0 ∧
    State.reset.agenda.isEmpty = true ∧ (choose State.reset 1).2 = 0 ∧ nextIssuer (choose State.reset 1).1 = none ∧
    nextApp (choose State.reset 1).1 = some 0 ∧
    (match fetch (issueApp (choose State.reset 1).1 0) with | .error _ => true | _ => false) = true := by
  refine ⟨?_, ?_, ?_, ?_, ?_, ?_, ?_, ?_⟩ <;> decide +kernel
/-- Slot 0's park is over, and the word that it performs again is a YIELD. -/
theorem wit_step_resume : let s := withSlot { slot0 with
      state := .parked, park := some { reason := .galley, abandon := false, cont := .resume }, word := 0xF8000001 }
    s.mod.powered = true ∧ (∀ e ∈ timedEvents s, enabled s e = false) ∧ portStep s = none ∧ slotKeys s = [] ++ 0 :: (slotKeys s).drop 1 ∧
    (match decode (slotAt s 0).word.toNat with | .ok .yield => true | _ => false) = true := by refine ⟨?_, ?_, ?_, ?_, ?_⟩ <;> decide +kernel

/-- The park of slot 0 is over, and its reason cleared while its session was HELD. -/
theorem wit_step_cleared : let s := withSlot { slot0 with state := .parked, park := some { reason := .wait, abandon := true, cont := .cleared } }
    s.mod.powered = true ∧ (∀ e ∈ timedEvents s, enabled s e = false) ∧ portStep s = none ∧ slotKeys s = [] ++ 0 :: (slotKeys s).drop 1 ∧
    (slotAt s 0).park = some { reason := .wait, abandon := true, cont := .cleared } ∧ NotHeld s 0 := by
  refine ⟨?_, ?_, ?_, ?_, ?_, ?_⟩ <;> decide +kernel

/-- Handlers, levels, and records: none outstanding, and two. -/
theorem wit_traps : let s := withTr fun x => { x with thandler := 0x80 }
    (slotAt s 0).tr.tl = 0 ∧ (slotAt s 0).tr.thandler ≠ 0 ∧ inCleanup (slotAt s 0) = false ∧ recordsOf (coreAt base 0) 0 < 2 ∧
    (slotAt (withTr fun x => { x with tl := 1 }) 0).tr.tl = 1 ∧ (slotAt (pairOf id) 0).ganged = true := by decide +kernel
def twoRecords : State :=
  let e : Delivered := { world := 0, header := 0, payload := [], recordOf := some 0, posted := false, fifo := none }
  setCore (withTr fun x => { x with tl := 1 }) 0 { core0 with delivered := [e, e] }
theorem wit_records : 2 ≤ recordsOf (coreAt twoRecords 0) 0 := by decide +kernel
theorem wit_trap_15 : 15 % 16 = 15 ∧ (slotAt at15 15).ganged = false ∧ (slotAt at15 15).frames = [] ∧ (slotAt at15 15).tr.thandler = 0 := by
  decide +kernel
theorem wit_app_levels : (appAt onApp 9).tr.tl = 0 ∧
    (appAt (setApp base 9 { AppSt.reset with tr := { TrapSt.reset with tl := 1 } }) 9).tr.tl ≠ 0 := by decide +kernel
/-- No handler: alone, at TL2, and with a call open. -/
def frame0 : Frame :=
  { caller := 0, ret := 0x24, g := slot0.sc.g, lmbase := 0, lmbound := 0x4000, thandler := 0, lc0 := Loop.clear, lc1 := Loop.clear,
    window := 0, gate := 7, mark := none, saved := Vector.replicate 21 0, status := 0, cleaning := false, vec := true, callee := 1,
    cleanup := 0, bank := some 0, epoch := 0 }
theorem wit_kill : TaskAlone base 0 ∧ (slotAt base 0).tr.thandler = 0 ∧ TaskAlone atTl2 0 ∧ (slotAt atTl2 0).tr.tl = 2 ∧
    inCleanup (slotAt base 0) = false := by decide +kernel
def called : State := withSlot { slot0 with frames := [frame0], world := 1 }
theorem wit_unwind : (slotAt called 0).frames.length = 1 ∧ (slotAt called 0).unwind = none ∧ inCleanup (slotAt called 0) = false := by
  decide +kernel

/-- No frame of it is revoked; its deadline has not passed, or has, with no cleanup: status 3, and status 2. -/
theorem wit_unwind_frames : frameRevoked called frame0 = false ∧ expiredDepth called (slotAt called 0) = none ∧
    (let x := { slot0 with frames := [frame0], world := 1, deadline := some 100 }
     expiredDepth (withSlot x) x = some x.frames.length) ∧ frame0.cleanup = 0 ∧ [frame0].length ≤ 4 := by decide +kernel

/-- WAIT: a mask bit beyond 4, a pending event, none, and the timer at its clock. -/
theorem wit_wait : UserMode base 0 ∧ (rd base 4).toNat / 32 ≠ 0 ∧ (rd base 1).toNat / 32 = 0 ∧
    ((rd base 1).setWidth 5).getLsbD 3 = true ∧ (rd base 0).toNat ≤ base.cycle ∧ ((rd base 2).setWidth 5) &&& slot0.eng.pend = 0 := by
  decide +kernel
/-- The park of a WAIT for the timer, at its clock and before it. -/
theorem wit_wait_timer : let s := parkedOn .wait true (.wait 8 90)
    (slotAt s 0).park = some { reason := .wait, abandon := true, cont := .wait 8 90 } ∧ (8 : BitVec 5).getLsbD 3 = true ∧ 90 ≤ s.cycle ∧
    s.cycle < 101 := by decide +kernel
/-- WAIT on an application core: the timer at its clock (s1 holds bit 3, s0 is 0), no event, and one that does not come. -/
theorem wit_app_wait : (rd onApp 1).toNat / 32 = 0 ∧ ((rd onApp 1).setWidth 5).getLsbD 3 = true ∧ (rd onApp 0).toNat ≤ onApp.cycle ∧
    (rd onApp 0).setWidth 5 = (0 : BitVec 5) ∧ (rd onApp 2).toNat / 32 = 0 ∧ (rd onApp 2).setWidth 5 ≠ (0 : BitVec 5) ∧
    ((rd onApp 2).setWidth 5).getLsbD 3 = false ∧
    (let s := setApp base 9 { AppSt.reset with park := some { reason := .wait, abandon := true, cont := .wait 8 90 } }
     (appAt s 9).park = some { reason := .wait, abandon := true, cont := .wait 8 90 } ∧ 90 ≤ s.cycle) := by decide +kernel
theorem wit_tret : (slotAt base 0).tr.tl = 0 ∧ (slotAt (withTr fun x => { x with tl := 1 }) 0).tr.tl = 1 ∧ (slotAt atTl2 0).tr.tl = 2 ∧
    (slotAt base 0).sc.uienAct = false ∧ (slotAt (withSc fun x => { x with uienAct := true }) 0).sc.uienAct = true := by decide +kernel
/-- A matrix instruction that its slot has gone past stands at the head, or nothing does. -/
noncomputable def matrixPast : State := withSlot { slot0 with tr := { slot0.tr with tl := 1 }, vec := { slot0.vec with seq := [entryOf { tops with instr := .mma 0 0 0 } false], frozen := true } }
theorem wit_tret_again : (slotAt matrixPast 0).tr.tl = 1 ∧ (slotAt matrixPast 0).vec.seq = [entryOf { tops with instr := .mma 0 0 0 } false] ∧
    (∃ h ∈ (entryOf { tops with instr := .mma 0 0 0 } false).body, isMatrix h.instr = true) := by
  refine ⟨rfl, rfl, _, List.mem_cons_self .., rfl⟩
theorem wit_halt : supervisorWork at15 0 = false ∧ supervisorWork { at15 with cores := twoRecords.cores } 0 = true := by decide +kernel
theorem wit_app_interrupt : let z : AppSt := { AppSt.reset with sc := { sc0 with uienEn := true }, pendingSources := [7, 3] }
    z.pendingSources.min? = some 3 ∧ z.tr.tl = 0 ∧ z.halted = false ∧ z.park = none := by decide +kernel
/-! ### Gates, gateways, other slots: witnesses -/

/-- Gate 5 of world 1: one unit of local memory, world 0 allowed, windows of 16 bytes with R. -/
def gate1 : Burgee :=
  { entry := 0x100, cleanup := 0, allow := 1, callee := 1, ldem := 1, budget := 0, maxlen := 16, rights := 1, vec := false,
    set := Vector.replicate 8 Seg.void }
def gateWorld (g : Burgee) : PartSt :=
  { part0 with worlds := [(0, { World.reset with live := true, key := some 5 }), (1, { World.reset with live := true, key := some 6, gates := [(5, g)] })] }
def gateState (g : Burgee) (f : SlotSt → SlotSt) : State :=
  { base with parts := [(0, gateWorld g)], slots := [(0, f { slot0 with sc := { sc0 with s := (sc0.s.set 7 0x405).set 8 (BitVec.ofNat 64 (16 * 2 ^ 32 + 2 ^ 56)) } })] }
/-- A call that passes: ldem 1 of a window of 64, 16 bytes with R; and each check with those before it passed. -/
theorem wit_gcall : let s := gateState gate1 id
    (gateAt s 0x405).isSome = true ∧ partOfSlot s 0 = some 0 ∧ isRevoked s (worldId 0 1) = false ∧ gate1.allow.getLsbD (0 % 64) = true ∧
    winLen (slotAt s 0) ≥ gate1.ldem * 256 ∧ windowOk s (rd s 8).toNat gate1 = true ∧ (rd s 7).toNat / 2 ^ 16 = 0 ∧
    inCleanup (slotAt s 0) = false ∧ (slotAt s 0).frames.length < 4 := by decide +kernel
theorem wit_gcall_fails : (rd base 4).toNat / 2 ^ 16 ≠ 0 ∧ gateAt base 0 = none ∧
    ({ gate1 with allow := 2 } : Burgee).allow.getLsbD 0 = false ∧ windowOk (gateState gate1 id) (17 * 2 ^ 32 + 2 ^ 56) gate1 = false ∧
    (4 ≤ [frame0, frame0, frame0, frame0].length ∧ slot0.hspill = 0) := by decide +kernel
/-- The fifth call and the return from it: the page of the spilled frame is mapped for domain 0. -/
def deepState (n : Nat) : State :=
  { gateState gate1 fun x => { x with frames := List.replicate n frame0, hspill := 0x4000, world := if n = 5 then 1 else 0 } with mem := pageBytes }
theorem foldl_cur {α : Type} (f : State → α → State) (h : ∀ s a, (f s a).cur = s.cur) (l : List α) (s : State) :
    (l.foldl f s).cur = s.cur := by
  induction l generalizing s with
  | nil => rfl
  | cons a l ih => rw [List.foldl_cons, ih, h]
theorem countDie_cur (s : State) (d n : Nat) (p : Option Nat) (v : Nat) : (countDie s d n p v).cur = s.cur :=
  rfl
theorem devWriteAs_cur (s : State) (dom : Option Nat) (p pva : Nat) (bs : List Byte) : (devWriteAs s dom p pva bs).cur = s.cur := by
  have home : ∀ (t : State) (a : List Nat) (b : List Byte), (reachHome t (2 ^ 22) a b).cur = t.cur := by
    intro t a b
    unfold reachHome
    split
    · rfl
    · split
      · rfl
      · rw [foldl_cur, foldl_cur]
        · intro v q; unfold homeStore; split <;> rfl
        · intro v l; simp only [elide]; repeat (first | split | rfl | rw [countDie_cur])
  refine foldl_cur _ (fun t q => ?_) _ _
  unfold devWriteOne
  split
  · split
    · exact home ..
    · rfl
  · rfl
theorem wit_spill_args : let s := deepState 4
    (slotAt s 0).frames.length = 4 ∧ (slotAt s 0).hspill ≠ 0 ∧ windowOk s (rd s 8).toNat gate1 = true := by decide +kernel
theorem wit_spill : ∃ u, spillFrame (deepState 4) = .ok u ∧ u.cur = (deepState 4).cur := by
  have page : (match spillPage (deepState 4) 1 rW with | .ok u => u.cur == (deepState 4).cur | _ => false) = true := by decide +kernel
  have frames : (me (deepState 4)).frames = List.replicate 4 frame0 := rfl
  have part : myPart (deepState 4) = some 0 := by decide +kernel
  cases e : spillPage (deepState 4) 1 rW with
  | error _ => rw [e] at page; cases page
  | ok u =>
    rw [e] at page
    refine ⟨devWriteAs u (some (worldId 0 0)) 0 (spillAt (me (deepState 4)).hspill 1) (frameBytes frame0), ?_, ?_⟩
    · simp [spillFrame, frames, part, e, bind, Except.bind, pure, Except.pure]
    · rw [devWriteAs_cur]; simpa using page
theorem wit_refill : let s := deepState 5
    5 ≤ (slotAt s 0).frames.length ∧ (slotAt s 0).vec.seq = [] ∧ (∀ e ∈ (slotAt s 0).eng.tenures, e.granted = true → e.depth ≠ 5) ∧
    (match refillPage s with | .ok u => u.cur == s.cur | _ => false) = true := by refine ⟨?_, ?_, ?_, ?_⟩ <;> decide +kernel
/-- The call waits for its spill: its callee's session is not HELD. -/
theorem wit_call_reply : let s := setSlot (deepState 4) 0 { slotAt (deepState 4) 0 with
      state := .parked, park := some { reason := .memory, abandon := false, cont := .call 0x405 0 gate1 } }
    (slotAt s 0).park = some { reason := .memory, abandon := false, cont := .call 0x405 0 gate1 } ∧ gate1.ldem < 128 ∧ NotHeld s 0 ∧
    sessionHeld s ((slotAt s 0).world / 64 * 64 + gate1.callee) = false ∧ 0 < 2 ^ 20 := by decide +kernel
theorem wit_gret : (slotAt base 0).frames = [] ∧ slot0.vec.seq = [] ∧ (slotAt called 0).frames.length = 1 ∧
    (∀ e ∈ (slotAt called 0).eng.tenures, e.depth ≠ 1) ∧ (slotAt called 0).park = none := by decide +kernel
theorem wit_gret_tenure : let s := withSlot { slot0 with frames := [frame0], eng := { slot0.eng with tenures := [{ held false with depth := 1 }] } }
    ∃ e ∈ (slotAt s 0).eng.tenures, e.granted = true ∧ e.depth = (slotAt s 0).frames.length := by decide +kernel
/-- A window of 16 bytes, its last byte, and one byte more. -/
theorem wit_gwin : let g := segm 5 0 1 15
    (g.w0.toNat / 2 ^ 60 = 0 ∧ g.w0.toNat / 2 ^ 57 = 5 ∧ g.w1.toNat / 2 ^ 54 = 0 ∧ 15 + 1 ≤ g.w1.toNat % 2 ^ 48 + 1) ∧
    ¬ 16 + 1 ≤ g.w1.toNat % 2 ^ 48 + 1 ∧ (w64 (16 * 2 ^ 32)).toNat / 2 ^ 32 % 2 ^ 24 ≠ 0 ∧ (w64 (16 * 2 ^ 32)).toNat % 2 ^ 32 + 15 < 2 ^ 32 ∧
    frame0.window.toNat / 2 ^ 32 % 2 ^ 24 = 0 := by decide +kernel

/-- Images in the window of the caller's own world: zeros, one of another world, one with an odd entry, and one that is right. -/
def imageState (l : List (Nat × Byte)) : State := paged l
theorem wit_gpub : LocalBlock base 0 0 (rd base 0) 0 32 32 1 ∧ Quiet base 0 ∧ 1024 ≤ (rd base 4).toNat ∧ (rd base 1).toNat < 1024 := by
  refine ⟨?_, ?_, ?_, ?_⟩ <;> decide +kernel
theorem wit_gpub_images : (∀ c ∈ localBytes base 0 0 32, c = 0) ∧ imageCallee (localBytes (imageState [(23, 4)]) 0 0 32) ≠ 0 ∧
    (imageCallee (localBytes (imageState [(0, 1)]) 0 0 32) = 0 ∧ imageOk (localBytes (imageState [(0, 1)]) 0 0 32) = false) ∧
    (∃ c ∈ localBytes (imageState [(0, 4)]) 0 0 32, c ≠ 0) ∧ imageCallee (localBytes (imageState [(0, 4)]) 0 0 32) = 0 ∧
    imageOk (localBytes (imageState [(0, 4)]) 0 0 32) = true := by refine ⟨?_, ?_, ?_, ?_, ?_, ?_⟩ <;> decide +kernel
/-- The segment set of that image stands at PVA 0, of void segments but for the bytes of the page table's root; one at 0x80 is void; in the
set at 0x40 the first segment has the reserved kind 6. -/
theorem wit_gpub_set : (match pagePart (imageState [(0, 4), (16, 0x80)]) 0 (imageSet (localBytes (imageState [(0, 4), (16, 0x80)]) 0 0 32)) 112 1 3 0x80 (some 0) with
    | .ok (u, pl) => (List.range 7).all fun i => setSegOk u 0 0 0 (segAt (threadBytes u 0 pl.ty pl.addrs) (16 * i))
    | _ => false) = true ∧
    (match pagePart { base with mem := [(0, 1), (2, 0x10), (0x47, 0x0C), (0x100000, 0x7F), (0x30000000, 0x3F)] } 0 0x40 112 1 3 0 (some 0) with
    | .ok (u, pl) => (List.range 7).any fun i => !setSegOk u 0 0 0 (segAt (threadBytes u 0 pl.ty pl.addrs) (16 * i))
    | _ => false) = true := by refine ⟨?_, ?_⟩ <;> decide +kernel
/-- The segment set reads from the device; and from a peer whose link is down. -/
theorem wit_gpub_place : (match pagePart (imageState [(0, 4), (16, 0x80)]) 0 0x80 112 1 3 0x80 (some 0) with
    | .ok (u, pl) => placeDown u pl | _ => true) = false ∧
    (let p := { part0 with routes := part0.routes.set 0 0 }
     let s := { base with mem := [(0, 1), (2, 0x10), (0x100000, 0x7F), (0x30000000, 0x3F), (0x30000008, 0x3F), (0x30000009, 4)], parts := [(0, p)],
                          mod := { base.mod with ports := [(0, { Port.reset with up := false })] } }
     match pagePart s 0 0x200000 112 1 3 0x200000 (some 0) with | .ok (u, pl) => placeDown u pl | _ => false) = true := by
  refine ⟨?_, ?_⟩ <;> decide +kernel
/-- A deadline that has passed at this clock, with a cleanup and without; and a cleanup that is over at this clock. -/
def expired (cleanup : Nat) : State :=
  { gateState gate1 fun x => { x with frames := [{ frame0 with cleanup := cleanup }], world := 1, deadline := some 100 } with cycle := 100 }
theorem wit_expiry : expiredDepth (expired 0) (slotAt (expired 0) 0) = some 1 ∧ expiredDepth base slot0 = none ∧
    (slotAt (expired 0) 0).deadline = some 100 ∧ (slotAt (expired 0x80) 0).frames.length = 1 ∧
    (worldOf (expired 0x80) 1).live = true ∧ isRevoked (expired 0x80) 1 = false ∧ (slotAt (expired 0) 0).state = .ready := by decide +kernel
theorem wit_cleanup : let u : Unwind := { affected := 1, status := 2, kill := none, skipFrame := none, skipWorld := none, cleanup := some 100, gate := 7, worldAt := 1, tlAt := 0, halts := false }
    u.cleanup = some 100 ∧ u.kill = none ∧ u.halts = false ∧ u.affected = [{ frame0 with cleaning := true }].length ∧
    (slotAt (withSlot { slot0 with frames := [{ frame0 with cleaning := true }], unwind := some u }) 0).unwind = some u ∧ base.cycle = 100 := by decide +kernel

/-- Slot 0 of the gateway core of port 0. -/
def gateway (p : Port) (l : List (Nat × Byte)) : State :=
  { base with cur := .slot 0x8000, slots := [(0x8000, { slot0 with vec := VecSt.reset, sc := { sc0 with g := sc0.g.set 3 (segm 2 0 15 0x3FFF), s := sc0.s.set 9 (BitVec.ofNat 64 (2 ^ 63)) } })], cores := [],
              mem := l.map fun e => (flatLocal 2048 e.1, e.2), mod := { ModuleSt.reset with ports := [(0, p)] } }
theorem wit_gwq : let s := gateway { Port.reset with queue := [5], used := [0, 5] } []
    coreOfSlot 0x8000 = 2048 ∧ partOfPort s 0 = some 0 ∧ partOfSlot s 0x8000 = some 0 ∧ (portAt s 0).queue = [5] ∧
    (rd s 0).toNat % 64 < 36 ∧ (rd s 1).msb = false ∧ (rd s 9).msb = true ∧ (rd s 9).toNat % 64 = 0 ∧
    (rd s 0).toNat % 16 ∈ (portAt s 0).used ∧ ¬ (rd s 4).toNat % 64 < 36 := by decide +kernel
/-- Two blocks of one INT8 element at 0 and 0x100, whose sum raises nothing; and two of a format that BARQ does not add. -/
def blocks (f : Byte) : State := gateway Port.reset [(8, f), (10, 1), (64, 3), (0x108, f), (0x10A, 1), (0x140, 4)]
theorem wit_barq : let h := headOfBlock (localBytes (blocks 1) 0x8000 0 64)
    h = headOfBlock (localBytes (blocks 1) 0x8000 0x100 64) ∧ h.size = 65 ∧ h.adds = true ∧
    (headOfBlock (localBytes (blocks 7) 0x8000 0 64)).adds = false ∧
    (sumBlocks h (localBytes (blocks 1) 0x8000 0 65) (localBytes (blocks 1) 0x8000 0x100 65)).2 &&& enabledFlags (blocks 1) 0x8000 = 0 ∧
    (portAt (blocks 1) 0).up = true := by decide +kernel
/-- The sum of 0x7F and 0x7F saturates, and every flag is enabled. -/
theorem wit_barq_flags : let s := gateway Port.reset [(8, 1), (10, 1), (64, 0x7F), (0x108, 1), (0x10A, 1), (0x140, 0x7F)]
    let u := setSlot s 0x8000 { slotAt s 0x8000 with sc := { (slotAt s 0x8000).sc with fpmode := 0x7C } }
    (sumBlocks (headOfBlock (localBytes u 0x8000 0 64)) (localBytes u 0x8000 0 65) (localBytes u 0x8000 0x100 65)).2 &&& enabledFlags u 0x8000 ≠ 0 := by
  decide +kernel
/-- BARQ of blocks of two elements, after their 64 bytes of header: INT8 sums 3 and -200; MXINT8 sums 64 and 1 of one scale; and FP8 of -0. -/
theorem wit_barq_sums : let z : List Byte := List.replicate 64 0
    let one := fun (x y : List Byte) (i : Nat) => (x.getD (64 + i) 0).toInt + (y.getD (64 + i) 0).toInt
    let x := z ++ [1, 0x9C]
    let y := z ++ [2, 0x9C]
    let mx := z ++ [60, 1, 5]
    let my := z ++ [4, 0, 5]
    let e := z ++ [0x80, 0x80, 5]
    64 + 2 ≤ x.length ∧ one x y 0 = 3 ∧ one x y 1 = -200 ∧ 2 ≤ blockLen 2 ∧ 64 + 2 < mx.length ∧ mx.getD (64 + 2) 0 = my.getD (64 + 2) 0 ∧
    (5 : Byte) ≠ 0xFF ∧ one mx my 0 = 64 ∧ one mx my 1 = 1 ∧ 64 + 2 < e.length ∧ (∀ i < 2, e.getD (64 + i) 0 = 0x80) := by decide +kernel
/-- GWSEND at a port of no partition. -/
theorem wit_gwsend : (rd (gateway Port.reset []) 0).toNat % 64 = 0 ∧ partOfPort (gateway Port.reset []) 1 = none ∧
    partOfPort (gateway Port.reset []) 0 = partOfSlot (gateway Port.reset []) 0x8000 ∧
    ({ Port.reset with up := false } : Port).up = false ∧ (portAt (gateway Port.reset []) 0).waiting = [] := by decide +kernel
theorem wit_barq_access : LocalBlock (blocks 1) 0x8000 3 (rd (blocks 1) 0) 0 65 1 3 ∧ LocalBlock (blocks 1) 0x8000 3 (rd (blocks 1) 3) 0 65 1 1 ∧
    MemoryOk (blocks 1) := by refine ⟨?_, ?_, ?_⟩ <;> decide +kernel
theorem wit_ports : partOfPort base 0 = some 0 ∧ partOfPort base 1 = none ∧ freeBlock Port.reset = some 0 ∧
    freeBlock { Port.reset with used := List.range 16 } = none ∧ (63 + 1 ≥ 64 ∧ 62 + 1 < 64) ∧ Port.reset.up = true := by decide +kernel
theorem wit_remote : ((counterAt (inboxState 0 0) 0 (0x1000 % 2 ^ 31)).map fun c => inboxFull (inboxState 0 0) c.ownerCore) = some false ∧
    counterAt base 0 0 = none ∧ base.network = [] := by decide +kernel

/-- Slot 15 of core 0 looks at slot 1: Empty, Ready, or parked in the abandon class; s7 holds a target spec. -/
def over15 (y : SlotSt) (spec : Nat) : State :=
  { at15 with slots := [(1, y), (15, { slot0 with vec := VecSt.reset, lmbase := 0xB000, lmbound := 0x1000, sc := { sc0 with g := sc0.g.set 1 (segm 2 0xB000 15 0xFFF), s := sc0.s.set 7 (BitVec.ofNat 64 spec) } })] }
def ready1 : SlotSt := { slot0 with vec := VecSt.reset, lmbase := 0x4000, lmbound := 0x1000 }
def empty1 : SlotSt := { ready1 with state := .empty }
theorem wit_target : target (over15 ready1 1) 1 = some 1 ∧ target (over15 ready1 0) 0x11 = none ∧ target (over15 ready1 0) 15 = some 15 ∧
    1 % 16 ≠ 15 ∧ (slotAt (over15 ready1 1) 1).state = .ready ∧ (slotAt (over15 empty1 1) 1).state = .empty ∧
    TaskAlone (over15 ready1 1) 1 ∧ startable (over15 ready1 1) 1 = false ∧ startable (over15 empty1 1) 1 = true ∧
    (slotAt (over15 ready1 1) 1).quoin = false := by decide +kernel
/-- Items 1, 0x10, 0x2F, 0x40, 0x4F, 0x50, 0xFFF, 0x103B, 0x110F and 0x1110 of a spec. -/
theorem wit_items : (1 * 2 ^ 32 + 1) / 2 ^ 32 % 2 ^ 16 = 1 ∧ (0x4F * 2 ^ 32) / 2 ^ 32 % 2 ^ 16 = 0x41 + 2 * 7 ∧ 0x2F = 0x10 + 31 ∧
    (0x50 ≤ 0xFFF ∧ 0xFFF < 0x1000) ∧ 0x1110 ≤ 0x1110 := by decide
/-- The state word and the special registers of slot 1, Ready, and parked with reason 2: no session is HELD. -/
theorem wit_item_state : 0 = (0 * 2 ^ 32 + 1) / 2 ^ 32 % 2 ^ 16 ∧ ready1.ganged = false ∧ NotHeld (over15 ready1 1) 1 ∧ ready1.park = none ∧
    0x41 ≤ 0x41 ∧ (0x1041 * 2 ^ 32) / 2 ^ 32 % 2 ^ 16 = 0x1000 + 0x41 ∧ (0x110F * 2 ^ 32) / 2 ^ 32 % 2 ^ 16 = 0x1108 + 7 := by decide +kernel
theorem wit_quoin : ¬ 0xB000 < winBase ready1 + winLen ready1 ∧ 0xB000 < winBase { ready1 with lmbase := 0xA000, lmbound := 0x1100 } + winLen { ready1 with lmbase := 0xA000, lmbound := 0x1100 } ∧
    windowsMeet ready1 { ready1 with quoin := true } = true := by decide +kernel
theorem wit_slotgo : LocalBlock (over15 empty1 1) 15 1 (rd (over15 empty1 1) 0) 0 32 32 1 ∧ Quiet (over15 empty1 1) 15 ∧
    (parseRecord (localBytes (over15 empty1 1) 15 0xB000 32)).entry % 4 = 0 ∧ (parseRecord (localBytes (over15 empty1 1) 15 0xB000 32)).flags / 2 = 0 := by
  refine ⟨?_, ?_, ?_, ?_⟩ <;> decide +kernel
/-- The record names launch 1, which is queued and refused at its checks. -/
def refusing : State := { over15 empty1 1 with mem := [(flatLocal 0 0xB004, 1)], launches := [{ launch1 with phase := 0, status := 4 }] }
theorem wit_slotgo_refused : let r := parseRecord (localBytes refusing 15 0xB000 32)
    r.entry % 4 = 0 ∧ r.flags / 2 = 0 ∧ r.launch = 1 ∧ ((launchAt refusing 0 r.launch).map fun l => (l.phase, l.status)) = some (0, 4) ∧
    launchAt (over15 empty1 1) 0 (parseRecord (localBytes (over15 empty1 1) 15 0xB000 32)).launch = none := by
  refine ⟨?_, ?_, ?_, ?_, ?_⟩ <;> decide +kernel
/-- A launch that was turned away at a check stays so once its colophon is written. -/
theorem wit_slotgo_over : (({ launch1 with phase := 2, status := 1, reason := 6 } : Launch).status = 1 ∧
    ({ launch1 with phase := 2, status := 1, reason := 6 } : Launch).reason ≠ 0 ∧ ({ launch1 with phase := 2, status := 1, reason := 6 } : Launch).reason ≠ 7) ∧
    ((launchAt { refusing with launches := [{ launch1 with phase := 2, status := 1, reason := 6 }] } 0 1).map (·.reason)) = some 6 := by decide +kernel
theorem wit_svpost : ((coreAt base 0).delivered.filter (·.posted)).length < 16 := by decide +kernel
/-- Counters 7, 8, 23, 24 and 87; source 0 counts nothing at any level. -/
theorem wit_evsel : (∃ v < 64, selectOk v 7 = true ∧ selectOk v 8 = true ∧ selectOk v 23 = true ∧ selectOk v 24 = true ∧ selectOk v 87 = true) ∧
    selectOk 0 88 = false := by decide +kernel
/-! ### Maintenance, contexts: witnesses -/

theorem wit_flush : (match onePlace (access base 1 (rd base 0) 0 1 1 1 0) with | .ok _ => true | _ => false) = true ∧
    15 % 16 = 15 ∧ partOfSlot at15 15 = some 0 ∧ at15.cur = .slot 15 := by refine ⟨?_, ?_, ?_, ?_⟩ <;> decide +kernel
/-- BANKSET with no mode, at a gateway core, with the bank's own mode, with another one, and with a FIFO that holds a message. -/
def fifoState : State :=
  let e : Delivered := { world := 0, header := 0, payload := [], recordOf := none, posted := false, fifo := some 0 }
  setCluster (setCore at15 0 { core0 with delivered := [e] }) 0 { ClusterSt.reset with modes := ClusterSt.reset.modes.set 0 2 }
theorem wit_bankset : (rd at15 4).toNat / 2 ^ 4 % 4 = 3 ∧ (rd at15 0).toNat / 2 ^ 4 % 4 = 0 ∧ bankMode at15 0 0 = 0 ∧
    bankMode (scratchy at15) 0 0 ≠ 0 ∧ fifoBusy (scratchy at15) 0 0 = false ∧ bankMode fifoState 0 0 ≠ 0 ∧
    fifoBusy fifoState 0 0 = true ∧ coreOfSlot 15 < 2048 ∧ 2048 ≤ coreOfSlot 0x8000 := by decide +kernel
/-- World 8 of partition 0, live with key 5 and gates that are gone, with what a test changes. -/
def withWorld (s : State) (f : World → World) : State :=
  setPart s 0 { part0 with worlds := part0.worlds ++ [(8, f { World.reset with live := true, key := some 6 })] }
theorem wit_wrevk : (rd at15 0).toNat % 64 = 0 ∧ (rd at15 1).toNat % 64 = 8 ∧ worldId 0 8 = 8 ∧
    (worldOf (withWorld at15 fun y => { y with revoked := true }) 8).revoked = true ∧
    (worldOf (withWorld at15 fun y => { y with revoking := some (true, false) }) 8).revoking ≠ none ∧
    (worldOf (withWorld at15 id) 8).revoked = false ∧ (worldOf (withWorld at15 id) 8).revoking = none := by decide +kernel
/-- A BANKSET behind one that waits for the bank; and a PGINV while a flush waits for page 1. -/
theorem wit_bankset_ahead : banksets (parkedOn .memory false (.bankset 5 0 0 1 1)) 0 0 ≠ [] ∧ banksets at15 0 0 = [] ∧
    (slotAt (parkedOn .memory false (.flush [1])) 0).park = some { reason := .memory, abandon := false, cont := .flush [1] } := by decide +kernel
theorem wit_flush_reply : (slotAt (parkedOn .memory false (.flush [1])) 0).park = some { reason := .memory, abandon := false, cont := .flush [1] } ∧
    pagesQuiet (parkedOn .memory false (.flush [1])) [1] = true ∧
    pagesQuiet { base with iq := [{ aWrite with addrs := [4096] }] } [1] = false ∧ 0 < 2 ^ 20 := by decide +kernel
/-- A BANKSET of bank 0 to mode 1 waits; the same from mode 1 to 0; and with an access to the bank under way. -/
def switching (m : Nat) : State := parkedOn .memory false (.bankset 5 0 0 m 1)
theorem wit_switch : firstBankset (banksets (switching 1) 0 0) = some (1, .slot 0, 5, 1) ∧ bankMode (switching 1) 0 0 ≠ 1 ∧
    fifoBusy (switching 1) 0 0 = false ∧ bankQuiet (switching 1) 0 0 = true ∧
    bankQuiet { switching 1 with iq := [aWrite] } 0 0 = false ∧ MemoryOk (switching 1) := by
  refine ⟨?_, ?_, ?_, ?_, ?_, ?_⟩ <;> decide +kernel
theorem wit_switch_from : firstBankset (banksets (scratchy (switching 0)) 0 0) = some (1, .slot 0, 5, 0) ∧
    bankMode (scratchy (switching 0)) 0 0 = 1 ∧ bankQuiet (scratchy (switching 0)) 0 0 = true := by decide +kernel
/-- The revocation of world 8: with slot 0 in the world and running, parked where it stops, and with nobody in it; and its drain. -/
def revoking (b : Bool) (f : SlotSt → SlotSt) : State :=
  withWorld (withSlot (f { slot0 with task := { slot0.task with world := 8 }, world := 8 })) fun y => { y with revoking := some (true, b) }
/-- The slot divides, and completes that first. -/
def dividing (x : SlotSt) : SlotSt := { x with state := .parked, park := some { reason := .divide, abandon := false, cont := .divide 7 2 134 } }
theorem wit_revocation : (worldOf (revoking false id) (worldId 0 8)).revoking = some (true, false) ∧
    (∃ q ∈ (revoking false dividing).slots, concerns 8 q.2 = true ∧
      stoppedFor (revoking false dividing) q.1 q.2 = false) ∧
    (∀ q ∈ (revoking false id).slots, concerns 8 q.2 = true → stoppedFor (revoking false id) q.1 q.2 = true) ∧
    partOfCore (revoking false id) 0 = some 0 := by refine ⟨?_, ?_, ?_, ?_⟩ <;> decide +kernel
theorem wit_revocation_drain : (worldOf (revoking true id) (worldId 0 8)).revoking = some (true, true) ∧
    worldQuiet (revoking true id) 8 = false ∧ worldQuiet (revoking true fun x => { x with task := TaskSt.reset }) 8 = true ∧
    (∀ c ∈ part0.saves, c.world ≠ 8) ∧ (worldOf (revoking true id) 8).key = some 6 ∧ part0.destroyed.length < 4096 ∧
    (slotAt (revoking true fun x => { x with park := some { reason := .memory, abandon := false, cont := .revoke 5 0 8 } }) 0).park =
      some { reason := .memory, abandon := false, cont := .revoke 5 0 8 } := by
  refine ⟨?_, ?_, ?_, ?_, ?_, ?_, ?_⟩ <;> decide +kernel

/-- Slot 15 names slot 1 through s7, with a descriptor of zeros at 0xB000: CXSAVE and CXREST. -/
def saver (y : SlotSt) : State := over15 y 1
theorem wit_cx : LocalBlock (saver ready1) 15 1 (rd (saver ready1) 0) 0 32 32 3 ∧ Quiet (saver ready1) 15 ∧
    cxTarget (saver ready1) 7 = some 1 ∧ cxTarget (over15 ready1 15) 7 = none := by refine ⟨?_, ?_, ?_, ?_⟩ <;> decide +kernel
/-- A void g6 for the image, and a place for its header; and the destroyed list full. -/
theorem wit_cx_segment : (segOf (saver ready1) (.slot 15) 6).w0.toNat / 2 ^ 57 = 0 ∧ (slotAt (saver ready1) 15).park = none ∧
    LocalBlock (saver ready1) 15 0 (w64 0) 0 64 1 3 ∧ 4096 ≤ (List.replicate 4096 (0 : BitVec 256)).length := by
  refine ⟨?_, ?_, ?_, ?_⟩
  · decide +kernel
  · decide +kernel
  · decide +kernel
  · simp
theorem wit_cxsave : let s := saver ready1
    let bs := localBytes s 15 (cvaOf s 1 (rd s 0) 0) 32
    descOk bs = true ∧ scratchOk s 0 ((descFields bs).getD 2 0) ((descFields bs).getD 3 0) = true ∧ worldKey s 0 ≠ none ∧
    descOk (List.replicate 32 (1 : Byte)) = false ∧ (slotAt (saver empty1) 1).state = .empty := by
  refine ⟨?_, ?_, ?_, ?_, ?_⟩ <;> decide +kernel
/-- The image of a context of world 0 with counter 7, its registers kept on chip, at local address 0; its header may be another. -/
def ctxCounter : SaveCounter :=
  { world := 0, context := 0, counter := 7, pending := 0, pendingInfo := [], slots := [{ slot := ready1, banks := [], waits := [], window := [], core := 0, vtime := 0 }],
    scratch := [] }
def ctxImage : List (Nat × Byte) :=
  [(0, 73), (1, 67), (2, 88), (3, 75), (4, 1), (12, 80), (16, 7), (64, 57), (65, 214), (66, 35), (67, 93), (68, 92), (69,
   107), (70, 91), (71, 20), (72, 63), (73, 32), (74, 64), (75, 248), (76, 72), (77, 108), (78, 142), (79, 108)]
def ctxState (l : List (Nat × Byte)) : State :=
  { over15 empty1 1 with mem := l.map fun e => (flatLocal 0 e.1, e.2), parts := [(0, { part0 with saves := [ctxCounter] })] }
def ctxBytes : List Byte := (List.range 80).map fun i => lookupD ctxImage i 0
/-- The MAC key of the image, and the tag that the image ends in. -/
def ctxMacKey : List Byte :=
  [196, 234, 15, 74, 105, 103, 213, 160, 5, 248, 59, 93, 228, 125, 32, 168, 240, 151, 129, 243, 230, 219, 158, 35, 45, 145, 33, 208, 202,
   247, 174, 134]
theorem ctx_mac_key : (imageKeys 5 0).drop 64 = ctxMacKey := by decide +kernel
theorem ctx_tag : kmac256 ctxMacKey (ctxBytes.take 64) 16 "CXT" = ctxBytes.drop 64 := by decide +kernel
theorem ctx_bytes : localBytes (ctxState ctxImage) 15 0 80 = ctxBytes := by decide +kernel
theorem wit_cxrest_tag : ctxBytes.drop (80 - 16) = kmac256 ((imageKeys 5 0).drop 64) (ctxBytes.take (80 - 16)) 16 "CXT" :=
  (ctx_mac_key ▸ ctx_tag).symm
/-- The image reads as its header says, and goes into slot 1; a scratchpad place that is no multiple of 64 is refused. -/
theorem wit_cxrest : let s := ctxState ctxImage
    let h := localBytes s 15 0 64
    LocalBlock s 15 0 0 0 64 1 1 ∧ LocalBlock s 15 0 0 0 80 1 1 ∧ descFields (List.replicate 32 0) = [0, 0, 0, 0, 0] ∧
    (recField h 0 4 = 0x4B584349 ∧ recField h 4 2 = 1) ∧ recField h 8 2 / 64 = 0 ∧ worldKey s (recField h 8 2) = some 5 ∧
    recField h 12 4 = 80 ∧ saveCounter s 0 (recField h 8 2) 0 = some ctxCounter ∧ ctxCounter.counter = dword h 16 ∧
    placeOk s 1 ctxCounter 0 = true ∧ placeOk s 15 ctxCounter 0 = false := by
  refine ⟨?_, ?_, ?_, ?_, ?_, ?_, ?_, ?_, ?_, ?_, ?_⟩ <;> decide +kernel
theorem wit_cxrest_place : ctxCounter.slots = [{ slot := ready1, banks := [], waits := [], window := [], core := 0, vtime := 0 }] ∧
    ready1.eng.tenures = [] ∧ ready1.vec.seq = [] ∧ ready1.park = none ∧ ready1.task.gangSize ≤ 1 ∧ ready1.frames.length ≤ 4 ∧
    (partAt (ctxState ctxImage) 0).isSome = true ∧ cxTarget (ctxState ctxImage) 7 = some 1 ∧
    (slotAt (ctxState ctxImage) 1).state = .empty ∧ descOk (localBytes (ctxState ctxImage) 15 0xB000 32) = true ∧
    LocalBlock (ctxState ctxImage) 15 1 (rd (ctxState ctxImage) 0) 0 32 32 1 ∧ Quiet (ctxState ctxImage) 15 := by
  refine ⟨rfl, rfl, rfl, rfl, ?_, ?_, ?_, ?_, ?_, ?_, ?_, ?_⟩ <;> decide +kernel
/-- Images that fail: no magic number; of a world without a key; a counter that is not the current one; a length of less than 80; a
byte of the tag that differs; and a void segment. -/
theorem wit_cxrest_fails : let h := fun l : List (Nat × Byte) => localBytes (ctxState l) 15 0 64
    ¬ recField (h []) 0 4 = 0x4B584349 ∧
    (worldKey (ctxState ctxImage) (recField (h (ctxImage.set 5 (8, 8))) 8 2) = none ∧ recField (h (ctxImage.set 5 (8, 8))) 8 2 = 8) ∧
    ((saveCounter (ctxState ctxImage) 0 0 1).map (·.counter)).getD 0 ≠ dword (h ctxImage) 16 ∧
    (0 < recField (h (ctxImage.set 5 (12, 79))) 12 4 ∧ recField (h (ctxImage.set 5 (12, 79))) 12 4 < 80) ∧
    localBytes (ctxState (ctxImage.set 7 (64, 58))) 15 64 16 ≠ ctxBytes.drop 64 ∧
    (segOf (ctxState ctxImage) (.slot 15) 6).w0.toNat / 2 ^ 57 = 0 := by
  refine ⟨?_, ?_, ?_, ?_, ?_, ?_⟩ <;> decide +kernel
/-- Slot 15 waits to save slot 1, which has stopped and has a window of 256 bytes, to local address 0 through g5. -/
def saving : State :=
  { at15 with slots := [(1, { ready1 with lmbound := 0x100 }), (15, { slot0 with
      vec := VecSt.reset, lmbase := 0xB000, lmbound := 0x1000
      sc := { sc0 with g := (sc0.g.set 1 (segm 2 0xB000 15 0xFFF)).set 5 (segm 2 0 15 0xBFFF) }
      state := .parked, park := some { reason := .memory, abandon := false, cont := .cxsave 0 1 [0, 5, 0, 0, 0, 0x200] } })] }
theorem wit_cxsave_reply : (slotAt saving 1).state ≠ .empty ∧ savedSlots saving 1 = [1] ∧ saveReady saving 1 = true ∧
    (∀ i ∈ stopsFor saving 1, canStop saving i = true ∨ (slotAt saving i).state = .splitWait) ∧ partOfSlot saving 1 = some 0 ∧
    worldKey saving 0 = some 5 ∧ saveCounter saving 0 0 0 = none ∧ part0.saves.length < 4096 ∧ NotHeld saving 15 ∧ Quiet saving 15 ∧
    LocalBlock saving 15 1 (w64 (0x200 + 12)) 0 4 1 3 := by
  refine ⟨?_, ?_, ?_, ?_, ?_, ?_, ?_, ?_, ?_, ?_, ?_⟩ <;> decide +kernel

/-! The image of that slot has at most 64 + 5 * 4096 + 16 bytes, which end within the reach of g5. -/

theorem chunksOf_short {α : Type} (n k : Nat) (l : List α) (h : 0 < n) :
    (chunksOf n k l).length ≤ (l.length + (n - 1)) / n ∧ ∀ c ∈ chunksOf n k l, c.length ≤ n := by
  induction k generalizing l with
  | zero => simp [chunksOf]
  | succ k ih =>
    cases l with
    | nil => simp [chunksOf]
    | cons x l =>
      obtain ⟨h1, h2⟩ := ih ((x :: l).drop n)
      simp only [chunksOf, List.isEmpty_cons, Bool.false_eq_true, if_false, List.length_cons, List.mem_cons, List.length_drop] at *
      refine ⟨?_, ?_⟩
      · have : (l.length + 1 + (n - 1)) / n = (l.length + 1 - n + (n - 1) + n) / n ∨ l.length + 1 ≤ n := by
          by_cases q : l.length + 1 ≤ n
          · exact .inr q
          · left; congr 1; omega
        rcases this with e | e
        · rw [e, Nat.add_div_right _ h]; omega
        · have : 1 ≤ (l.length + 1 + (n - 1)) / n := by rw [Nat.le_div_iff_mul_le h]; omega
          have z : (l.length + 1 - n + (n - 1)) / n = 0 := Nat.div_eq_of_lt (by omega)
          omega
      · rintro c (rfl | hc)
        · simp <;> omega
        · exact h2 c hc
theorem xtsBlocks_short (ks : List (List Nat)) (l : List (List Byte)) (t : Nat) : (xtsBlocks ks l t).length ≤ 16 * l.length := by
  induction l generalizing t with
  | nil => simp [xtsBlocks]
  | cons b l ih =>
    have := ih (doubleTweak t)
    have q : (leBytes 16 t).length = 16 := rfl
    simp only [xtsBlocks, List.length_append, List.length_map, xorL, List.length_zip, List.length_cons, q]
    omega
theorem flatten_short {α : Type} (l : List (List α)) (n : Nat) (h : ∀ c ∈ l, c.length ≤ n) : l.flatten.length ≤ n * l.length := by
  induction l with
  | nil => simp
  | cons c l ih =>
    have h1 := h c (List.mem_cons_self ..)
    have h2 := ih fun d hd => h d (List.mem_cons_of_mem _ hd)
    simp only [List.flatten_cons, List.length_append, List.length_cons, Nat.mul_add]; omega
theorem xtsEncrypt_short (key : List Byte) (t : Nat) (l : List Byte) (h : l.length ≤ 4096) : (xtsEncrypt key t l).length ≤ 4096 := by
  have := (chunksOf_short 16 l.length l (by decide)).1
  exact Nat.le_trans (xtsBlocks_short _ _ _) (by omega)
theorem sealImage_short (keys header body : List Byte) (c : Nat) :
    (sealImage keys header body c).length ≤ header.length + 4096 * ((body.length + 4095) / 4096) + 16 := by
  obtain ⟨h1, h2⟩ := chunksOf_short 4096 body.length body (by decide)
  have h3 := flatten_short ((chunksOf 4096 body.length body).mapIdx fun i u => xtsEncrypt (keys.take 64) (i + c * 2 ^ 64) u) 4096 (by
    intro q hq
    obtain ⟨i, hi, rfl⟩ := List.mem_mapIdx.1 hq
    exact xtsEncrypt_short _ _ _ (h2 _ (List.getElem_mem _)))
  have h4 : ∀ (k x : List Byte) (a : String), (kmac256 k x 16 a).length ≤ 16 := by
    intro k x a
    simp [kmac256, sponge, squeeze, rate] <;> omega
  simp only [sealImage, List.length_append, List.length_mapIdx] at *
  have := h4 (keys.drop 64) (header ++ ((chunksOf 4096 body.length body).mapIdx fun i u => xtsEncrypt (keys.take 64) (i + c * 2 ^ 64) u).flatten) "CXT"
  omega
theorem fit_length (n : Nat) (l : List Byte) : (fit n l).length = n := by simp [fit] <;> omega
theorem wit_cxsave_image : let m : ImageOf := { slots := [1], scratchAt := 0, scratchLen := 0, context := 0, counter := 1 }
    LocalBlock saving 15 5 (w64 0) 0 (sealImage (imageKeys 5 0) (imageHeader saving m) (imageBody saving m 0) 1).length 1 3 := by
  intro m
  have room : LocalBlock saving 15 5 (w64 0) 0 20560 1 3 := by decide +kernel
  have body : (imageBody saving m 0).length = 16640 := by
    have w : winLen (slotAt saving 1) = 256 := by decide +kernel
    simp [imageBody, m, windowBytes, slotRecord, fit_length, w, memReadBytes]
  have head : (imageHeader saving m).length = 64 := fit_length _ _
  have len := sealImage_short (imageKeys 5 0) (imageHeader saving m) (imageBody saving m 0) 1
  rw [body, head] at len
  generalize (sealImage (imageKeys 5 0) (imageHeader saving m) (imageBody saving m 0) 1).length = n at len
  refine ⟨room.1, room.2.1, room.2.2.1, room.2.2.2.1, ?_, room.2.2.2.2.2.1, ?_⟩
  · obtain ⟨a, b⟩ := room.2.2.2.2.1
    exact ⟨a, by omega⟩
  · have := room.2.2.2.2.2.2
    rw [if_pos (by decide)] at this ⊢
    omega
/-- KEYLD into slot 8 of partition 0, from a block of zeros: no session 0; and session 0 with a block that it unwraps. -/
def session0 : Session :=
  { state := .live, part := 0, nonce := [], secret := 0, key := 9, period := 1, grace := 1, deadline := 50, beat := 0, keyCounter := 3,
    worlds := [] }
def inSession (s : State) (x : Session) : State := { s with mod := { s.mod with sessions := [(0, x)] } }
def keyBlock : List Byte :=
  leBytes 4 0x4B455957 ++ leBytes 4 0 ++ leBytes 8 3 ++ leBytes 32 0 ++ leBytes 16 6435274331087034878668099346196133997
theorem key_tag : kmac256 (sessionKeyBytes session0) (keyBlock.take 48 ++ (le8 8 ++ le8 0)) 16 "KTAG" = (keyBlock.drop 48).take 16 := by
  decide +kernel
theorem wit_keyld_key : (keyToLoad (inSession base session0) 0 8 keyBlock).isSome = true := by
  have id : recField keyBlock 4 4 = 0 ∧ recField keyBlock 0 4 = 0x4B455957 ∧ dword keyBlock 8 = 3 := by decide +kernel
  have session : lookup (inSession base session0).mod.sessions 0 = some session0 := rfl
  have part : partAt (inSession base session0) 0 = some part0 := by decide +kernel
  have fresh : part0.destroyed = [] ∧ session0.state = .live ∧ session0.keyCounter = 3 := ⟨rfl, rfl, rfl⟩
  simp [keyToLoad, unwrapKey, id, session, part, fresh, key_tag]
theorem wit_keyld : LocalBlock (over15 ready1 1) 15 1 (rd (over15 ready1 1) 0) 0 64 64 1 ∧ (rd (over15 ready1 1) 1).toNat % 64 = 8 ∧
    (worldOf (over15 ready1 1) (worldId 0 8)).key = none ∧ (worldOf (over15 ready1 1) (worldId 0 8)).revoking = none ∧
    keyToLoad (over15 ready1 1) 0 8 (List.replicate 64 0) = none := by refine ⟨?_, ?_, ?_, ?_, ?_⟩ <;> decide +kernel
/-! ### Launches: witnesses -/

/-- Interface 0 of partition 0, enabled, with its PASID table at 0x200000: PASID 0 of world 0, and PASID 1 revoked. -/
def queueState (packet : List (Nat × Byte)) (mem : List (Nat × Byte)) : State :=
  let v : Vector Byte 64 := Vector.ofFn fun i => lookupD packet i.val 0
  { base with
    mem := [(0, 1), (2, 0x10)] ++ mem ++ [(0x100000, 0x7F), (0x200007, 0x80), (0x200008, 1), (0x20000F, 0xC0), (0x30000000, 0x3F)]
    mod := { ModuleSt.reset with
      ifaces := [(0, { Iface.reset with
        config0 := 0x200000
        config1 := w64 (2 ^ 63)
        capture := some v
        fetch := [{ pva := 0x1000, pasid := 0, vec := none, packet := 0 }] })] } }
/-- The packets: one record at 0x1000; none; a cancellation; and PASIDs 1 and 2. -/
def goodPacket : List (Nat × Byte) := [(4, 1), (9, 0x10)]
def packetOf (s : State) : List Byte := ((ifaceAt s 0).capture.map fun v => v.toList).getD []
theorem wit_submit : let s := queueState goodPacket []
    (ifaceAt base 0).capture = none ∧ (ifaceAt s 0).capture.isSome = true ∧ packetOk (packetOf s) = true ∧
    recField (packetOf s) 0 4 / 2 ^ 24 % 16 = 0 ∧ recField (packetOf s) 0 4 % 2 ^ 20 = 0 ∧
    packetOk (packetOf (queueState [] [])) = false ∧ recField (packetOf (queueState [(3, 1)] [])) 0 4 / 2 ^ 24 % 16 = 1 ∧
    packetOk (packetOf (queueState [(3, 1)] [])) = true ∧ packetOk (packetOf (queueState [(3, 1), (17, 1)] [])) = false ∧
    recField (packetOf (queueState [(0, 1), (3, 1)] [])) 0 4 % 2 ^ 20 = 1 := by
  refine ⟨?_, ?_, ?_, ?_, ?_, ?_, ?_, ?_, ?_, ?_⟩ <;> decide +kernel
theorem wit_pasid : let s := queueState goodPacket []
    (pasidEntry s (ifaceAt s 0) 0).map (fun e => (entryRevoked e, entryWorld e)) = some (false, 0) ∧
    (pasidEntry s (ifaceAt s 0) 1).map entryRevoked = some true ∧ pasidEntry s (ifaceAt s 0) 2 = none := by
  refine ⟨?_, ?_, ?_⟩ <;> decide +kernel
theorem wit_cancel : (cancelled { base with launches := [launch1] } 0 0).map (fun l => (isRefused l, isStopped l, l.id)) = some (false, false, 1) ∧
    (cancelled { base with launches := [{ launch1 with status := 5 }] } 0 0).map isStopped = some true ∧
    cancelled base 0 0 = none ∧ (launchOf { base with launches := [launch1] } 1).isSome = true ∧
    TaskAlone (inGang [(0, 0)]) 0 ∧ (slotAt (inGang [(0, 0)]) 0).state = .ready ∧
    (slotAt (inGang [(0, 0)]) 0).task.launch = 1 := by decide +kernel
/-- A record of layout 3 for kernel 0x40, whose code image is at 0x3000, with other bytes put in; and the same at 0x1000. -/
def theRecord (other : List (Nat × Byte)) : List Byte :=
  (List.range 128).map fun i =>
    lookupD (other ++ [(0, 3), (20, 0x40), (25, 0x30), (33, 0x40), (40, 4), (44, 4), (48, 1), (50, 1), (52, 1)]) i 0
def recordMem : List (Nat × Byte) :=
  [(0x1000, 3), (0x1014, 0x40), (0x1019, 0x30), (0x1021, 0x40), (0x1028, 4), (0x102C, 4), (0x1030, 1), (0x1032, 1), (0x1034, 1)]
theorem wit_record : (devRead (queueState goodPacket recordMem) 0 0x1000 128).isSome = true ∧ devRead base 0 0x1000 128 = none ∧
    layoutOk (theRecord []) = true ∧ fieldsOk (theRecord []) = true ∧ layoutOk (theRecord [(0, 4)]) = false ∧
    fieldsOk (theRecord [(48, 0)]) = false ∧ recField (theRecord []) 4 1 % 64 = 0 := by
  refine ⟨?_, ?_, ?_, ?_, ?_, ?_, ?_⟩ <;> decide +kernel
theorem wit_record_gang : recFlags (theRecord [(2, 2)]) / 2 % 2 = 1 ∧ (1 * 1 * 1) % 2 = 1 ∧ recFlags (theRecord []) / 2 % 2 = 0 ∧
    slotsInService (setCluster base 0 { ClusterSt.reset with outOfService := true }) 0 < 1 ∧ ¬ slotsInService base 0 < 1 ∧
    part0.clusters = [0] ∧ (worldOf base 0).key ≠ none ∧ (worldOf base 0).revoked = false ∧ (worldOf base 8).key = none := by
  decide +kernel
/-- A kernel table whose first header is that of kernel 0x40 and whose other positions are unused: what headerOfKernel looks for in
the 4,096 bytes that it reads. And a request that no grant holds. -/
def kernelTable : List Byte := leBytes 4 0x40 ++ [1, 1, 1, 0] ++ List.replicate 4088 0
theorem wit_header : (((List.range 32).map fun i => (kernelTable.drop (128 * i)).take 128).find? fun h =>
    recField h 0 4 == 0x40 && (List.range 3).all fun i => recField h (4 + i) 1 != 0).isSome = true := by decide +kernel
theorem wit_header_none : headerOfKernel base 0 0 0x40 = none ∧
    withinGrant base 0 0 { w0 := BitVec.ofNat 64 (2 ^ 57), w1 := 0 } = false := by decide +kernel

/-- Launch 1 queued, and eligible; its predecessor of the same queue still runs; its counter is behind. -/
def launched (f : Launch → Launch) : State := { paged [] with launches := [f launch1] }
theorem wit_eligible : let l := { launch1 with phase := 0 }
    launchOf (launched fun x => { x with phase := 0 }) 1 = some l ∧ predecessorDone (launched fun x => { x with phase := 0 }) l = true ∧
    l.waitCnt / 2 ^ 15 = 0 ∧ l.flags / 4 % 2 = 0 ∧ ({ l with flags := 4 } : Launch).flags / 4 % 2 = 1 ∧ launch1.phase ≠ 0 := by
  decide +kernel
/-- The admission FIFO holds slot 0, whose entry at 0x110000 is READY with 3 tokens: a budget of 3 admits it, one of 2 does not. -/
def admitting : State :=
  { base with mem := [(0, 1), (2, 0x10), (0x100000, 0x7F), (0x110000, 1), (0x110004, 3), (0x30000000, 0x3F)],
              parts := [(0, { part0 with admission := [0] })] }
theorem wit_admission : seqState admitting 0 0 = 1 ∧ seqTokens admitting 0 0 = 3 ∧ seqState base 0 0 ≠ 1 ∧
    (({ launch1 with dataLen := 3 } : Launch).dataLen < launch1.mbx[1].toNat + 4 * 1 ∧ launch1.mbx[1].toNat + 4 * 1 ≤ ({ launch1 with dataLen := 4 } : Launch).dataLen) := by
  refine ⟨?_, ?_, ?_, ?_⟩ <;> decide +kernel
theorem wit_colophon : let l := { launch1 with nextGang := 1, status := 3 }
    l.phase ≠ 2 ∧ predecessorDone { base with launches := [l] } l = true ∧ launchOver { base with launches := [l] } l = true ∧
    writesHome { base with launches := [l] } 1 = true ∧ part0.retiring = [] ∧ part0.tiles = [] ∧ launchOver (launched id) launch1 = false := by
  decide +kernel
/-- A launch of which a task runs, which has gangs to start, or of which a write is on its way. -/
theorem wit_colophon_waits : launch1.status ∉ [1, 2, 3, 4, 5] ∧ launch1.reason = 0 ∧ (slotAt (inGang [(0, 0)]) 0).state ≠ .empty ∧
    (slotAt (inGang [(0, 0)]) 0).task.launch = launch1.id ∧ partOfSlot (inGang [(0, 0)]) 0 = some launch1.part ∧ launch1.phase = 1 ∧
    launch1.nextGang ≠ launch1.grid[0] * launch1.grid[1] * launch1.grid[2] ∧ ({ launch1 with again := [1] } : Launch).again ≠ [] ∧
    ({ aWrite with launch := some 1 } : MemEv).launch = some launch1.id ∧ ({ aWrite with launch := some 1 } : MemEv).kind = .write := by decide +kernel
theorem wit_admission_write : (0 : BitVec 64).toNat / 2 ^ 12 % 64 = 0 ∧ (partAt admitting 0).isSome = true ∧ (0 : BitVec 64).toNat % 4096 = 0 := by
  decide +kernel
/-- Slot 0 runs a task of launch 1, whose batch holds slot 8 and not slot 3; it has retired slot 8, or not. -/
def stepping (retiring : List (Nat × Nat)) : State :=
  { inGang [(0, 0)] with launches := [{ launch1 with batch := [8] }], parts := [(0, { part0 with retiring := retiring })] }
theorem wit_sqend : OnCluster (stepping []) 0 ∧ 4096 ≤ (rd (stepping []) 4).toNat ∧ (rd (stepping []) 1).toNat = 8 ∧
    (rd (stepping []) 2).toNat = 3 ∧ (slotAt (stepping []) 0).task.launch = 1 ∧ (launchOf (stepping []) 1).isSome = true ∧
    launchOf base 0 = none ∧ partOfSlot (stepping []) 0 = some 0 ∧ (8, 1) ∈ [(8, 1)] ∧ (8, 1) ∉ part0.retiring := by decide +kernel
/-! ### Pages not present, tiers, outside accesses: witnesses -/

/-- Slot 0 waits for PVA 0x5000, which it would write; its record is not posted, or posted under token 9. -/
def absent (posted : Bool) : State := parkedOn .notPresent true (.fault 0x5000 false true 0 posted)
def faultRec : FaultRec := { page := 5, stage2 := false, write := true, token := 9, index := 0, waiters := 1, threads := [0] }
def recorded (s : State) : State := setPart s 0 { part0 with faults := [faultRec], pend := 1, tail := 1 }
theorem wit_fault_record : absence base 0 = none ∧ ((absence (absent false) 0).map fun a => (a.part, a.addr / 4096, a.stage2, a.write)) =
      some (0, 5, false, true) ∧ part0.faults.find? (fun r => r.page == 5 && r.stage2 == false) = none ∧ part0.pend < 2 ^ part0.faultLog2 ∧
    2 ^ part0.faultLog2 ≤ ({ part0 with pend := 64 } : PartSt).pend ∧
    ([faultRec].find? fun r => r.page == 5 && r.stage2 == false) = some faultRec := by
  refine ⟨?_, ?_, ?_, ?_, ?_, ?_⟩ <;> decide +kernel
theorem wit_wake : (9 : BitVec 64).toNat / 2 ^ 32 % 64 = 0 ∧ (9 : BitVec 64).toNat % 2 ^ 32 = 9 ∧
    ((partAt (recorded (absent true)) 0).bind fun x => x.faults.find? fun r => r.token == 9) = some faultRec ∧ 0 ∈ faultRec.threads ∧
    (slotAt (recorded (absent true)) 0).park = some { reason := .notPresent, abandon := true, cont := .fault 0x5000 false true 0 true } ∧
    0x5000 / 4096 = faultRec.page ∧ part0.faults = [] := by decide +kernel
theorem wit_walk : (match walk (paged []) 0 0 with | .ok _ => true | _ => false) = true ∧
    (match walk base 0 0 with | .ok _ => true | _ => false) = false ∧ partOfCluster base 0 = some 0 ∧ partOfCluster base 1 = none := by
  refine ⟨?_, ?_, ?_, ?_⟩ <;> decide +kernel

/-- Partition 0 with tier words: LOW and HIGH of tier 0, free places of tiers 0 and 1, and the control word. Frame 0 has been
accessed 3 times and may be marked. -/
def tiers (low n0 n1 control : Nat) (moving : Option Nat) : PartSt :=
  { part0 with tier := ((((Vector.replicate 16 0).set 0 (w64 (8 * 2 ^ 32 + low))).set 3 (w64 n0)).set 5 (w64 n1)).set 8 (w64 control),
               frameCounts := [{ gpaFrame := 0, flat := 0, count := 3, moving := moving }] }
/-- The entry of frame 0 has this low byte. -/
def tiered (x : PartSt) (e : Byte) : State :=
  { base with mem := [(0, 1), (2, 0x10), (0x100000, 0x7F), (0x30000000, e)], parts := [(0, x)] }
theorem wit_demote : let x := tiers 5 0 1 1 none
    let s := tiered x 0x3F
    markedFor x 0 = none ∧ tierOn x = true ∧ stackCount x 0 < lowOf x 0 ∧ stackCount x 1 ≠ 0 ∧
    ((listedFrames s x).filter fun f => isCandidate x 0 (entryAt s 0 x f) && (movingOf x f).isNone) = [0] ∧
    stackCount x 0 < highOf x 0 ∧ markedFor (tiers 5 0 1 1 (some 0)) 0 = some 0 ∧ markedFor (tiers 5 0 1 1 (some 1)) 1 = some 0 ∧
    tierOn (tiers 5 0 1 0 none) = false := by refine ⟨?_, ?_, ?_, ?_, ?_, ?_, ?_, ?_, ?_⟩ <;> decide +kernel
theorem wit_quiet : rangeQuiet (tiered part0 0x3F) 0 (2 ^ 21) = true ∧ rangeQuiet { base with iq := [{ aWrite with addrs := [0] }] } 0 (2 ^ 21) = false ∧
    entryFlat 0x3F = 0 := by decide +kernel
theorem wit_promote : let x := tiers 1 2 1 0x201 none
    let e := entryAt (tiered x 0xBF) 0 x 0
    e % 2 = 1 ∧ e / 2 ^ 9 % 4 = 0 ∧ e / 2 ^ 7 % 4 = 1 ∧ tierOn x = true ∧ promoOf x ≠ 0 ∧ promoOf x ≤ frameCount x 0 ∧ lowOf x 0 < stackCount x 0 ∧
    movingOf x 0 = none ∧ markedFor x 2 = none ∧ movingOf (tiers 1 2 1 0x201 (some 2)) 0 = some 2 ∧
    stackCount (tiers 1 0 1 0x201 (some 2)) 0 = 0 := by refine ⟨?_, ?_, ?_, ?_, ?_, ?_, ?_, ?_, ?_, ?_, ?_⟩ <;> decide +kernel
/-- Flips of frame 0: its entry absent, with BIAS 0, with BIAS 1; marked for a flip, and for another move. -/
theorem wit_flip : (0 : BitVec 64).toNat / 2 ^ 56 % 64 = 0 ∧ isDeviceFrame (entryAt base 0 part0 0) = false ∧
    isDeviceFrame (entryAt (tiered part0 0x3F) 0 part0 0) = true ∧ entryAt (tiered part0 0x3F) 0 part0 0 / 2 ^ 6 % 2 = 0 ∧
    isDeviceFrame (entryAt (tiered part0 0x7F) 0 part0 0) = true ∧ entryAt (tiered part0 0x7F) 0 part0 0 / 2 ^ 6 % 2 = 1 ∧
    movingOf part0 0 = none ∧ movingOf (tiers 0 0 0 0 (some 3)) 0 = some 3 ∧ movingOf (tiers 0 0 0 0 (some 1)) 0 = some 1 ∧
    MemoryOk (tiered (tiers 0 0 0 0 (some 3)) 0x3F) ∧ isWindow (part0.stage2 + 8 * 0) = false ∧ partAt base 1 = none := by
  refine ⟨?_, ?_, ?_, ?_, ?_, ?_, ?_, ?_, ?_, ?_, ?_, ?_⟩ <;> decide +kernel

/-- The table's entry is no metadata; a locked frame of tier 1, and one of tier 2. -/
theorem wit_entry : (∀ i < 8, isMetadata (part0.stage2 + 8 * 0 + i) = false) ∧ 0x2BF / 2 ^ 9 % 4 ≠ 0 ∧ 0x13F / 2 ^ 7 % 4 = 2 ∧ 0x13F / 2 ^ 9 % 4 = 0 := by
  decide +kernel
/-- Eight open bytes; and a sealed page, outside the window. -/
theorem wit_outside_read : (∀ i < 8, openByte base (0 + i) = true) ∧
    (∃ i < 8, isWindow (0 + i) = false ∧ openByte { base with pages := [(0, { PageMeta.reset with opened := false })] } (0 + i) = false) := by
  decide +kernel
/-- The window's first byte, the last before it, and bytes of granule 0 and beyond it. -/
theorem wit_outside : isWindow 0xF00000000000 = true ∧ isWindow 0xEFFFFFFFFFFF = false ∧ MemoryOk base ∧
    (∀ a, 0 ≤ a → a < 0 + 64 → inGranules part0.granules a = true) ∧ inGranules part0.granules (2 ^ 34) = false ∧ 0 / 64 * 64 ∉ base.poison ∧
    0 ∈ ({ base with poison := [0] } : State).poison := by
  refine ⟨?_, ?_, ?_, ?_, ?_, ?_, ?_⟩
  · decide +kernel
  · decide +kernel
  · decide +kernel
  · intro a _ h
    have : ∀ i < 64, inGranules part0.granules i = true := by decide +kernel
    exact this a (by omega)
  · decide +kernel
  · decide +kernel
  · decide +kernel

/-! ### Partitions, claims, the window: witnesses -/

/-- A descriptor of partition 1 with cluster 1 and granule 1, its stage-2 table in that granule. -/
def goodDesc : List Byte :=
  leBytes 16 1 ++ leBytes 16 2 ++ leBytes 8 2 ++ leBytes 18 0 ++ leBytes 1 12 ++ leBytes 1 6 ++ leBytes 4 4 ++ leBytes 8 0x100000 ++
  leBytes 8 0x110000 ++ leBytes 8 0 ++ leBytes 8 (2 ^ 34) ++ leBytes 8 0x120000 ++ leBytes 8 0x130000 ++ leBytes 16 8
theorem wit_create : descOkay goodDesc = true ∧ recField goodDesc 0 1 = (1 : BitVec 64).toNat % 64 ∧ descBusy base goodDesc = false ∧
    descOkay (goodDesc.set 1 1) = false ∧ descBusy base (goodDesc.set 16 1) = true ∧ descOkay (goodDesc.set 16 1) = true ∧
    descBusy base ((goodDesc.set 16 1).set 1 1) = true ∧ (dpaRead base 0 128).isSome = true ∧ dpaRead base (5 * 2 ^ 40) 128 = none := by
  refine ⟨?_, ?_, ?_, ?_, ?_, ?_, ?_, ?_, ?_⟩ <;> decide +kernel
/-- The grant table's page translates, through the tables that the descriptor names, and is sealed. -/
theorem wit_create_shut : inOpenPage base (newPart base goodDesc) 1 0x120000 = true ∧
    inOpenPage { base with mem := [(0, 1), (2, 0x10), (0x100000, 0x7F), (2 ^ 34, 0x3F)], pages := [(0x120, { PageMeta.reset with opened := false })] }
      (newPart base goodDesc) 1 0x120000 = false := by refine ⟨?_, ?_⟩ <;> decide +kernel
theorem wit_teardown : (BitVec.ofNat 64 (2 ^ 62)).toNat / 2 ^ 62 = 1 ∧ (BitVec.ofNat 64 (2 ^ 62)).toNat % 64 = 0 ∧ (partAt base 0).isSome = true ∧
    (0 : BitVec 64).toNat / 2 ^ 62 ≠ 1 ∧ partAt base 1 = none := by decide +kernel
/-- Source 3 with a claim; the sources at and past the last one; a word for the host. -/
def claimed (c : Claim) : State := { base with mod := { base.mod with claims := [(3, c)] } }
theorem wit_claims : 198 ≤ 198 ∧ 197 < 198 ∧ (0x300 : BitVec 64).toNat / 2 ^ 8 % 256 = 3 ∧ (0x300 : BitVec 64).toNat / 2 ^ 61 % 2 = 0 ∧
    (BitVec.ofNat 64 (2 ^ 61 + 0x300)).toNat / 2 ^ 61 % 2 = 1 ∧ claimAt (claimed { Claim.reset with sup := true }) 3 = { Claim.reset with sup := true } ∧
    claimAt (claimed { Claim.reset with pend := true }) 3 = { Claim.reset with pend := true } ∧
    claimAt (claimed { Claim.reset with host := true, occurred := true }) 3 = { Claim.reset with host := true, occurred := true } ∧
    claimAt base 3 = Claim.reset := by decide +kernel
/-- MSI-X table words: VALID of partition 0, and not. -/
theorem wit_msix : 2 ^ 31 / 2 ^ 31 = 1 ∧ 2 ^ 31 / 2 ^ 16 % 64 = 0 ∧ partOfSource 3 = some 3 ∧ partOfSource 64 = some 0 ∧ 0 / 2 ^ 31 ≠ 1 := by
  decide +kernel
/-- Entry 0 of table 0 is valid for source 3 and names vector 5, which is masked or not. -/
theorem wit_msix_entry : let s := { base with mem := [(0x200000, 5), (0x200002, 3), (0x200003, 0x80)] ++ base.mem }
    leNat (memReadBytes s.mem (0x200000 + 4 * 0) 4) = 2 ^ 31 + 3 * 2 ^ 16 + 5 ∧ (2 ^ 31 + 3 * 2 ^ 16 + 5) / 2 ^ 31 = 1 ∧
    (2 ^ 31 + 3 * 2 ^ 16 + 5) / 2 ^ 16 % 64 = 3 ∧ (2 ^ 31 + 3 * 2 ^ 16 + 5) % 2048 = 5 ∧ (0, 5) ∉ s.mod.msixMask ∧
    (0, 5) ∈ ({ s.mod with msixMask := [(0, 5)] } : ModuleSt).msixMask := by refine ⟨?_, ?_, ?_, ?_, ?_, ?_⟩ <;> decide +kernel
/-- Writes of the thresholds: at the readings and below them; and of the mask of vector 5 of function 0, set and clear, with a message pending. -/
theorem wit_threshold_write : let s := { base with mod := { base.mod with power := 300, temp := 60 } }
    let at_ := 300 * 2 ^ 16 + 60
    let low := 299 * 2 ^ 16 + 59
    s.mod.power ≤ at_ / 2 ^ 16 % 2 ^ 16 ∧ s.mod.temp ≤ at_ % 256 ∧ low / 2 ^ 16 % 2 ^ 16 < s.mod.power ∧ low % 256 < s.mod.temp := by decide +kernel
theorem wit_mask_write : 2 ^ 25 + 16 * (2048 * 0 + 5) + 8 = 33554520 ∧ 33554520 % 8 = 0 ∧ 2 ^ 32 / 2 ^ 32 % 2 = 1 ∧ 0 / 2 ^ 32 % 2 = 0 ∧
    (0, 5) ∈ ({ base.mod with msixMask := [(0, 5)], msixPending := [(0, 5)] } : ModuleSt).msixPending ∧ (0, 5) ∉ base.mod.msixPending := by decide +kernel
theorem wit_lanes : part0.lanes.getD 0 0 = 15 ∧ part0.lanes.getD 1 0 ≠ 15 := by decide
/-- A frame of the tier engine is moving, moving for a flip, or not moving. -/
theorem wit_tier_write : (∃ f ∈ (tiers 0 0 0 0 (some 1)).frameCounts, ∃ m < 3, f.moving = some m) ∧
    (∀ f ∈ (tiers 0 0 0 0 (some 3)).frameCounts, ∀ m < 3, f.moving ≠ some m) ∧
    (∀ f ∈ (tiers 0 0 0 0 none).frameCounts, ∀ m < 3, f.moving ≠ some m) := by decide +kernel
/-- An offset of each kind at the ends of its range. -/
theorem wit_offsets : 4 % 8 ≠ 0 ∧ 0x1000 = 0x1000 + 128 * 0 + 8 * 0 ∧ 0x2FF8 = 0x1000 + 128 * 63 + 8 * 15 ∧ 0x4000 = 0x4000 + 16 * 0 ∧
    0x5FF8 = 0x4008 + 16 * 511 ∧ 0x61F8 = 0x6000 + 8 * 63 ∧ 0x7FF8 = 0x7000 + 64 * 63 + 8 * 7 ∧ 2 ^ 24 + 4096 * 511 + 0x38 = 2 ^ 24 + 4096 * 511 + 8 * 7 ∧
    0xBFF8 = 0x8000 + 128 * 127 + 8 * 15 ∧ 0xC9F8 = 0xC000 + 8 * 319 ∧ (ifaceAt base 0).capture = none := by decide +kernel
theorem wit_select : (∃ v < 64, selectOk v 8 = true ∧ selectOk v 23 = true ∧ selectOk v 24 = true) ∧ selectOk (2 ^ 20) 8 = false ∧
    selectOk (2 ^ 20) 24 = false := by decide +kernel
/-! ### Page keys, sessions, the device: witnesses -/

/-- Words for page 1 and domain 0; domain 8 has no key. -/
theorem wit_page : (0x1000 : BitVec 64).toNat / 2 ^ 12 % 2 ^ 36 = 1 ∧ (0x1000 : BitVec 64).toNat / 2 ^ 48 % 2 ^ 12 = 0 ∧
    (0x1000 : BitVec 64).toNat % 4096 = 0 ∧ (0x1001 : BitVec 64).toNat % 4096 ≠ 0 ∧ worldKey base 0 ≠ none ∧ worldKey base 8 = none ∧
    isDpa (1 * 4096) = true ∧ isWindow (1 * 4096) = false ∧ isMetadata (1 * 4096) = false ∧ base.mod.pageMoves = [] ∧
    pageMoving base 1 = false ∧ pageMoving (tiered (tiers 0 0 0 0 (some 3)) 0x3F) 1 = true ∧ (pageAt base (4096 * 1)).opened = true ∧
    (pageAt { base with pages := [(1, { PageMeta.reset with opened := false })] } (4096 * 1)).opened = false := by decide +kernel
def pageMove : State := { base with mod := { base.mod with pageMoves := [1] } }
theorem wit_page_done : 1 ∈ pageMove.mod.pageMoves ∧ rangeQuiet pageMove (4096 * 1) 4096 = true ∧ MemoryOk pageMove ∧
    rangeQuiet { pageMove with iq := [{ aWrite with addrs := [4096] }] } (4096 * 1) 4096 = false := by decide +kernel

theorem wit_session : freeSession base = some 0 ∧ base.mod.moduleFault = false ∧ (partAt base 0).isSome = true ∧ sessionAt base 0 = none ∧
    sessionAt (inSession base session0) 0 = some session0 ∧ session0.state = .live ∧ session0.deadline < base.cycle ∧
    ({ session0 with state := .opening } : Session).state = .opening ∧ (1 ≤ 60 ∧ 60 ≤ 60 ∧ 10 ≤ 10) ∧ ¬ 11 ≤ 10 ∧ ¬ 61 ≤ 60 := by decide +kernel
theorem wit_heartbeat : (BitVec.ofNat 64 (4 * 2 ^ 32)).toNat % 64 = 0 ∧ session0.beat ≤ (BitVec.ofNat 64 (4 * 2 ^ 32)).toNat / 2 ^ 32 ∧
    (BitVec.ofNat 64 10713046959017363270).toNat = leNat (kmac256 (leBytes 32 session0.key.toNat) (leBytes 8 (BitVec.ofNat 64 (4 * 2 ^ 32)).toNat) 8 "HB") := by
  decide +kernel
/-- The session has been held for its grace; world 0 belongs to it, and a launch of that world runs. -/
theorem wit_grace : let x := { session0 with state := .heldState, worlds := [0] }
    let s := { inSession base x with cycle := 1200000051, launches := [launch1] }
    x.state = .heldState ∧ x.deadline + x.grace * 1200000000 < s.cycle ∧ partAt s (0 / 64) ≠ none ∧ launchOf s launch1.id = some launch1 ∧
    launch1.world ∈ x.worlds ∧ launch1.phase ≠ 2 ∧ isRefused launch1 = false ∧ isStopped launch1 = false := by
  refine ⟨?_, ?_, ?_, ?_, ?_, ?_, ?_, ?_⟩ <;> decide +kernel

/-- Faults of each kind at the ends of its range; readings above a limit and at it; a clock that can still fall. -/
theorem wit_fault_kinds : 0 < 7 ∧ 6 < 7 ∧ (8 = 8 ∨ 8 = 9) ∧ (9 = 8 ∨ 9 = 9) ∧ 9 < 10 ∧ (4200 < 4201 ∨ 105 < 0) ∧ ¬ (4200 < 4200 ∨ 105 < 105) ∧
    1 < (clusterAt base 0).clock ∧ (match (none : Option Nat) with | some g => g | none => 1) ≤ 10 := by decide +kernel
/-- Core 0 fails while slot 0 runs a task of launch 1. -/
def failing : State := { inGang [(0, 0)] with launches := [launch1] }
theorem wit_device_fault : (0, 0) ∉ failing.mod.failed ∧ hitLaunches failing (freeReservations (takeOut failing 0 0)) 0 0 = [1] ∧ ownersOf failing 0 0 = [0] ∧
    (slotAt failing 0).unwind = none ∧ failing.mod.faultLog.length < 64 ∧ 0 < 7 ∧ 7 < 8 ∧
    (0, 0) ∈ ({ failing.mod with failed := [(0, 0)] } : ModuleSt).failed := by refine ⟨?_, ?_, ?_, ?_, ?_, ?_, ?_, ?_⟩ <;> decide +kernel
theorem wit_fault_slots : ∀ k, (slotAt failing k).unwind = none := by
  intro k
  by_cases h : k = 0
  · subst h; rfl
  · have e : slotAt failing k = SlotSt.reset := by
      simp [slotAt, failing, inGang, lookupD, lookup, h]
    rw [e]; rfl
theorem wit_thresholds : base.mod.pth = 4200 ∧ base.mod.tth = 95 ∧ base.mod.pth < 4201 ∧ ¬ base.mod.pth < 4200 ∧ base.mod.tth < 96 ∧
    ¬ base.mod.tth < 95 ∧ (4200 < 4201 ∧ 105 < 106) ∧ (clusterAt base 0).clock = 120 ∧ 127 < 128 ∧ 128 ≤ 128 := by decide +kernel

end Sys2Proof.Tests
end

section
/-! Words of formats A and I, field by field (R94), and the decoder's groups on them (R102, R103). -/

namespace Sys2Proof

open Sys2Proof.Safety

/-! ### The fields of a word -/

/-- A field of a word, from its number. -/
theorem fld_eq_of_num {w lo n : Nat} {x : BitVec n} (h : num w lo n = x.toNat) : fld w lo n = x :=
  BitVec.eq_of_toNat_eq (by simpa [fld, num] using h)

section formatA

variable (M : Nat) (d a b : BitVec 5) (m : Nat)

theorem num_wordA_major (hM : M < 64) (hm : m < 2048) : num (wordA M d a b m) 26 6 = M := by
  have := d.isLt; have := a.isLt; have := b.isLt
  simp only [num, wordA]; omega

theorem num_wordA_minor (hm : m < 2048) : num (wordA M d a b m) 0 11 = m := by
  simp only [num, wordA]; omega

theorem num_wordA_d (hm : m < 2048) : num (wordA M d a b m) 21 5 = d.toNat := by
  have := d.isLt; have := a.isLt; have := b.isLt
  simp only [num, wordA]; omega

theorem num_wordA_a (hm : m < 2048) : num (wordA M d a b m) 16 5 = a.toNat := by
  have := a.isLt; have := b.isLt
  simp only [num, wordA]; omega

theorem num_wordA_b (hm : m < 2048) : num (wordA M d a b m) 11 5 = b.toNat := by
  have := b.isLt
  simp only [num, wordA]; omega

/-- Of field b, the three low bits and the two above them. -/
theorem num_wordA_bLow (hm : m < 2048) : num (wordA M d a b m) 11 3 = b.toNat % 8 := by
  simp only [num, wordA]; omega

theorem num_wordA_bHigh (hm : m < 2048) : num (wordA M d a b m) 14 2 = b.toNat / 8 := by
  have := b.isLt
  simp only [num, wordA]; omega

theorem fld_wordA_d (hm : m < 2048) : fld (wordA M d a b m) 21 5 = d := fld_eq_of_num (num_wordA_d M d a b m hm)
theorem fld_wordA_a (hm : m < 2048) : fld (wordA M d a b m) 16 5 = a := fld_eq_of_num (num_wordA_a M d a b m hm)
theorem fld_wordA_b (hm : m < 2048) : fld (wordA M d a b m) 11 5 = b := fld_eq_of_num (num_wordA_b M d a b m hm)

end formatA

section formatI

variable (M : Nat) (d a : BitVec 5) (i : BitVec 16)

theorem num_wordI_major (hM : M < 64) : num (wordI M d a i) 26 6 = M := by
  have := d.isLt; have := a.isLt; have := i.isLt
  simp only [num, wordI]; omega

theorem num_wordI_d : num (wordI M d a i) 21 5 = d.toNat := by
  have := d.isLt; have := a.isLt; have := i.isLt
  simp only [num, wordI]; omega

theorem num_wordI_a : num (wordI M d a i) 16 5 = a.toNat := by
  have := a.isLt; have := i.isLt
  simp only [num, wordI]; omega

theorem num_wordI_imm : num (wordI M d a i) 0 16 = i.toNat := by
  have := i.isLt
  simp only [num, wordI]; omega

/-- The parts of field a that LIT and LOOP read, and the bits above them. -/
theorem num_wordI_group : num (wordI M d a i) 16 2 = a.toNat % 4 := by
  have := i.isLt
  simp only [num, wordI]; omega

theorem num_wordI_aboveGroup : num (wordI M d a i) 18 3 = a.toNat / 4 := by
  have := a.isLt; have := i.isLt
  simp only [num, wordI]; omega

theorem num_wordI_counter : num (wordI M d a i) 16 1 = a.toNat % 2 := by
  have := i.isLt
  simp only [num, wordI]; omega

theorem num_wordI_aboveCounter : num (wordI M d a i) 17 4 = a.toNat / 2 := by
  have := a.isLt; have := i.isLt
  simp only [num, wordI]; omega

/-- The parts of the immediate that a shift by a constant reads: the op, the bits that are 0, and the amount. -/
theorem num_wordI_op : num (wordI M d a i) 14 2 = i.toNat / 2 ^ 14 := by
  have := i.isLt
  simp only [num, wordI]; omega

theorem num_wordI_zeros : num (wordI M d a i) 6 8 = i.toNat / 2 ^ 6 % 2 ^ 8 := by
  simp only [num, wordI]; omega

theorem num_wordI_amount : num (wordI M d a i) 0 6 = i.toNat % 2 ^ 6 := by
  simp only [num, wordI]; omega

theorem fld_wordI_d : fld (wordI M d a i) 21 5 = d := fld_eq_of_num (num_wordI_d M d a i)
theorem fld_wordI_a : fld (wordI M d a i) 16 5 = a := fld_eq_of_num (num_wordI_a M d a i)
theorem fld_wordI_imm : fld (wordI M d a i) 0 16 = i := fld_eq_of_num (num_wordI_imm M d a i)

end formatI

/-! ### The groups of the decoder -/

theorem legal_wf {i : Instr} (h : i.wf = true) : legal i = .ok i := if_pos h

theorem decode_alu {w : Nat} (h : num w 26 6 = 0x01) : decode w = decodeAlu w := by simp only [decode, h]
theorem decode_shi {w : Nat} (h : num w 26 6 = 0x06) : decode w = decodeShi w := by simp only [decode, h]
theorem decode_bits {w : Nat} (h : num w 26 6 = 0x0C) : decode w = decodeBits w := by simp only [decode, h]
theorem decode_ptr {w : Nat} (h : num w 26 6 = 0x0D) : decode w = decodePtr w := by simp only [decode, h]
theorem decode_jrGroup {w : Nat} (h : num w 26 6 = 0x18) : decode w = decodeJrGroup w := by simp only [decode, h]

/-- The ALU group's instructions by minor (R103, R117). -/
def aluRows (d a b : BitVec 5) : List Instr :=
  [.add d a b, .sub d a b, .and d a b, .or d a b, .xor d a b, .andn d a b, .shl d a b, .shr d a b, .sar d a b, .rol d a b,
    .min d a b, .max d a b, .minn d a b, .maxn d a b, .slt d a b, .sltn d a b, .seq d a b, .sne d a b, .addw d a b, .subw d a b]

/-- A word of the ALU group reads as the instruction of its minor, and as none past the last. -/
theorem decode_wordA_alu (d a b : BitVec 5) (m : Nat) (hm : m < 2048) :
    decode (wordA 0x01 d a b m) = ((aluRows d a b)[m]?).elim (.error .minor) .ok := by
  rw [decode_alu (num_wordA_major 1 d a b m (by decide) hm), decodeAlu, num_wordA_minor 1 d a b m hm,
    fld_wordA_d 1 d a b m hm, fld_wordA_a 1 d a b m hm, fld_wordA_b 1 d a b m hm]
  iterate 20
    rcases m with _ | m
    · rfl
  rfl

/-- The instructions of the BITS group with one source, by minor (R103, R122). -/
def bitsRows (d a : BitVec 5) : List Instr :=
  [.clz d a, .ctz d a, .popc d a, .brev d a, .sextb d a, .sexth d a, .sextw d a, .zextb d a, .zexth d a, .zextw d a]

/-- With field b all 0, a word of the BITS group below minor 10 reads as the instruction of its minor. -/
theorem decode_wordA_bits (d a : BitVec 5) (m : Nat) (i : Instr) (h : (bitsRows d a)[m]? = some i) :
    decode (wordA 0x0C d a 0 m) = .ok i := by
  obtain ⟨hl, rfl⟩ := List.getElem?_eq_some_iff.mp h
  change m < 10 at hl
  have hm : m < 2048 := by omega
  rw [decode_bits (num_wordA_major 12 d a 0 m (by decide) hm), decodeBits, num_wordA_minor 12 d a 0 m hm, num_wordA_b 12 d a 0 m hm,
    fld_wordA_d 12 d a 0 m hm, fld_wordA_a 12 d a 0 m hm]
  iterate 10
    rcases m with _ | m
    · rfl
  omega

/-- The two instructions of the BITS group that read field b (R123). -/
theorem decode_wordA_bitField (d a b : BitVec 5) {m : Nat} {i : Instr} (h : m = 10 ∧ i = .bfx d a b ∨ m = 11 ∧ i = .bfi d a b) :
    decode (wordA 0x0C d a b m) = .ok i := by
  have hm : m < 2048 := by omega
  rw [decode_bits (num_wordA_major 12 d a b m (by decide) hm), decodeBits, num_wordA_minor 12 d a b m hm, fld_wordA_d 12 d a b m hm,
    fld_wordA_a 12 d a b m hm, fld_wordA_b 12 d a b m hm]
  rcases h with ⟨rfl, rfl⟩ | ⟨rfl, rfl⟩ <;> rfl

/-- The pointer group's answers by minor, of its three fields (R103, R124, R125). -/
def ptrRow (d a b : BitVec 5) : Nat → Except Reject Instr
  | 0 => .ok (.padd d a b)
  | 1 => .ok (.psub d a b)
  | 2 => .ok (.pfmt d a b)
  | 3 => if b = 0 then .ok (.pmeta d a) else .error .field
  | 4 => if b = 0 then .ok (.pclr d a) else .error .field
  | 5 => if b.toNat < 8 then .ok (.pchk d a (b.setWidth 3)) else .error .field
  | _ => .error .minor

theorem decode_wordA_ptr (d a b : BitVec 5) (m : Nat) (hm : m < 2048) : decode (wordA 0x0D d a b m) = ptrRow d a b m := by
  have hb : (num (wordA 13 d a b m) 11 5 == 0) = decide (b = 0) := by
    rw [num_wordA_b 13 d a b m hm, Bool.eq_iff_iff, beq_iff_eq, decide_eq_true_iff, ← BitVec.toNat_inj]; rfl
  have hh : (num (wordA 13 d a b m) 14 2 == 0) = decide (b.toNat < 8) := by
    rw [num_wordA_bHigh 13 d a b m hm, Bool.eq_iff_iff, beq_iff_eq, decide_eq_true_iff]; omega
  have hl : fld (wordA 13 d a b m) 11 3 = b.setWidth 3 :=
    fld_eq_of_num (by rw [num_wordA_bLow 13 d a b m hm, BitVec.toNat_setWidth])
  rw [decode_ptr (num_wordA_major 13 d a b m (by decide) hm), decodePtr, num_wordA_minor 13 d a b m hm, hb, hh, hl,
    fld_wordA_d 13 d a b m hm, fld_wordA_a 13 d a b m hm, fld_wordA_b 13 d a b m hm]
  simp only [decide_eq_true_eq]
  iterate 6
    rcases m with _ | m
    · rfl
  rfl

theorem decode_wordA_jr (a : BitVec 5) : decode (wordA 0x18 0 a 0 0) = .ok (.jr a) := by
  rw [decode_jrGroup (num_wordA_major 24 0 a 0 0 (by decide) (by decide)), decodeJrGroup, num_wordA_minor 24 0 a 0 0 (by decide),
    num_wordA_d 24 0 a 0 0 (by decide), num_wordA_b 24 0 a 0 0 (by decide), fld_wordA_a 24 0 a 0 0 (by decide)]
  rfl

theorem decode_wordA_jalr (d a : BitVec 5) : decode (wordA 0x18 d a 0 1) = .ok (.jalr d a) := by
  rw [decode_jrGroup (num_wordA_major 24 d a 0 1 (by decide) (by decide)), decodeJrGroup, num_wordA_minor 24 d a 0 1 (by decide),
    num_wordA_b 24 d a 0 1 (by decide), fld_wordA_d 24 d a 0 1 (by decide), fld_wordA_a 24 d a 0 1 (by decide)]
  rfl

/-- The instructions whose word is two registers and 16 bits, by major (R102): immediates and branches. -/
def formIRow (d a : BitVec 5) (i : BitVec 16) : Nat → Option Instr
  | 0x02 => some (.addi d a i)
  | 0x03 => some (.andi d a i)
  | 0x04 => some (.ori d a i)
  | 0x05 => some (.xori d a i)
  | 0x09 => some (.slti d a i)
  | 0x0A => some (.sltni d a i)
  | 0x10 => some (.beq d a i)
  | 0x11 => some (.bne d a i)
  | 0x12 => some (.blt d a i)
  | 0x13 => some (.bge d a i)
  | 0x14 => some (.bltn d a i)
  | 0x15 => some (.bgen d a i)
  | _ => none

theorem decode_wordI_row {M : Nat} {d a : BitVec 5} {i : BitVec 16} {x : Instr} (h : formIRow d a i M = some x) :
    decode (wordI M d a i) = .ok x := by
  have hM : M < 64 → num (wordI M d a i) 26 6 = M := num_wordI_major M d a i
  unfold formIRow at h
  split at h <;> cases h
  all_goals
    simp only [decode, hM (by decide), fld_wordI_d, fld_wordI_a, fld_wordI_imm]
    rfl

/-- The shifts by a constant, by op (R103, R118). -/
def shiRows (d a : BitVec 5) (c : BitVec 6) : List Instr := [.shli d a c, .shri d a c, .sari d a c, .roli d a c]

theorem toNat_shiImm (k : BitVec 2) (c : BitVec 6) : (k ++ 0#8 ++ c).toNat = k.toNat * 2 ^ 14 + c.toNat := by
  have hc := c.isLt
  rw [BitVec.toNat_append, BitVec.toNat_append, ← Nat.shiftLeft_add_eq_or_of_lt hc, Nat.shiftLeft_eq, Nat.shiftLeft_eq]
  simp only [BitVec.toNat_ofNat, Nat.zero_mod, Nat.or_zero]
  omega

theorem decode_wordI_shi (d a : BitVec 5) (k : BitVec 2) (c : BitVec 6) (i : Instr) (h : (shiRows d a c)[k.toNat]? = some i) :
    decode (wordI 0x06 d a (k ++ 0#8 ++ c)) = .ok i := by
  have hk := k.isLt
  have hc := c.isLt
  have hz : num (wordI 6 d a (k ++ 0#8 ++ c)) 6 8 = 0 := by rw [num_wordI_zeros, toNat_shiImm]; omega
  have ho : num (wordI 6 d a (k ++ 0#8 ++ c)) 14 2 = k.toNat := by rw [num_wordI_op, toNat_shiImm]; omega
  have hf : fld (wordI 6 d a (k ++ 0#8 ++ c)) 0 6 = c := fld_eq_of_num (by rw [num_wordI_amount, toNat_shiImm]; omega)
  obtain ⟨hl, rfl⟩ := List.getElem?_eq_some_iff.mp h
  rw [decode_shi (num_wordI_major 6 d a _ (by decide)), decodeShi, ho, hz, hf, fld_wordI_d, fld_wordI_a]
  generalize k.toNat = n at hl hk
  iterate 4
    rcases n with _ | n
    · rfl
  omega

theorem decode_wordI_movi (d : BitVec 5) (i : BitVec 16) : decode (wordI 0x07 d 0 i) = .ok (.movi d i) := by
  simp only [decode, num_wordI_major 7 d 0 i (by decide), num_wordI_a, fld_wordI_d, fld_wordI_imm]
  rfl

theorem decode_wordI_lit (d : BitVec 5) (k : BitVec 2) (i : BitVec 16) :
    decode (wordI 0x08 d (k.setWidth 5) i) = .ok (.lit d k i) := by
  have hk : (k.setWidth 5).toNat = k.toNat := by rw [BitVec.toNat_setWidth]; omega
  have hz : num (wordI 8 d (k.setWidth 5) i) 18 3 = 0 := by rw [num_wordI_aboveGroup, hk]; omega
  have hg : fld (wordI 8 d (k.setWidth 5) i) 16 2 = k := fld_eq_of_num (by rw [num_wordI_group, hk]; omega)
  simp only [decode, num_wordI_major 8 d (k.setWidth 5) i (by decide), hz, hg, fld_wordI_d, fld_wordI_imm]
  rfl

/-- The word of LOOP, whose offset step 3 of R107 checks. -/
theorem decode_wordI_loop (a : BitVec 5) (n : BitVec 1) (o : BitVec 16) :
    decode (wordI 0x19 a (n.setWidth 5) o) = legal (.loop a n o) := by
  have hn : (n.setWidth 5).toNat = n.toNat := by rw [BitVec.toNat_setWidth]; omega
  have hz : num (wordI 25 a (n.setWidth 5) o) 17 4 = 0 := by rw [num_wordI_aboveCounter, hn]; omega
  have hc : fld (wordI 25 a (n.setWidth 5) o) 16 1 = n := fld_eq_of_num (by rw [num_wordI_counter, hn]; omega)
  simp only [decode, num_wordI_major 25 a (n.setWidth 5) o (by decide), hz, hc, fld_wordI_d, fld_wordI_imm]
  rfl

/-- A word of format J: a major and 26 bits. -/
theorem num_wordJ_major (M : Nat) (f : BitVec 26) (hM : M < 64) : num (M * 2 ^ 26 + f.toNat) 26 6 = M := by
  have := f.isLt
  simp only [num]; omega

theorem fld_wordJ_offset (M : Nat) (f : BitVec 26) : fld (M * 2 ^ 26 + f.toNat) 0 26 = f :=
  fld_eq_of_num (by have := f.isLt; simp only [num]; omega)

theorem decode_wordJ_j (f : BitVec 26) : decode (0x16 * 2 ^ 26 + f.toNat) = .ok (.j f) := by
  simp only [decode, num_wordJ_major 0x16 f (by decide), fld_wordJ_offset]
  rfl

theorem decode_wordJ_jal (f : BitVec 26) : decode (0x17 * 2 ^ 26 + f.toNat) = .ok (.jal f) := by
  simp only [decode, num_wordJ_major 0x17 f (by decide), fld_wordJ_offset]
  rfl

end Sys2Proof
end

section
/-! What instructions that change only scalar registers, loop counters and the PC leave behind (R24, R116, R130, R131). -/

namespace Sys2Proof.Machine

open Sys2Proof.Safety

/-! ### Rows of one register -/

/-- A row of a table: the meaning is a write of a register and a retire, and the value written is the one the row names. -/
theorem writes_row {i : Instr} {s : State} {d : BitVec 5} {v u : Word} (h : exec i s = setReg s d v) (hv : v = u) : Writes i s d u := by
  obtain ⟨t, ht, hw⟩ := setReg_wrote s d u
  exact ⟨t, by rw [h, hv, ht], hw⟩

/-! ### The scalar state under a write, a jump and a retire -/

/-- A change of the scalar state is the choice of its new value. -/
theorem modScOf_const (s : State) (ag : Agent) (f : ScalarSt → ScalarSt) : modScOf s ag f = modScOf s ag fun _ => f (scOf s ag) := by
  cases ag <;> rfl

/-- The scalar state with register d written; s0 discards the write (R95). -/
def withReg (x : ScalarSt) (d : BitVec 5) (v : Word) : ScalarSt := if d = 0 then x else { x with s := x.s.set d.toNat v d.isLt }

theorem withReg_frame (x : ScalarSt) (d : BitVec 5) (v : Word) : withReg x d v = { x with s := (withReg x d v).s } := by
  unfold withReg; split <;> rfl

theorem withReg_read (x : ScalarSt) (d : BitVec 5) (v : Word) (r : BitVec 5) (hr : r ≠ 0) :
    (withReg x d v).s[r.toNat]'r.isLt = if r = d then v else x.s[r.toNat]'r.isLt := by
  unfold withReg
  by_cases hd : d = 0
  · rw [if_pos hd, if_neg (fun h => hr (h.trans hd))]
  · simp only [if_neg hd, Vector.getElem_set, BitVec.toNat_inj, eq_comm]

@[simp] theorem wr_cur (s : State) (d : BitVec 5) (v : Word) : (wr s d v).cur = s.cur := by
  unfold wr setRegOf; split <;> simp

/-- A register written and the scalar state then changed are one change. -/
theorem modScOf_wr (s : State) (d : BitVec 5) (v : Word) (f : ScalarSt → ScalarSt) :
    modScOf (wr s d v) s.cur f = modScOf s s.cur fun x => f (withReg x d v) := by
  unfold wr setRegOf withReg
  split
  · rfl
  · rw [modScOf_modScOf]

/-! ### What a state with a changed scalar state shows -/

theorem sameBytes_modScOf (s : State) (f : ScalarSt → ScalarSt) : SameBytes s (modScOf s s.cur f) := fun _ => by rw [modScOf_mem]

theorem onlyScalar_modScOf (s : State) (x : ScalarSt)
    (h : x = { scOf s s.cur with pc := x.pc, s := x.s, lc0 := x.lc0, lc1 := x.lc1 }) : OnlyScalar s (modScOf s s.cur fun _ => x) :=
  ⟨sameBytes_modScOf s _, x, rfl, h⟩

theorem sameRegs_modScOf {s : State} {f : ScalarSt → ScalarSt} (h : (f (scOf s s.cur)).s = (scOf s s.cur).s) :
    SameRegs s (modScOf s s.cur f) := fun r => by
  rw [rd_modScOf, h]; rfl

theorem regIs_modScOf {s : State} {f : ScalarSt → ScalarSt} {d : BitVec 5} {v : Word}
    (h : (f (scOf s s.cur)).s = (withReg (scOf s s.cur) d v).s) : RegIs s (modScOf s s.cur f) d v := fun r => by
  rw [rd_modScOf, h]
  by_cases hr : r = 0
  · rw [if_pos hr, if_neg (fun h => h.2 hr), rd, regOf, if_pos hr]
  · rw [if_neg hr, withReg_read _ _ _ _ hr, rd, regOf, if_neg hr]
    simp only [hr, ne_eq, not_false_eq_true, and_true]

theorem scOf_modScOf_cur (s : State) (f : ScalarSt → ScalarSt) :
    scOf (modScOf s s.cur f) (modScOf s s.cur f).cur = f (scOf s s.cur) := by simp

theorem sameLoops_modScOf {s : State} {f : ScalarSt → ScalarSt}
    (h0 : (f (scOf s s.cur)).lc0 = (scOf s s.cur).lc0) (h1 : (f (scOf s s.cur)).lc1 = (scOf s s.cur).lc1) :
    SameLoops s (modScOf s s.cur f) := fun n => by
  rw [scOf_modScOf_cur, getLoop, getLoop, h0, h1]

/-! ### Going to an address -/

/-- The PC set: every register, loop counter and byte stays. -/
theorem goesTo_of_setPc {i : Instr} {s : State} {p : Word} (h : exec i s = .next (setPcOf s s.cur p)) : GoesTo i s p :=
  ⟨_, h, by rw [setPcOf, modScOf_const]; exact onlyScalar_modScOf s _ rfl, sameRegs_modScOf rfl, sameLoops_modScOf rfl rfl,
    pc_modScOf s _⟩

/-- A link register written and the PC set (R128). -/
theorem link_setPc (s : State) (l : BitVec 5) (v p : Word) :
    let t := setPcOf (wr s l v) s.cur p
    OnlyScalar s t ∧ SameLoops s t ∧ pc t = p ∧ RegIs s t l v := by
  have ht : setPcOf (wr s l v) s.cur p = modScOf s s.cur fun x => { withReg x l v with pc := p } := modScOf_wr s l v _
  have hx : withReg (scOf s s.cur) l v = { scOf s s.cur with s := (withReg (scOf s s.cur) l v).s } := withReg_frame _ l v
  simp only [ht]
  refine ⟨?_, sameLoops_modScOf (by rw [hx]) (by rw [hx]), pc_modScOf s _, regIs_modScOf rfl⟩
  rw [modScOf_const]
  exact onlyScalar_modScOf s _ (by rw [hx])

/-- Retiring alone: every register and byte stays, and the PC goes on. -/
theorem retire_goneOn (s : State) : OnlyScalar s (retire s) ∧ SameRegs s (retire s) ∧ GoneOn s (retire s) := by
  have h0 : writeRetire s 0 0 = retire s := by simp [writeRetire, wr, setRegOf]
  obtain ⟨t, ht, hs, hr, hg⟩ := setReg_wrote s 0 0
  obtain rfl : retire s = t := by rw [← h0]; simpa [setReg] using ht
  exact ⟨hs, fun r => (hr r).trans (if_neg fun h => h.2 h.1), hg⟩

end Sys2Proof.Machine
end

section
/-! The values of the scalar rows, as numbers and bits (R117 to R125). -/

namespace Sys2Proof.Machine

/-! ### Shifts and comparisons (R117, R118) -/

theorem shiftLeft_eq_mul (x : Word) (n : Nat) : x <<< n = BitVec.ofNat 64 (x.toNat * 2 ^ n) :=
  BitVec.eq_of_toNat_eq (by rw [BitVec.toNat_shiftLeft, BitVec.toNat_ofNat, Nat.shiftLeft_eq])

theorem ushiftRight_eq_div (x : Word) (n : Nat) : x >>> n = BitVec.ofNat 64 (x.toNat / 2 ^ n) := by
  apply BitVec.eq_of_toNat_eq
  rw [BitVec.toNat_ushiftRight, BitVec.toNat_ofNat, Nat.shiftRight_eq_div_pow,
    Nat.mod_eq_of_lt (Nat.lt_of_le_of_lt (Nat.div_le_self _ _) x.isLt)]

theorem sshiftRight_eq_div (x : Word) (n : Nat) : x.sshiftRight n = BitVec.ofInt 64 (x.toInt / 2 ^ n) := by
  rw [BitVec.sshiftRight, Int.shiftRight_eq_div_pow]
  rfl

theorem rotateLeft_eq_or (x : Word) (n : Nat) (h : n < 64) : x.rotateLeft n = x <<< n ||| x >>> (64 - n) := by
  rw [BitVec.rotateLeft, Nat.mod_eq_of_lt h]
  rfl

theorem boolWord_decide (p : Prop) [Decidable p] : boolWord (decide p) = if p then 1 else 0 := by
  unfold boolWord
  simp only [decide_eq_true_eq]

theorem slt_eq_decide (x y : Word) : x.slt y = decide (x.toInt < y.toInt) := rfl
theorem ult_eq_decide (x y : Word) : x.ult y = decide (x.toNat < y.toNat) := rfl

theorem aluMin_eq (x y : Word) : aluMin x y = if x.toInt < y.toInt then x else y := by
  simp only [aluMin, slt_eq_decide, decide_eq_true_eq]
theorem aluMax_eq (x y : Word) : aluMax x y = if x.toInt < y.toInt then y else x := by
  simp only [aluMax, slt_eq_decide, decide_eq_true_eq]
theorem aluSlt_eq (x y : Word) : aluSlt x y = if x.toInt < y.toInt then 1 else 0 := boolWord_decide _
theorem aluSltn_eq (x y : Word) : aluSltn x y = if x.toNat < y.toNat then 1 else 0 := boolWord_decide _
theorem aluSeq_eq (x y : Word) : aluSeq x y = if x = y then 1 else 0 := by
  simp only [aluSeq, boolWord, beq_iff_eq]
theorem aluSne_eq (x y : Word) : aluSne x y = if x = y then 0 else 1 := by
  simp only [aluSne, boolWord, bne_iff_ne, ne_eq, ite_not]

/-! ### Immediates (R118, R119) -/

theorem toInt_immS (i : BitVec 16) : (immS i).toInt = i.toInt := BitVec.toInt_signExtend_of_le (by decide)
theorem toNat_immZ (i : BitVec 16) : (immZ i).toNat = i.toNat := by
  rw [immZ, BitVec.toNat_setWidth]; omega

/-- The low bits of a word, as a mask keeps them. -/
theorem toNat_and_lowMask (x : Word) {n : Nat} (hn : n ≤ 64) : (x &&& w64 (2 ^ n - 1)).toNat = x.toNat % 2 ^ n := by
  have h : 2 ^ n - 1 < 2 ^ 64 := by
    have := Nat.pow_le_pow_right (n := 2) (by decide) hn
    have := Nat.two_pow_pos n
    omega
  rw [BitVec.toNat_and, w64, BitVec.toNat_ofNat, Nat.mod_eq_of_lt h, Nat.and_two_pow_sub_one_eq_mod]

theorem getLsbD_lowMask (n i : Nat) (hi : i < 64) : (lowMask n).getLsbD i = decide (i < n) := by
  rw [lowMask, w64, BitVec.getLsbD_ofNat, Nat.testBit_two_pow_sub_one]
  simp only [hi, decide_true, Bool.true_and]

/-- LIT as a number: the 16 bits at their group, signed, over the groups below (R119). -/
theorem litValue_eq (x : Word) (k : BitVec 2) (i : BitVec 16) :
    litValue x k i = BitVec.ofInt 64 (i.toInt * 2 ^ (16 * k.toNat) + (x.toNat % 2 ^ (16 * k.toNat) : Nat)) := by
  have hk := k.isLt
  have hn : 16 * k.toNat ≤ 64 := by omega
  simp only [litValue]
  generalize 16 * k.toNat = n at hn
  have hlow : x &&& w64 (2 ^ n - 1) = BitVec.ofNat 64 (x.toNat % 2 ^ n) :=
    BitVec.eq_of_toNat_eq (by
      rw [toNat_and_lowMask x hn, BitVec.toNat_ofNat,
        Nat.mod_eq_of_lt (Nat.lt_of_le_of_lt (Nat.mod_le _ _) x.isLt)])
  have hhigh : immS i <<< n = BitVec.ofInt 64 (i.toInt * 2 ^ n) := by
    have h2 : BitVec.twoPow 64 n = BitVec.ofInt 64 (2 ^ n) :=
      BitVec.eq_of_toNat_eq (by
        rw [BitVec.toNat_twoPow, show (2 : Int) ^ n = ((2 ^ n : Nat) : Int) by norm_cast, BitVec.ofInt_natCast, BitVec.toNat_ofNat])
    rw [BitVec.shiftLeft_eq_mul_twoPow, h2, BitVec.ofInt_mul]
    rfl
  have hdisj : immS i <<< n &&& (x &&& w64 (2 ^ n - 1)) = 0 := by
    refine BitVec.eq_of_getLsbD_eq fun j hj => ?_
    have hm : (w64 (2 ^ n - 1)).getLsbD j = decide (j < n) := getLsbD_lowMask n j hj
    rw [BitVec.getLsbD_and, BitVec.getLsbD_and, BitVec.getLsbD_shiftLeft, hm]
    by_cases h : j < n <;> simp [h]
  rw [← BitVec.add_eq_or_of_and_eq_zero _ _ hdisj, hlow, hhigh, BitVec.ofInt_add, BitVec.ofInt_natCast]

/-! ### Products, counts, extensions and fields (R120, R122, R123) -/

theorem mul_eq_ofNat (x y : Word) : x * y = BitVec.ofNat 64 (x.toNat * y.toNat) :=
  BitVec.eq_of_toNat_eq (by rw [BitVec.toNat_mul, BitVec.toNat_ofNat])

theorem sextW_mul (x y : Word) : sextW (x * y) = (BitVec.ofNat 32 (x.toNat * y.toNat)).signExtend 64 := by
  rw [sextW, mul_eq_ofNat, BitVec.setWidth_ofNat_of_le (by decide)]

/-- The leading zeros of the n low bits: how many there are, that they are 0, and that the bit below them is 1. -/
theorem clzNat_spec (x : Word) (n : Nat) : clzNat x n ≤ n ∧ (∀ i < clzNat x n, x.getLsbD (n - 1 - i) = false) ∧
    (clzNat x n < n → x.getLsbD (n - 1 - clzNat x n) = true) := by
  induction n with
  | zero => simp [clzNat]
  | succ n ih =>
    obtain ⟨hle, hz, ho⟩ := ih
    unfold clzNat
    by_cases hb : x.getLsbD n = true
    · simp [hb]
    · rw [if_neg hb]
      refine ⟨by omega, fun i hi => ?_, fun hlt => ?_⟩
      · rcases i with _ | i
        · simpa using hb
        · rw [show n + 1 - 1 - (i + 1) = n - 1 - i by omega]
          exact hz i (by omega)
      · rw [show n + 1 - 1 - (1 + clzNat x n) = n - 1 - clzNat x n by omega]
        exact ho (by omega)

/-- The trailing zeros from bit p over n bits: how many there are, that they are 0, and that the bit above them is 1. -/
theorem ctzNat_spec (x : Word) (n : Nat) : ∀ p, ctzNat x p n ≤ n ∧ (∀ i < ctzNat x p n, x.getLsbD (p + i) = false) ∧
    (ctzNat x p n < n → x.getLsbD (p + ctzNat x p n) = true) := by
  induction n with
  | zero => intro p; simp [ctzNat]
  | succ n ih =>
    intro p
    obtain ⟨hle, hz, ho⟩ := ih (p + 1)
    unfold ctzNat
    by_cases hb : x.getLsbD p = true
    · simp [hb]
    · rw [if_neg hb]
      refine ⟨by omega, fun i hi => ?_, fun hlt => ?_⟩
      · rcases i with _ | i
        · simpa using hb
        · rw [show p + (i + 1) = p + 1 + i by omega]
          exact hz i (by omega)
      · rw [show p + (1 + ctzNat x (p + 1) n) = p + 1 + ctzNat x (p + 1) n by omega]
        exact ho (by omega)

theorem popNat_eq_countP (x : Word) (n : Nat) : popNat x n = (List.range n).countP fun i => x.getLsbD i := by
  induction n with
  | zero => rfl
  | succ n ih =>
    rw [List.range_succ, List.countP_append, List.countP_singleton, popNat, ih, Nat.add_comm]

theorem getLsbD_reverse_word (x : Word) (i : Nat) (h : i < 64) : x.reverse.getLsbD i = x.getLsbD (63 - i) := by
  rw [BitVec.getLsbD_reverse, BitVec.getMsbD]
  simp only [h, decide_true, Bool.true_and]

theorem setWidth_setWidth_eq_mod (x : Word) (n : Nat) : (x.setWidth n).setWidth 64 = BitVec.ofNat 64 (x.toNat % 2 ^ n) := by
  apply BitVec.eq_of_toNat_eq
  rw [BitVec.toNat_setWidth, BitVec.toNat_setWidth, BitVec.toNat_ofNat]

theorem fieldWidth_le (y : Word) : fieldWidth y ≤ 64 := by
  unfold fieldWidth; omega

theorem bfxValue_eq (x y : Word) : bfxValue x y = BitVec.ofNat 64 (x.toNat / 2 ^ fieldPos y % 2 ^ fieldWidth y) := by
  apply BitVec.eq_of_toNat_eq
  have h : x.toNat / 2 ^ fieldPos y % 2 ^ fieldWidth y < 2 ^ 64 :=
    Nat.lt_of_le_of_lt (Nat.le_trans (Nat.mod_le _ _) (Nat.div_le_self _ _)) x.isLt
  rw [bfxValue, lowMask, toNat_and_lowMask _ (fieldWidth_le y), BitVec.toNat_ushiftRight, Nat.shiftRight_eq_div_pow, BitVec.toNat_ofNat,
    Nat.mod_eq_of_lt h]

/-- BFI bit by bit: the field's bits are those of the source, the others stay (R123). -/
theorem getLsbD_bfiValue (z x y : Word) (i : Nat) (hi : i < 64) : (bfiValue z x y).getLsbD i =
    if fieldPos y ≤ i ∧ i < fieldPos y + fieldWidth y then x.getLsbD (i - fieldPos y) else z.getLsbD i := by
  have hm : (lowMask (fieldWidth y) <<< fieldPos y).getLsbD i = decide (fieldPos y ≤ i ∧ i < fieldPos y + fieldWidth y) := by
    rw [BitVec.getLsbD_shiftLeft, getLsbD_lowMask _ _ (by omega)]
    simp only [hi, decide_true, Bool.true_and]
    rw [← decide_not, ← Bool.decide_and, decide_eq_decide]
    omega
  simp only [bfiValue, BitVec.getLsbD_or, BitVec.getLsbD_and, BitVec.getLsbD_not, hm]
  by_cases h : fieldPos y ≤ i ∧ i < fieldPos y + fieldWidth y
  · rw [if_pos h, BitVec.getLsbD_shiftLeft]
    simp only [h, hi, decide_true, Nat.not_lt.mpr h.1, decide_false, Bool.not_true, Bool.not_false, Bool.and_true, Bool.true_and,
      Bool.and_false, Bool.false_or, and_self]
  · rw [if_neg h]
    simp only [h, hi, decide_true, decide_false, Bool.not_false, Bool.and_true, Bool.and_false, Bool.or_false]

/-! ### Pointers (R109, R110, R124, R125) -/

/-- The bits of a word from lo up, where it has none above hi. -/
theorem bits_top (x : Word) (lo : Nat) (h : lo ≤ 63) : bits x.toNat 63 lo = x.toNat / 2 ^ lo := by
  have hx := x.isLt
  rw [bits, Nat.mod_eq_of_lt]
  rw [Nat.div_lt_iff_lt_mul (Nat.two_pow_pos lo), ← Nat.pow_add]
  rwa [show 63 + 1 - lo + lo = 64 by omega]

theorem padd_eq (x : Word) (delta : Int) (o : Int) (ho : o = (x.toNat % 2 ^ 48 : Nat) + delta) : padd x delta =
    if 0 ≤ o ∧ o < 2 ^ 48 then BitVec.ofNat 64 (x.toNat / 2 ^ 48 * 2 ^ 48 + o.toNat)
    else BitVec.ofNat 64 (x.toNat / 2 ^ 56 * 2 ^ 56 + 0xFF * 2 ^ 48 + (o % 2 ^ 48).toNat) := by
  subst ho
  simp only [padd, ptrOff, bits_top x 48 (by decide), bits_top x 56 (by decide), w64]

theorem ptrOk_eq_false_iff (x : Word) :
    (!ptrOk x) = true ↔ x.toNat / 2 ^ 48 % 256 ≠ 0 ∨ 22 ≤ x.toNat / 2 ^ 59 ∨ x.toNat / 2 ^ 56 % 8 = 7 := by
  rw [ptrOk, bits_top x 59 (by decide)]
  simp only [bits, Bool.not_and, Bool.or_eq_true, Bool.not_eq_true', beq_eq_false_iff_ne, decide_eq_false_iff_not, bne_eq_false_iff_eq,
    Nat.not_lt, or_assoc, Nat.reduceAdd, Nat.reduceSub, Nat.reducePow]

theorem isVoid_iff (g : Seg) : g.isVoid = true ↔ g.kind = 0 ∨ 6 ≤ g.kind ∨ 2 ^ 60 ≤ g.w0.toNat ∨ 2 ^ 54 ≤ g.w1.toNat := by
  have hk : g.kind < 8 := Nat.mod_lt _ (by decide)
  simp only [Seg.isVoid, Bool.or_eq_true, beq_iff_eq, bne_iff_ne]
  omega

theorem pchkStatus_eq (x : Word) (g : Seg) : pchkStatus x g =
    if x.toNat / 2 ^ 48 % 256 ≠ 0 ∨ 22 ≤ x.toNat / 2 ^ 59 ∨ x.toNat / 2 ^ 56 % 8 = 7 then 5
    else if g.kind = 0 ∨ 6 ≤ g.kind ∨ 2 ^ 60 ≤ g.w0.toNat ∨ 2 ^ 54 ≤ g.w1.toNat then 4
    else if g.w1.toNat % 2 ^ 48 < x.toNat % 2 ^ 48 then 3 else 0 := by
  simp only [pchkStatus, ptrOk_eq_false_iff, isVoid_iff]
  rfl

end Sys2Proof.Machine
end

section
/-! The tables of one-register instructions settled: ALU, immediates, products and bits, pointers (R117 to R125). Each row is
`writes_row` with the model's meaning, which is definitional, and the lemma that says the value as the row does. -/

namespace Sys2Proof.Machine

open Sys2Proof.Safety

theorem alu_illegal (d a b : BitVec 5) (m : Nat) (h : 20 ≤ m) (hm : m < 2048) : Illegal (wordA 0x01 d a b m) :=
  ⟨.minor, by rw [decode_wordA_alu d a b m hm, List.getElem?_eq_none (by exact h)]; rfl⟩

theorem alu_decodes (d a b : BitVec 5) (m : Nat) (i : Instr) (h : (aluRows d a b)[m]? = some i) :
    decode (wordA 0x01 d a b m) = .ok i := by
  obtain ⟨hl, -⟩ := List.getElem?_eq_some_iff.mp h
  change m < 20 at hl
  rw [decode_wordA_alu d a b m (by omega), h]
  rfl

/-- Settles O1: each row's meaning is one write of a register, whose value is the row's; the words are read by minor. -/
theorem aluWritesItsRow : Obligations.AluWritesItsRow := by
  unfold Obligations.AluWritesItsRow
  intro s d a b
  exact ⟨
    -- sums and logic
    writes_row rfl rfl, writes_row rfl rfl, writes_row rfl rfl, writes_row rfl rfl, writes_row rfl rfl, writes_row rfl rfl,
    -- shifts and the rotation
    writes_row rfl (shiftLeft_eq_mul _ _), writes_row rfl (ushiftRight_eq_div _ _), writes_row rfl (sshiftRight_eq_div _ _),
    writes_row rfl (rotateLeft_eq_or _ _ (Nat.mod_lt _ (by decide))),
    -- minima, maxima and comparisons
    writes_row rfl (aluMin_eq _ _), writes_row rfl (aluMax_eq _ _), writes_row rfl rfl, writes_row rfl rfl,
    writes_row rfl (aluSlt_eq _ _), writes_row rfl (aluSltn_eq _ _), writes_row rfl (aluSeq_eq _ _), writes_row rfl (aluSne_eq _ _),
    -- 32-bit sums, and the words
    writes_row rfl rfl, writes_row rfl rfl, alu_decodes d a b, alu_illegal d a b⟩

/-- Settles O2: each meaning is one write of a register; LIT's groups do not overlap, so its OR is a sum. -/
theorem immediatesWriteTheirRow : Obligations.ImmediatesWriteTheirRow := by
  unfold Obligations.ImmediatesWriteTheirRow
  intro s d a i c k
  refine ⟨writes_row rfl rfl, writes_row rfl rfl, writes_row rfl rfl, writes_row rfl rfl, writes_row rfl (shiftLeft_eq_mul _ _),
    writes_row rfl (ushiftRight_eq_div _ _), writes_row rfl (sshiftRight_eq_div _ _), writes_row rfl (rotateLeft_eq_or _ _ c.isLt),
    writes_row rfl rfl, writes_row rfl ?_, writes_row rfl ?_, writes_row rfl (litValue_eq _ k i),
    decode_wordI_row rfl, decode_wordI_row rfl, decode_wordI_row rfl, decode_wordI_row rfl,
    decode_wordI_shi d a 0 c _ rfl, decode_wordI_shi d a 1 c _ rfl, decode_wordI_shi d a 2 c _ rfl, decode_wordI_shi d a 3 c _ rfl,
    decode_wordI_movi d i, decode_wordI_lit d k i,
    decode_wordI_row rfl, decode_wordI_row rfl⟩
  · rw [slt_eq_decide, toInt_immS, boolWord_decide]
  · rw [ult_eq_decide, toNat_immZ, boolWord_decide]

/-- Settles O3: the counts by induction over the bits looked at, the bit fields bit by bit. -/
theorem productsAndBitsWriteTheirRow : Obligations.ProductsAndBitsWriteTheirRow := by
  unfold Obligations.ProductsAndBitsWriteTheirRow
  intro s d a b
  obtain ⟨hcl, hcz, hco⟩ := clzNat_spec (rd s a) 64
  obtain ⟨htl, htz, hto⟩ := ctzNat_spec (rd s a) 64 0
  simp only [Nat.zero_add] at htz hto
  exact ⟨writes_row rfl (mul_eq_ofNat _ _), writes_row rfl rfl, writes_row rfl rfl, writes_row rfl (sextW_mul _ _),
    ⟨_, hcl, writes_row rfl rfl, hcz, hco⟩, ⟨_, htl, writes_row rfl rfl, htz, hto⟩,
    writes_row rfl (congrArg w64 (popNat_eq_countP _ 64)), ⟨_, writes_row rfl rfl, getLsbD_reverse_word _⟩,
    writes_row rfl rfl, writes_row rfl rfl, writes_row rfl rfl, writes_row rfl (setWidth_setWidth_eq_mod _ 8),
    writes_row rfl (setWidth_setWidth_eq_mod _ 16), writes_row rfl (setWidth_setWidth_eq_mod _ 32), writes_row rfl (bfxValue_eq _ _),
    ⟨_, writes_row rfl rfl, getLsbD_bfiValue _ _ _⟩, decode_wordA_bits d a, decode_wordA_bitField d a b (.inl ⟨rfl, rfl⟩),
    decode_wordA_bitField d a b (.inr ⟨rfl, rfl⟩)⟩

theorem pointer_decodes {d a b : BitVec 5} (m : Nat) {i : Instr} (hm : m < 2048) (h : ptrRow d a b m = .ok i) :
    decode (wordA 0x0D d a b m) = .ok i := (decode_wordA_ptr d a b m hm).trans h

/-- Settles O4: PADD and PSUB move the offset by one function, and PCHK's checks are those of R109 and R110 in order. -/
theorem pointersWriteTheirRow : Obligations.PointersWriteTheirRow := by
  unfold Obligations.PointersWriteTheirRow
  intro s d a b k
  refine ⟨writes_row rfl (padd_eq _ _ _ rfl), writes_row rfl (padd_eq _ _ _ Int.sub_eq_add_neg),
    writes_row rfl rfl, writes_row rfl rfl, writes_row rfl rfl, writes_row rfl (pchkStatus_eq _ _),
    pointer_decodes 0 (by decide) rfl, pointer_decodes 1 (by decide) rfl,
    pointer_decodes 2 (by decide) rfl, pointer_decodes 3 (by decide) rfl, pointer_decodes 4 (by decide) rfl,
    pointer_decodes 5 (by decide) ?_, fun hb => ⟨.field, ?_⟩⟩
  · have hk := k.isLt
    have hw : (k.setWidth 5).toNat = k.toNat := by rw [BitVec.toNat_setWidth]; omega
    have hs : (k.setWidth 5).setWidth 3 = k := BitVec.eq_of_toNat_eq (by rw [BitVec.toNat_setWidth, hw]; omega)
    rw [ptrRow, if_pos (by omega), hs]
  · rw [decode_wordA_ptr d a b 5 (by decide), ptrRow, if_neg (by omega)]

end Sys2Proof.Machine
end

section
/-! The divides (R120, R121): the quotients and remainders as numbers, what a divide does at issue, and what DIVIDE_DONE does. -/

namespace Sys2Proof.Machine

open Sys2Proof.Safety

/-! ### Quotients and remainders -/

theorem ofInt_toInt_eq {w : Nat} {x : BitVec w} {i : Int} (h : x.toInt = i.bmod (2 ^ w)) : x = BitVec.ofInt w i :=
  BitVec.eq_of_toInt_eq (h.trans (BitVec.toInt_ofInt _).symm)

theorem toInt_eq_zero_iff {w : Nat} (x : BitVec w) : x.toInt = 0 ↔ x = 0 := by
  rw [← BitVec.toInt_inj]; simp

theorem sdiv_eq_ofInt {w : Nat} (x y : BitVec w) : x.sdiv y = BitVec.ofInt w (Int.tdiv x.toInt y.toInt) :=
  ofInt_toInt_eq (BitVec.toInt_sdiv x y)

theorem quotS_eq (x y : Word) :
    quotS x y = if y.toInt = 0 then BitVec.allOnes 64 else BitVec.ofInt 64 (Int.tdiv x.toInt y.toInt) := by
  simp only [quotS, toInt_eq_zero_iff, sdiv_eq_ofInt]

theorem quotU_eq (x y : Word) :
    quotU x y = if (y.toNat : Int) = 0 then BitVec.allOnes 64 else BitVec.ofInt 64 (Int.tdiv x.toNat y.toNat) := by
  have hz : (y.toNat : Int) = 0 ↔ y = 0 := by rw [← BitVec.toNat_inj, Int.natCast_eq_zero]; rfl
  have hq : x / y = BitVec.ofInt 64 (Int.tdiv x.toNat y.toNat) := by
    rw [← Int.ofNat_tdiv, BitVec.ofInt_natCast]
    exact BitVec.eq_of_toNat_eq (by
      rw [BitVec.toNat_udiv, BitVec.toNat_ofNat, Nat.mod_eq_of_lt (Nat.lt_of_le_of_lt (Nat.div_le_self _ _) x.isLt)])
  simp only [quotU, hz, hq]

theorem quotW_eq (x y : Word) : quotW x y = if (y.setWidth 32).toInt = 0 then BitVec.allOnes 64
    else (BitVec.ofInt 32 (Int.tdiv (x.setWidth 32).toInt (y.setWidth 32).toInt)).signExtend 64 := by
  simp only [quotW, toInt_eq_zero_iff, sdiv_eq_ofInt]

theorem remS_eq (x y : Word) : remS x y = BitVec.ofInt 64 (Int.tmod x.toInt y.toInt) := by
  unfold remS
  split
  · subst y
    rw [show (0 : Word).toInt = 0 from rfl, Int.tmod_zero, BitVec.ofInt_toInt]
  · rw [← BitVec.toInt_srem, BitVec.ofInt_toInt]

theorem remU_eq (x y : Word) : remU x y = BitVec.ofInt 64 (Int.tmod x.toNat y.toNat) := by
  have hr : remU x y = x % y := by
    unfold remU
    split
    · subst y
      exact (BitVec.umod_zero).symm
    · rfl
  rw [hr, ← Int.ofNat_tmod, BitVec.ofInt_natCast, ← BitVec.toNat_umod, BitVec.ofNat_toNat, BitVec.setWidth_eq]

theorem remW_eq (x y : Word) : remW x y = BitVec.ofInt 64 (Int.tmod (x.setWidth 32).toInt (y.setWidth 32).toInt) := by
  simp only [remW, sextW, ← BitVec.toInt_srem]
  split
  · rename_i h
    rw [h, show (x.setWidth 32).srem 0 = x.setWidth 32 from BitVec.srem_zero]
    rfl
  · rfl

/-- The divisor of DIVW and REMW is 0 when the low half is (R121). -/
theorem divisorW_eq_zero_iff (y : Word) : divisorW y = 0 ↔ y.toNat % 2 ^ 32 = 0 := by
  rw [← toNat_and_lowMask y (by decide : 32 ≤ 64), ← BitVec.toNat_inj]
  rfl

/-! ### A divide at issue -/

/-- The meaning of a divide, with the value that its row names. -/
theorem divide_value {i : Instr} {s : State} {d : BitVec 5} {p y v u : Word} {n : Nat}
    (h : exec i s = (divide s d p y v n).out) (hv : v = u) : exec i s = (divide s d p y u n).out := hv ▸ h

section issue

variable {i : Instr} {s : State} {d : BitVec 5} {p y v : Word} {n : Nat} (h : exec i s = (divide s d p y v n).out)
include h

/-- A divide by zero with the trap enabled (R121). -/
theorem divide_traps (hy : y = 0) (ht : idz s = true) : Traps i s 0x07 p := by
  rw [Traps, h, divide, hy, ht]
  rfl

theorem divide_app (hy : y = 0 → idz s = false) {j : Nat} (hc : s.cur = .app j) : Writes i s d v := by
  refine writes_row ?_ rfl
  rw [h, divide, if_neg (by simpa using hy), hc]
  rfl

theorem divide_slot (hy : y = 0 → idz s = false) {k : Nat} (hc : s.cur = .slot k) :
    Parks i s k .divide false (.divide d v (s.cycle + n)) := by
  rw [Parks, h, divide, if_neg (by simpa using hy), hc]
  simp only [park, parkOf, hc]
  rfl

end issue

/-! ### The end of a park -/

theorem heldNow_modScOf (s : State) (ag : Agent) (f : ScalarSt → ScalarSt) (x : SlotSt) : heldNow (modScOf s ag f) x = heldNow s x := by
  cases ag <;> rfl

/-- Neither the session nor the slot's standing depends on the scalar state. -/
theorem notHeld_modScOf {s : State} {k : Nat} (h : NotHeld s k) (f : ScalarSt → ScalarSt) : NotHeld (modScOf s (.slot k) f) k := by
  rw [NotHeld, heldNow_modScOf, modScOf, slotAt_modSlot, if_pos rfl]
  exact h

@[simp] theorem readyOf_cur (s : State) (ag : Agent) : (readyOf s ag).cur = s.cur := by cases ag <;> rfl

/-- A change of a slot or of an application core beside its scalar state. -/
theorem scOf_modSlot {f : SlotSt → SlotSt} (h : ∀ x, (f x).sc = x.sc) (s : State) (k : Nat) (ag : Agent) :
    scOf (modSlot s k f) ag = scOf s ag := by
  cases ag with
  | slot j => by_cases hj : j = k <;> simp [scOf, hj, h]
  | app n => rfl

theorem scOf_modApp {f : AppSt → AppSt} (h : ∀ x, (f x).sc = x.sc) (s : State) (n : Nat) (ag : Agent) :
    scOf (modApp s n f) ag = scOf s ag := by
  cases ag with
  | slot k => rfl
  | app j => by_cases hj : j = n <;> simp [scOf, hj, h]

@[simp] theorem scOf_readyOf (s : State) (ag ah : Agent) : scOf (readyOf s ag) ah = scOf s ah := by
  cases ag with
  | slot k => exact scOf_modSlot (fun x => by split <;> rfl) s k ah
  | app n => exact scOf_modApp (f := fun x => { x with park := none }) (fun _ => rfl) s n ah

/-- A slot that no HELD session stops is Ready once its park's reason clears (R25, R388). -/
theorem slotAt_readyOf {s : State} {k : Nat} (h : NotHeld s k) :
    slotAt (readyOf s (.slot k)) k = { slotAt s k with state := .ready, park := none, rdy := s.cycle } := by
  simp only [readyOf, slotAt_modSlot, if_true, show heldNow s (slotAt s k) = false from h]
  simp

/-- The end of a park shows in no scalar register, loop counter or PC. -/
theorem readyOf_shows {s t : State} {ag : Agent} {d : BitVec 5} {v : Word} (h : Wrote s t d v) :
    RegIs s (readyOf t ag) d v ∧ GoneOn s (readyOf t ag) ∧ SameBytes s (readyOf t ag) := by
  obtain ⟨⟨hb, -⟩, hr, hg⟩ := h
  refine ⟨fun r => ?_, fun hl => ?_, fun a => ?_⟩
  · rw [← hr r]; simp [rd, regOf]
  · obtain ⟨hp, hs⟩ := hg hl
    exact ⟨by rw [← hp]; simp [pc, pcOf], fun n => by rw [← hs n]; simp⟩
  · rw [readyOf_mem, hb]

/-- DIVIDE_DONE at its clock: the result is written, and the slot is Ready at the next instruction (R120). -/
theorem divideDone_completes {u : State} {k : Nat} {d : BitVec 5} {v : Word} {due : Nat}
    (hp : (slotAt u k).park = some { reason := .divide, abandon := false, cont := .divide d v due })
    (hc : u.cur = .slot k) (hh : NotHeld u k) (hd : due ≤ u.cycle) :
    ∃ t, exec (.divideDone k) u = .next t ∧ RegIs u t d v ∧ GoneOn u t ∧ SameBytes u t ∧
      (slotAt t k).state = .ready ∧ (slotAt t k).park = none ∧ (slotAt t k).rdy = u.cycle := by
  have he : exec (.divideDone k) u = .next (readyOf (writeRetire u d v) (.slot k)) := by
    show execDivideDone k u = _
    simp only [execDivideDone, hp, if_pos hd, completeOf, writeRetire, retire, wr_cur]
    rw [wr, hc]
  obtain ⟨t, ht, hw⟩ := setReg_wrote u d v
  obtain rfl : writeRetire u d v = t := by simpa [setReg] using ht
  obtain ⟨-, x, hx, -⟩ := hw.1
  have hn : NotHeld (writeRetire u d v) k := by rw [hx, hc]; exact notHeld_modScOf hh _
  have hcy : (writeRetire u d v).cycle = u.cycle := by rw [hx, modScOf_cycle]
  obtain ⟨hr, hg, hb⟩ := readyOf_shows (ag := .slot k) hw
  refine ⟨_, he, hr, hg, hb, ?_, ?_, ?_⟩ <;> rw [slotAt_readyOf hn]
  exact hcy

/-- A park as the statement of the divides gives it: the state, then the slot, then its park. -/
theorem parks_shown {i : Instr} {s : State} {k : Nat} {r : ParkReason} {ab : Bool} {c : Cont} (h : Parks i s k r ab c) :
    ∃ t, exec i s = .next t ∧ t = setSlot s k (slotAt t k) ∧
      slotAt t k = { slotAt s k with state := .parked, park := (slotAt t k).park } ∧
      (slotAt t k).park = some { reason := r, abandon := ab, cont := c } := by
  refine ⟨_, h, ?_, ?_, ?_⟩ <;> simp only [slotAt_setSlot, if_true]

/-- Settles O5: every divide is the shared operation `divide` with its row's value, and DIVIDE_DONE is a register write that
retires, with the park taken away. -/
theorem dividesCompleteOrTrap : Obligations.DividesCompleteOrTrap := by
  unfold Obligations.DividesCompleteOrTrap
  refine ⟨fun s d a b i v n hrow hy => ?_, fun s d a b ht => ⟨fun hb => ?_, fun hb => ?_⟩⟩
  · obtain ⟨y, hx, hz⟩ : ∃ y, exec i s = (divide s d (rd s a) y v n).out ∧ (y = 0 → idz s = false) := by
      have h64 : (rd s b).toNat ≠ 0 ∨ idz s = false → rd s b = 0 → idz s = false :=
        fun h h0 => h.resolve_left (fun hn => hn (by rw [h0]; rfl))
      have h32 : (rd s b).toNat % 2 ^ 32 ≠ 0 ∨ idz s = false → divisorW (rd s b) = 0 → idz s = false :=
        fun h h0 => h.resolve_left (fun hn => hn ((divisorW_eq_zero_iff _).mp h0))
      rcases hrow with ⟨rfl, rfl, rfl⟩ | ⟨rfl, rfl, rfl⟩ | ⟨rfl, rfl, rfl⟩ | ⟨rfl, rfl, rfl⟩ | ⟨rfl, rfl, rfl⟩ |
        ⟨rfl, rfl, rfl⟩
      · exact ⟨rd s b, divide_value rfl (quotS_eq _ _), h64 hy⟩
      · exact ⟨rd s b, divide_value rfl (remS_eq _ _), h64 hy⟩
      · exact ⟨rd s b, divide_value rfl (quotU_eq _ _), h64 hy⟩
      · exact ⟨rd s b, divide_value rfl (remU_eq _ _), h64 hy⟩
      · exact ⟨divisorW (rd s b), divide_value rfl (quotW_eq _ _), h32 hy⟩
      · exact ⟨divisorW (rd s b), divide_value rfl (remW_eq _ _), h32 hy⟩
    exact ⟨fun j hc => divide_app hx hz hc, fun k hc => ⟨parks_shown (divide_slot hx hz hc),
      fun u hp hu hh hd => divideDone_completes hp hu hh hd⟩⟩
  · exact ⟨divide_traps rfl hb ht, divide_traps rfl hb ht, divide_traps rfl hb ht, divide_traps rfl hb ht⟩
  · have hz := (divisorW_eq_zero_iff _).mpr hb
    exact ⟨divide_traps rfl hz ht, divide_traps rfl hz ht⟩

end Sys2Proof.Machine
end

section
/-! Branches and jumps (R127, R128). -/

namespace Sys2Proof.Machine

open Sys2Proof.Safety

/-! ### Targets -/

theorem jumpTo_taken {s : State} {p : Int} (h : 0 ≤ p) : jumpTo s p = .ok (setPcOf s s.cur (ofInt p)) := if_neg (by omega)

theorem jumpTo_below {s : State} {p : Int} (h : p < 0) : jumpTo s p = trap s 0x03 (ofInt p) := if_pos h

/-- A conditional branch, by its comparison (R127). -/
theorem branch_goes {i : Instr} {s : State} {c : Bool} {o : BitVec 16} {q : Prop} (hi : exec i s = branch s c o) (hc : c = true ↔ q) :
    let p := (pc s).toNat + 4 * o.toInt
    (q → 0 ≤ p → GoesTo i s (BitVec.ofInt 64 p)) ∧ (q → p < 0 → Traps i s 0x03 (BitVec.ofInt 64 p)) ∧
    (¬ q → ∃ t, exec i s = .next t ∧ OnlyScalar s t ∧ SameRegs s t ∧ GoneOn s t) := by
  refine ⟨fun hq hp => ?_, fun hq hp => ?_, fun hq => ⟨retire s, ?_, retire_goneOn s⟩⟩
  · apply goesTo_of_setPc
    rw [hi, branch, if_pos (hc.mpr hq), jumpTo_taken hp]
    rfl
  · rw [Traps, hi, branch, if_pos (hc.mpr hq), jumpTo_below hp]
    rfl
  · rw [hi, branch, if_neg (fun h => hq (hc.mp h))]

/-- A jump with a link: PC + 4 in the link register, and the PC at the target (R128). -/
theorem links_of_setPc {i : Instr} {s : State} {l : BitVec 5} {p : Word}
    (h : exec i s = .next (setPcOf (wr s l (pc s + 4)) s.cur p)) :
    ∃ t, exec i s = .next t ∧ OnlyScalar s t ∧ SameLoops s t ∧ pc t = p ∧ RegIs s t l (pc s + 4) :=
  ⟨_, h, link_setPc s l (pc s + 4) p⟩

theorem exec_j (f : BitVec 26) (s : State) : exec (.j f) s = (jumpTo s ((pc s).toNat + 4 * f.toInt)).out := rfl

theorem exec_jal_taken {f : BitVec 26} {s : State} (h : 0 ≤ (pc s).toNat + 4 * f.toInt) :
    exec (.jal f) s = .next (setPcOf (wr s 1 (pc s + 4)) s.cur (BitVec.ofInt 64 ((pc s).toNat + 4 * f.toInt))) := by
  show execJal f s = _
  rw [execJal, jumpTo_taken h, jumpTo_taken h, wr_cur]
  rfl

theorem exec_jal_below {f : BitVec 26} {s : State} (h : (pc s).toNat + 4 * f.toInt < 0) :
    Traps (.jal f) s 0x03 (BitVec.ofInt 64 ((pc s).toNat + 4 * f.toInt)) := by
  show execJal f s = _
  rw [execJal, jumpTo_below h]
  rfl

/-! ### Jumps to a register -/

theorem jumpReg_taken {s : State} {x : Word} (ha : x.toNat % 4 = 0) (hx : 0 ≤ x.toInt) : jumpReg s x = .ok () := by
  rw [jumpReg, if_neg (by simpa using ha), if_neg (by rw [BitVec.msb_eq_toInt]; simpa using hx)]

theorem jumpReg_unaligned {s : State} {x : Word} (ha : x.toNat % 4 ≠ 0) : jumpReg s x = trap s 0x06 x := if_pos ha

theorem jumpReg_below {s : State} {x : Word} (ha : x.toNat % 4 = 0) (hx : x.toInt < 0) : jumpReg s x = trap s 0x03 x := by
  rw [jumpReg, if_neg (by simpa using ha), if_pos (by rw [BitVec.msb_eq_toInt]; simpa using hx)]

theorem jumpReg_goes {s : State} {a : BitVec 5} (h : jumpReg s (rd s a) = .ok ()) (d : BitVec 5) :
    exec (.jr a) s = .next (setPcOf s s.cur (rd s a)) ∧
    exec (.jalr d a) s = .next (setPcOf (wr s d (pc s + 4)) s.cur (rd s a)) := by
  constructor
  · show execJr a s = _
    rw [execJr, h]
  · show execJalr d a s = _
    rw [execJalr, h]

theorem jumpReg_traps {s : State} {a : BitVec 5} {cause : Nat} (h : jumpReg s (rd s a) = trap s cause (rd s a)) (d : BitVec 5) :
    Traps (.jr a) s cause (rd s a) ∧ Traps (.jalr d a) s cause (rd s a) := by
  constructor
  · show execJr a s = _
    rw [execJr, h]
    rfl
  · show execJalr d a s = _
    rw [execJalr, h]
    rfl

/-- Settles O6: the six branches share `branch`, the jumps share their checks, and each goes on, goes to its target, or traps. -/
theorem branchesAndJumpsGoToTheirTarget : Obligations.BranchesAndJumpsGoToTheirTarget := by
  unfold Obligations.BranchesAndJumpsGoToTheirTarget
  intro s d a b o f
  refine ⟨branch_goes rfl beq_iff_eq, branch_goes rfl bne_iff_ne, branch_goes rfl decide_eq_true_iff, branch_goes rfl ?_,
    branch_goes rfl decide_eq_true_iff, branch_goes rfl ?_,
    fun hp => ⟨goesTo_of_setPc ?_, links_of_setPc (exec_jal_taken hp)⟩, fun hp => ⟨?_, exec_jal_below hp⟩,
    fun ha hx => ?_, fun ha => jumpReg_traps (jumpReg_unaligned ha) d, fun ha hx => jumpReg_traps (jumpReg_below ha hx) d,
    decode_wordI_row rfl, decode_wordI_row rfl, decode_wordI_row rfl, decode_wordI_row rfl, decode_wordI_row rfl, decode_wordI_row rfl,
    decode_wordJ_j f, decode_wordJ_jal f, decode_wordA_jr a, decode_wordA_jalr d a⟩
  · simp [slt_eq_decide]
  · simp [ult_eq_decide]
  · rw [exec_j, jumpTo_taken hp]
    rfl
  · rw [Traps, exec_j, jumpTo_below hp]
    rfl
  · obtain ⟨hj, hl⟩ := jumpReg_goes (jumpReg_taken ha hx) d
    exact ⟨goesTo_of_setPc hj, links_of_setPc hl⟩

end Sys2Proof.Machine
end

section
/-! The loop counters (R130, R131). -/

namespace Sys2Proof.Machine

open Sys2Proof.Safety

/-! ### One counter among two -/

theorem counter_cases (n : BitVec 1) : n = 0 ∨ n = 1 := by
  have := n.isLt
  rcases Nat.lt_or_ge n.toNat 1 with h | h
  · exact .inl (BitVec.eq_of_toNat_eq (by simpa using h))
  · exact .inr (BitVec.eq_of_toNat_eq (by simp; omega))

theorem getLoop_setLoop (x : ScalarSt) (n m : BitVec 1) (l : Loop) : getLoop (setLoop x n l) m = if m = n then l else getLoop x m := by
  rcases counter_cases n with rfl | rfl <;> rcases counter_cases m with rfl | rfl <;> rfl

theorem setLoop_frame (x : ScalarSt) (n : BitVec 1) (l : Loop) :
    setLoop x n l = { x with lc0 := (setLoop x n l).lc0, lc1 := (setLoop x n l).lc1 } := by
  rcases counter_cases n with rfl | rfl <;> rfl

/-- The number of the other counter. -/
theorem other_ne (n : BitVec 1) : 1 - n ≠ n := by
  rcases counter_cases n with rfl | rfl <;> decide

/-- Counter n of a scalar state ends at its PC. -/
def EndsAt (x : ScalarSt) (n : BitVec 1) : Prop := (getLoop x n).active = true ∧ (getLoop x n).stop = x.pc

theorem atLoopEnd_of_endsAt {s : State} {n : BitVec 1} (ht : tl s = 0) (h : EndsAt (scOf s s.cur) n) : AtLoopEnd s := by
  rcases counter_cases n with rfl | rfl
  · exact ⟨ht, .inl h⟩
  · exact ⟨ht, .inr h⟩

/-- Retiring at level 0 where the other counter does not end: counter n makes its step, and the PC goes where it sends it, or on to
the next word (R131). -/
theorem retireSc_one {x : ScalarSt} {n : BitVec 1} (h : ¬ EndsAt x (1 - n)) : retireSc 0 x =
    { setLoop x n (loopStep (getLoop x n) x.pc).1 with pc := (loopStep (getLoop x n) x.pc).2.getD (x.pc + 4) } := by
  have hi : loopStep (getLoop x (1 - n)) x.pc = (getLoop x (1 - n), none) := loopStep_idle h
  unfold retireSc
  rw [if_neg (by simp)]
  rcases counter_cases n with rfl | rfl
  · change loopStep x.lc1 x.pc = (x.lc1, none) at hi
    simp only [getLoop, setLoop, if_true, hi]
    split
    · rfl
    · cases h0 : (loopStep x.lc0 x.pc).2 <;> simp
  · change loopStep x.lc0 x.pc = (x.lc0, none) at hi
    simp only [getLoop, setLoop, show ¬ (1 : BitVec 1) = 0 by decide, if_false, hi]
    split
    · cases h1 : (loopStep x.lc1 x.pc).2 <;> simp
    · rfl

theorem loopStep_ends {l : Loop} {p : Word} (ha : l.active = true) (hs : l.stop = p) (hc : l.count.toNat ≤ 1) :
    loopStep l p = ({ l with count := 0, active := false }, none) := by
  rw [loopStep, if_pos (by simp [ha, hs]), if_pos hc]

theorem loopStep_repeats {l : Loop} {p : Word} (ha : l.active = true) (hs : l.stop = p) (hc : 1 < l.count.toNat) :
    loopStep l p = ({ l with count := l.count - 1 }, some l.start) := by
  rw [loopStep, if_pos (by simp [ha, hs]), if_neg (by omega)]

/-! ### LOOP at issue -/

/-- The counter that LOOP sets up (R130). -/
def loopOf (s : State) (a : BitVec 5) (o : BitVec 16) : Loop :=
  { count := rd s a, start := pc s + 4, stop := pc s + 4 * o.setWidth 64, active := true, order := s.nextId }

theorem w64_offset (o : BitVec 16) : w64 (4 * o.toNat) = 4 * o.setWidth 64 := by
  apply BitVec.eq_of_toNat_eq
  simp [w64, BitVec.toNat_mul]

/-- The end of a body of at least one word is another address than LOOP's own. -/
theorem stop_ne (p : Word) (o : BitVec 16) (h : o ≠ 0) : p + 4 * o.setWidth 64 ≠ p := by
  intro he
  have h0 : 4 * o.setWidth 64 = (0 : Word) := by simpa using he
  rw [← w64_offset, w64, ← BitVec.toNat_inj, BitVec.toNat_ofNat] at h0
  have := o.isLt
  exact h (BitVec.eq_of_toNat_eq (by simp at h0 ⊢; omega))

theorem modScOf_bumpId (s : State) (ag : Agent) (f : ScalarSt → ScalarSt) : modScOf (bumpId s) ag f = bumpId (modScOf s ag f) := by
  cases ag <;> rfl

theorem bumpId_modScOf (s : State) (ag : Agent) (f : ScalarSt → ScalarSt) :
    bumpId (modScOf s ag f) = { modScOf s ag f with nextId := s.nextId + 1 } := by cases ag <;> rfl

theorem retire_bumpId (s : State) : retire (bumpId s) = bumpId (retire s) := modScOf_bumpId s s.cur _

theorem retire_modScOf (s : State) (f : ScalarSt → ScalarSt) :
    retire (modScOf s s.cur f) = modScOf s s.cur fun x => retireSc (tl s) (f x) := by
  show modScOf (modScOf s s.cur f) (modScOf s s.cur f).cur (retireSc (tl (modScOf s s.cur f))) = _
  rw [tl_modScOf, modScOf_cur, modScOf_modScOf]

theorem loop_illegal {s : State} (a : BitVec 5) (n : BitVec 1) (o : BitVec 16) (h : tl s ≠ 0) :
    Traps (.loop a n o) s 0x01 (s.word.setWidth 64) := by
  show execLoop a n o s = _
  rw [execLoop, if_pos h]
  rfl

/-- The scalar state after a LOOP that skips its body (R130). -/
def skippedSc (s : State) (n : BitVec 1) (o : BitVec 16) : ScalarSt :=
  { setLoop (scOf s s.cur) n { getLoop (scOf s s.cur) n with count := 0, active := false } with pc := pc s + 4 * o.setWidth 64 + 4 }

/-- The scalar state after a LOOP that sets up its counter and retires (R130). -/
def startedSc (s : State) (a : BitVec 5) (n : BitVec 1) (o : BitVec 16) : ScalarSt :=
  retireSc 0 (setLoop (scOf s s.cur) n (loopOf s a o))

theorem loop_skips {s : State} {a : BitVec 5} (n : BitVec 1) (o : BitVec 16) (ht : tl s = 0) (hc : rd s a = 0) :
    exec (.loop a n o) s = .next { modScOf s s.cur (fun _ => skippedSc s n o) with nextId := s.nextId } := by
  show execLoop a n o s = _
  rw [execLoop, if_neg (by simpa using ht)]
  simp only [hc, if_true, w64_offset, setPcOf, modScOf_modScOf]
  rw [modScOf_const, ← modScOf_nextId s s.cur fun _ => skippedSc s n o]
  rfl

theorem loop_starts {s : State} {a : BitVec 5} (n : BitVec 1) (o : BitVec 16) (ht : tl s = 0) (hc : rd s a ≠ 0) :
    exec (.loop a n o) s = .next { modScOf s s.cur (fun _ => startedSc s a n o) with nextId := s.nextId + 1 } := by
  show execLoop a n o s = _
  rw [execLoop, if_neg (by simpa using ht)]
  simp only [if_neg hc, w64_offset, retire_bumpId, retire_modScOf, ht]
  rw [modScOf_const, bumpId_modScOf]
  rfl

/-! ### What a state with other counters shows -/

/-- The scalar state x differs from y in the PC and the loop counters alone. -/
def OnlyLoops (y x : ScalarSt) : Prop := x = { y with pc := x.pc, lc0 := x.lc0, lc1 := x.lc1 }

theorem onlyLoops_setLoop (y : ScalarSt) (n : BitVec 1) (l : Loop) : OnlyLoops y (setLoop y n l) := by
  rcases counter_cases n with rfl | rfl <;> rfl

theorem onlyLoops_retireSc {y x : ScalarSt} (h : OnlyLoops y x) (k : Nat) : OnlyLoops y (retireSc k x) := by
  rw [OnlyLoops, retireSc_frame, show x = _ from h]

theorem loops_shown {s : State} {x : ScalarSt} (h : OnlyLoops (scOf s s.cur) x) (k : Nat) :
    let t := { modScOf s s.cur (fun _ => x) with nextId := k }
    (SameRegs s t ∧ SameBytes s t ∧ ∃ x, t = { modScOf s s.cur (fun _ => x) with nextId := t.nextId } ∧
      x = { scOf s s.cur with pc := x.pc, lc0 := x.lc0, lc1 := x.lc1 }) ∧ pc t = x.pc ∧ scOf t t.cur = x := by
  have hs : x.s = (scOf s s.cur).s := by rw [show x = _ from h]
  exact ⟨⟨sameRegs_modScOf (f := fun _ => x) hs, sameBytes_modScOf s (fun _ => x), x, rfl, h⟩,
    pc_modScOf s (fun _ => x), scOf_modScOf_cur s (fun _ => x)⟩

theorem onlyLoops_skippedSc (s : State) (n : BitVec 1) (o : BitVec 16) : OnlyLoops (scOf s s.cur) (skippedSc s n o) := by
  rw [OnlyLoops, skippedSc, setLoop_frame]

theorem onlyLoops_startedSc (s : State) (a : BitVec 5) (n : BitVec 1) (o : BitVec 16) :
    OnlyLoops (scOf s s.cur) (startedSc s a n o) := onlyLoops_retireSc (onlyLoops_setLoop _ n _) 0

theorem getLoop_skippedSc (s : State) (n m : BitVec 1) (o : BitVec 16) : getLoop (skippedSc s n o) m =
    if m = n then { getLoop (scOf s s.cur) n with count := 0, active := false } else getLoop (scOf s s.cur) m :=
  getLoop_setLoop _ n m _

/-- Where no loop ends, a LOOP that starts its body makes the step of its own counter alone. -/
theorem startedSc_eq {s : State} (a : BitVec 5) (n : BitVec 1) (o : BitVec 16) (ht : tl s = 0) (hl : ¬ AtLoopEnd s) :
    startedSc s a n o = { setLoop (scOf s s.cur) n (loopStep (loopOf s a o) (pc s)).1
      with pc := (loopStep (loopOf s a o) (pc s)).2.getD (pc s + 4) } := by
  have hpc : (setLoop (scOf s s.cur) n (loopOf s a o)).pc = pc s := by rw [setLoop_frame]; rfl
  have ho : getLoop (setLoop (scOf s s.cur) n (loopOf s a o)) (1 - n) = getLoop (scOf s s.cur) (1 - n) := by
    rw [getLoop_setLoop, if_neg (other_ne n)]
  have he : ¬ EndsAt (setLoop (scOf s s.cur) n (loopOf s a o)) (1 - n) := by
    rw [EndsAt, ho, hpc]
    exact fun h => hl (atLoopEnd_of_endsAt ht h)
  rw [startedSc, retireSc_one he, getLoop_setLoop, if_pos rfl, hpc]
  rcases counter_cases n with rfl | rfl <;> rfl

theorem getLoop_startedSc {s : State} (a : BitVec 5) (n m : BitVec 1) (o : BitVec 16) (ht : tl s = 0) (hl : ¬ AtLoopEnd s) :
    getLoop (startedSc s a n o) m = if m = n then (loopStep (loopOf s a o) (pc s)).1 else getLoop (scOf s s.cur) m := by
  rw [startedSc_eq a n o ht hl, ← getLoop_setLoop]
  rfl

/-- LOOP at level 0 (R130): the counter is set up, or the body is skipped. -/
theorem loop_completes {s : State} (a : BitVec 5) (n : BitVec 1) (o : BitVec 16) (ht : tl s = 0) :
    ∃ t, exec (.loop a n o) s = .next t ∧ SameRegs s t ∧ SameBytes s t ∧
      (∃ x, t = { modScOf s s.cur (fun _ => x) with nextId := t.nextId } ∧
        x = { scOf s s.cur with pc := x.pc, lc0 := x.lc0, lc1 := x.lc1 }) ∧
      (rd s a = 0 → pc t = pc s + 4 * o.setWidth 64 + 4 ∧ (getLoop (scOf t t.cur) n).count = 0 ∧
        (getLoop (scOf t t.cur) n).active = false) ∧
      (rd s a ≠ 0 → ¬ AtLoopEnd s → o ≠ 0 → pc t = pc s + 4 ∧ getLoop (scOf t t.cur) n = loopOf s a o) ∧
      (¬ AtLoopEnd s → ∀ m, m ≠ n → getLoop (scOf t t.cur) m = getLoop (scOf s s.cur) m) := by
  by_cases hc : rd s a = 0
  · obtain ⟨⟨hr, hb, hf⟩, hp, hs⟩ := loops_shown (onlyLoops_skippedSc s n o) s.nextId
    refine ⟨_, loop_skips n o ht hc, hr, hb, hf, fun _ => ⟨hp, ?_⟩, fun h => absurd hc h, fun _ m hm => ?_⟩
    · rw [hs, getLoop_skippedSc, if_pos rfl]
      exact ⟨rfl, rfl⟩
    · rw [hs, getLoop_skippedSc, if_neg hm]
  · obtain ⟨⟨hr, hb, hf⟩, hp, hs⟩ := loops_shown (onlyLoops_startedSc s a n o) (s.nextId + 1)
    refine ⟨_, loop_starts n o ht hc, hr, hb, hf, fun h => absurd h hc, fun _ hl ho => ?_, fun hl m hm => ?_⟩
    · have hi : loopStep (loopOf s a o) (pc s) = (loopOf s a o, none) := loopStep_idle fun he => stop_ne (pc s) o ho he.2
      rw [hp, hs, getLoop_startedSc a n n o ht hl, if_pos rfl, startedSc_eq a n o ht hl, hi]
      exact ⟨rfl, rfl⟩
    · rw [hs, getLoop_startedSc a n m o ht hl, if_neg hm]

/-! ### An instruction at the end of a body -/

/-- Retiring where counter n alone ends (R131): the last pass ends the counter, an earlier one goes back to its start. -/
theorem retire_loopEnd {s : State} {n : BitVec 1} (ht : tl s = 0) (he : EndsAt (scOf s s.cur) n) (ho : ¬ EndsAt (scOf s s.cur) (1 - n)) :
    let l := getLoop (scOf s s.cur) n
    let x := scOf (retire s) (retire s).cur
    getLoop x (1 - n) = getLoop (scOf s s.cur) (1 - n) ∧
    (l.count.toNat ≤ 1 → pc (retire s) = pc s + 4 ∧ getLoop x n = { l with count := 0, active := false }) ∧
    (1 < l.count.toNat → pc (retire s) = l.start ∧ getLoop x n = { l with count := l.count - 1 }) := by
  obtain ⟨ha, hs⟩ := he
  have hx : scOf (retire s) (retire s).cur = retireSc 0 (scOf s s.cur) := ht ▸ scOf_modScOf_cur s (retireSc (tl s))
  have hp : pc (retire s) = (retireSc 0 (scOf s s.cur)).pc := ht ▸ pc_modScOf s (retireSc (tl s))
  have hg : ∀ m, getLoop (retireSc 0 (scOf s s.cur)) m =
      if m = n then (loopStep (getLoop (scOf s s.cur) n) (scOf s s.cur).pc).1 else getLoop (scOf s s.cur) m := fun m => by
    rw [retireSc_one ho, ← getLoop_setLoop]
    rfl
  simp only [hx, hp, hg, if_pos, if_neg (other_ne n), true_and]
  rw [retireSc_one ho]
  refine ⟨fun hc => ?_, fun hc => ?_⟩
  · rw [loopStep_ends ha hs hc]
    exact ⟨rfl, rfl⟩
  · rw [loopStep_repeats ha hs hc]
    exact ⟨rfl, rfl⟩

theorem exec_nop (s : State) : exec (.add 0 0 0) s = .next (retire s) := rfl

/-- Settles O7: LOOP is settled by whether its count is 0, and the end of a body by the step of the one counter that ends there. -/
theorem loopsCountTheirBody : Obligations.LoopsCountTheirBody := by
  unfold Obligations.LoopsCountTheirBody
  refine ⟨fun s a n o => ⟨loop_illegal a n o, loop_completes a n o, ?_⟩, fun s n ht ha hs ho => ?_⟩
  · have hw : (Instr.loop a n o).wf = decide (1 ≤ o.toNat ∧ o.toNat ≤ 32767) := (Bool.decide_and _ _).symm
    split
    · next h => rw [decode_wordI_loop, legal_wf (hw.trans (decide_eq_true h))]
    · next h => exact ⟨.field, by rw [decode_wordI_loop, legal, hw, if_neg (by simpa using h)]⟩
  · obtain ⟨hf, hr, -⟩ := retire_goneOn s
    exact ⟨retire s, exec_nop s, hf, hr, retire_loopEnd ht ⟨ha, hs⟩ ho⟩

end Sys2Proof.Machine
end
